-- ==== Sys2Proof/Word.lean ====
section
/-! DEFINITION. The word types of the EG-3600: the widths the manual gives its bytes, times, counters, decoder
numbers, lanes and indices. Nothing here computes; arithmetic that a rule speaks of stands in Machine/Ops.lean. -/

namespace Sys2Proof

/-- One byte of a cell (0.6, "Byte order"). -/
abbrev Byte := BitVec 8

/-- A 16-bit field: event numbers, region codes, shares, tags. -/
abbrev Half := BitVec 16

/-- A site time: 48-bit milliseconds (Table 19). -/
abbrev Time := BitVec 48

/-- A counter, 32 bits wide (R14, R25, R32, R80, R99, R118, R137, R148, R168, R176). -/
abbrev Counter := BitVec 32

/-- A decoder number, carried in 24 bits (R82). -/
abbrev Decoder := BitVec 24

/-- A set of event indices 0–23: bit i stands for index i (Table 14, note 1). -/
abbrev EventSet := BitVec 24

/-- A lane: a 12-bit stream number 0–4,095 (chapter 1). -/
abbrev Lane := BitVec 12

/-- A sheet number, 1–4,294,967,295 (Table 11). -/
abbrev SheetNumber := BitVec 32

/-- An event index, 0–23. -/
abbrev EventIndex := Fin 24

/-- A zone, 0–3. -/
abbrev ZoneIndex := Fin 4

/-- A bucket of the Holder Table, 0–8,191 (R82). -/
abbrev Bucket := Fin 8192

/-- A per-zone count, 0–32,768 (Table 28). -/
abbrev ZoneCount := Fin 32769

end Sys2Proof
end

