-- ==== Sys2Proof/Config.lean ====
section
/-! DEFINITION. What the part fixes (sizes, built-in values of Table 81) and the free values: constants with no body
for what the manual leaves open. -/

namespace Sys2Proof.Config

/-- R171: the command queue holds 0–32 cells. -/
abbrev commandQueueSize : Nat := 32
/-- R173: the reply queue holds 0–16 replies. -/
abbrev replyQueueSize : Nat := 16
/-- R171: the busy flag is set when a join brings the queue to 24. -/
abbrev busyLevel : Nat := 24
/-- R171: the busy flag is cleared when a leaving brings the queue to 8. -/
abbrev clearLevel : Nat := 8
/-- R139: a fresh queue holds 0–256 entries. -/
abbrev freshQueueSize : Nat := 256
/-- R159: no zone's sweep queue holds more than 160 cells. -/
abbrev sweepQueueSize : Nat := 160
/-- R159: the Notice Pool holds 384 cell buffers. -/
abbrev poolSize : Nat := 384
/-- Table 12: a listed notice holds up to 48 entries. -/
abbrev noticeEntries : Nat := 48
/-- R83: the Holder Table holds at most 32,768 records. -/
abbrev tableSize : Nat := 32768
/-- R178: a status cell carries up to 28 items. -/
abbrev statusItems : Nat := 28

/-- Table 81: built-in share. -/
abbrev builtInShare : Half := 192
/-- Table 81: built-in open lead, 2,000 ms. -/
abbrev builtInOpenLead : Half := 2000
/-- Table 81: built-in guard, 2,000 ms. -/
abbrev builtInGuard : Half := 2000
/-- Table 81: built-in open repeat interval, 5 s. -/
abbrev builtInRepeat : Byte := 5
/-- Table 81: built-in warn threshold. -/
abbrev builtInWarn : Byte := 1
/-- Table 81: built-in stall threshold. -/
abbrev builtInStall : Byte := 3
/-- Table 81: built-in aging period, 60 min. -/
abbrev builtInAging : Byte := 60
/-- Table 81: built-in nominal slot rate, 100,000 slots/s. -/
abbrev builtInNominalRate : BitVec 32 := 100000
/-- Table 81: built-in return slot rate, 1,000 cells/s. -/
abbrev builtInReturnRate : Half := 1000

/-- What an EEPROM address that nothing has written reads as. DESIGN CHOICE (log 2): the manual gives no contents for
an EEPROM nobody has written; the value makes such a device read as not marked valid. -/
abbrev blankByte : Byte := 0xFF

/-- FREE VALUE (log 5). The 48-bit site time that a sum takes whose exact value, the argument, is above
281,474,976,710,655. The manual gives times 48 bits and states no result there. -/
opaque timeBeyond : Nat → Time

/-- FREE VALUE (log 6). A per-zone count that a rise or fall would take outside 0–32,768; the argument is a fresh
number for every draw. -/
opaque countBeyond : Nat → ZoneCount

/-- FREE VALUE (log 7). A window count that a further opportunity would take above 4,294,967,295; the argument is a
fresh number for every draw. -/
opaque windowBeyond : Nat → BitVec 32

/-- FREE VALUE (log 8). Whether the EEPROM stored the byte of a transfer it did not acknowledge; the argument is a
fresh number for every draw. -/
opaque unackedStored : Nat → Bool

/-- FREE VALUE (log 8). How many bytes of a save had been written when a restart or a power-on cut it short; the
argument is a fresh number for every draw. -/
opaque bytesBeforeCut : Nat → Nat

/-- FREE VALUE (log 9). Effective time and blob of a notice for a sheet that the Key Unit does not hold. No run
reaches such a notice (R145: "The sheet is always held"). -/
opaque unheldSheet : SheetNumber → Time × List Byte

end Sys2Proof.Config
end

