-- ==== Sys2Proof/Syntax.lean ====
section
/-! DEFINITION. The commands of the block: one constructor of `Instr` per row of spec/opcode_table.json, in the table's
order. A row's operands are what reaches the part from outside at that step (pins, a framed cell, a hold message, how
far the EEPROM acknowledged), or which of several like objects the step is about (an event index, a sheet slot). What
the part already holds (the cell handed over by Intake, the command at the head of the command queue) is no operand:
the step reads it from State. -/

namespace Sys2Proof

/-- The two sheet slots of an event (chapter 4): the current sheet and the pending sheet. -/
inductive SheetSlot where
  | current
  | pending
  deriving DecidableEq, Repr

/-- What a step of INPUT_CELL takes. A framed cell arrives: Intake tests it and looks it up, and of the driven zones those
not named behind take its slot in the same step. Or a zone that is behind takes the slot it holds. Each of the four units
thus judges one cell on either side of a change that reaches them all in its slot, each in its own order (R153, log 25). -/
inductive CellStep where
  | arrives (cell : List Byte) (behind : BitVec 4)
  | taken (zone : ZoneIndex)
  deriving DecidableEq, Repr

/-- The steps of the part, one constructor per row of spec/opcode_table.json. -/
inductive Instr where
  /-- POWER_ON (R169): power is applied. The unit address straps and the zone count straps as sampled; and the bytes
  the serial EEPROM holds when power comes, from address 0, if it was fitted or programmed while power was off. -/
  | powerOn (unitStraps : Byte) (zoneStraps : BitVec 2) (fitted : Option (List Byte))
  /-- IMAGE_LOAD_END (R179): the image load ends; how many byte transfers the EEPROM acknowledged. -/
  | imageLoadEnd (acknowledged : Nat)
  /-- INPUT_CELL (R1, R153): a framed input cell of 240 bytes arrives, and its slot is taken by every zone output, in this
  step or behind it. -/
  | inputCell (step : CellStep)
  /-- MISSING_CELL (R3): no cell start came within two nominal slot periods. -/
  | missingCell
  /-- NOMINAL_SLOT (R5): the nominal slot clock gives each zone output one slot. -/
  | nominalSlot
  /-- HOLD_MESSAGE (R154): a message on a zone's hold line, taken whole with its value, or dropped (none). -/
  | holdMessage (zone : ZoneIndex) (value : Option Half)
  /-- SITE_CLOCK_TICK (R18): a millisecond tick of the local oscillator. -/
  | siteClockTick
  /-- TIME_CELL (R20): the Site Clock takes the time cell handed to it. -/
  | timeCell
  /-- WINDOW_CLOSE (R161): every driven zone takes the close of a one-second window. -/
  | windowClose
  /-- CUE_CELL (R28): the Cue Unit takes the cue cell handed to it. -/
  | cueCell
  /-- PHASE_DEADLINE_EXPIRY (R43): the event's phase deadline has been reached. -/
  | phaseDeadlineExpiry (event : EventIndex)
  /-- KEY_CELL (R61): the Key Unit takes the key cell handed to it. -/
  | keyCell
  /-- PROMOTION (R69): the effective time of the event's pending sheet has been reached. -/
  | promotion (event : EventIndex)
  /-- OPEN_LEAD_INSTANT (R70): the open lead instant of the event's pending sheet has been reached. -/
  | openLeadInstant (event : EventIndex)
  /-- OPEN_REPEAT (R71): the event's open repeat instant has been reached. -/
  | openRepeat (event : EventIndex)
  /-- STARVATION_INSTANT (R75): the event's next starvation instant has been reached. -/
  | starvationInstant (event : EventIndex)
  /-- LEG_LATE (R134): the lateness deadline of the leg of one of the event's two sheets has been reached. -/
  | legLate (event : EventIndex) (slot : SheetSlot)
  /-- SWEEP_VISIT (R122): the Sweep Walker visits the bucket at its cursor. -/
  | sweepVisit
  /-- MAINTENANCE_VISIT (R88): the maintenance walker visits the bucket at its cursor. -/
  | maintenanceVisit
  /-- AGE_INSTANT (R93): the age instant has been reached. -/
  | ageInstant
  /-- MANAGEMENT_CELL (R170): the Command Unit takes the management cell handed to it. -/
  | managementCell
  /-- RETURN_SLOT (R178): a slot of the return output. -/
  | returnSlot
  /-- UNKNOWN_COMMAND (R172): a command with an undefined code is executed. -/
  | unknownCommand
  /-- LOAD_EVENT (0x10, R35). -/
  | loadEvent
  /-- AMEND_EVENT (0x11, R52). -/
  | amendEvent
  /-- STEER_EVENT (0x12, R51). -/
  | steerEvent
  /-- RETIRE_EVENT (0x13, R55). -/
  | retireEvent
  /-- READ_EVENT (0x14, R57). -/
  | readEvent
  /-- PURCHASE (0x20, R103): the command's form is checked and its items are taken up. -/
  | purchase
  /-- PURCHASE_ITEM (R109): the next item of the PURCHASE that is executing. -/
  | purchaseItem
  /-- CANCEL (0x21, R110). -/
  | cancel
  /-- PUT_HOLDER (0x22, R95). -/
  | putHolder
  /-- DROP_HOLDER (0x23, R96). -/
  | dropHolder
  /-- FORCE (0x24, R112). -/
  | force
  /-- RELEASE (0x25, R113). -/
  | release
  /-- BAR (0x26, R115). -/
  | bar
  /-- UNBAR (0x27, R116). -/
  | unbar
  /-- READ_HOLDER (0x28, R97). -/
  | readHolder
  /-- DUMP (0x29, R98). -/
  | dump
  /-- SET_ZONE (0x30, R166). -/
  | setZone
  /-- SET_PROFILE (0x31, R37). -/
  | setProfile
  /-- SET_CUE_MAP (0x32, R27). -/
  | setCueMap
  /-- SET_TIMING (0x33, R174). -/
  | setTiming
  /-- READ_COUNTERS (0x34, R175). -/
  | readCounters
  /-- SAVE_IMAGE (0x35, R181): the write begins. -/
  | saveImage
  /-- SAVE_IMAGE_END (R181): the write ends; how many byte transfers the EEPROM acknowledged. -/
  | saveImageEnd (acknowledged : Nat)
  /-- RESTART (0x36, R182). -/
  | restart
  /-- RESTART_STEP (R183): the restart of a RESTART command whose reply has been sent is taken. -/
  | restartStep
  /-- RESTART_LINE (R183): the restart line is asserted. -/
  | restartLine
  deriving DecidableEq, Repr

end Sys2Proof
end

