-- ==== Sys2Proof/WellFormed.lean ====
section
/-! DEFINITION. Which commands the hardware can be given: the checks on operands that a type does not make. A framed
cell has 240 bytes (R2, chapter 1) and the image of an EEPROM has 88 bytes (10.8). Every other operand is of a type
whose every value the spec allows. -/

namespace Sys2Proof

/-- Bytes of a cell: a 5-byte header and 235 payload bytes (chapter 1). -/
abbrev cellLength : Nat := 240

/-- Bytes of the start-up image: validity mark, fields and sum, addresses 0–87 (10.8). -/
abbrev imageLength : Nat := 88

/-- The operand checks, constructor by constructor. -/
def Instr.wf : Instr → Bool
  | .powerOn _ _ fitted => match fitted with
    | some image => image.length == imageLength
    | none => true
  | .inputCell step => match step with
    | .arrives cell _ => cell.length == cellLength
    | .taken _ => true
  | .imageLoadEnd _ => true
  | .missingCell => true
  | .nominalSlot => true
  | .holdMessage _ _ => true
  | .siteClockTick => true
  | .timeCell => true
  | .windowClose => true
  | .cueCell => true
  | .phaseDeadlineExpiry _ => true
  | .keyCell => true
  | .promotion _ => true
  | .openLeadInstant _ => true
  | .openRepeat _ => true
  | .starvationInstant _ => true
  | .legLate _ _ => true
  | .sweepVisit => true
  | .maintenanceVisit => true
  | .ageInstant => true
  | .managementCell => true
  | .returnSlot => true
  | .unknownCommand => true
  | .loadEvent => true
  | .amendEvent => true
  | .steerEvent => true
  | .retireEvent => true
  | .readEvent => true
  | .purchase => true
  | .purchaseItem => true
  | .cancel => true
  | .putHolder => true
  | .dropHolder => true
  | .force => true
  | .release => true
  | .bar => true
  | .unbar => true
  | .readHolder => true
  | .dump => true
  | .setZone => true
  | .setProfile => true
  | .setCueMap => true
  | .setTiming => true
  | .readCounters => true
  | .saveImage => true
  | .saveImageEnd _ => true
  | .restart => true
  | .restartStep => true
  | .restartLine => true

end Sys2Proof
end

