-- ==== Sys2Proof/Decode.lean ====
section
/-! DEFINITION. The host's question about words. The rows of spec/opcode_table.json give no bits ("fields": [] in every
row), so no word spells a command of this block. -/

namespace Sys2Proof

/-- The command that a word spells by the table's bits. No row of the table gives bits: none. -/
def decodeTableWord (_nbits _w : Nat) : Option Instr :=
  none

end Sys2Proof
end

