-- ==== Sys2Proof/Machine/State.lean ====
section
/-! DEFINITION. The state of the EG-3600 as plain data, block by block, and the state right after power-on. INVENTORY.md
lists every field with the rule that names it. -/

namespace Sys2Proof.Machine

/-! ## Names -/

/-- R2–R4, Table 6: the sync state of Intake. -/
inductive Sync where
  | searching
  | locked
  | lost
  deriving DecidableEq, Repr

/-- Table 29: the phases of an event. -/
inductive Phase where
  | vacant
  | onSale
  | preview
  | live
  | extra
  | windDown
  | closed
  | stalled
  | retiring
  deriving DecidableEq, Repr

/-- Table 29: how a phase grants keys. -/
inductive GrantMode where
  | noGrant
  | openGrant
  | listedGrant
  deriving DecidableEq, Repr

/-- Table 24, tasks 1–7. RETIRE (task 8) is taken by RETIRE_EVENT alone (R51, R55). -/
inductive PhaseTask where
  | goPreview
  | goLive
  | goExtra
  | goWindDown
  | goClosed
  | extendPreview
  | backToSale
  deriving DecidableEq, Repr

/-- Table 37, note 1: the class of a sheet. -/
inductive SheetClass where
  | noClass
  | openClass
  | listedClass
  deriving DecidableEq, Repr

/-- Table 65: the form of a fresh-queue entry. -/
inductive FreshForm where
  | listed
  | openAll
  deriving DecidableEq, Repr

/-- Table 76: the result codes. -/
inductive Result where
  | ok
  | okAlready
  | badForm
  | range
  | noEvent
  | noRoom
  | laneTaken
  | wrongPhase
  | busy
  | tableFull
  | bucketFull
  | noHolder
  | refusedPhase
  | cutoff
  | blackedOut
  | barred
  | mismatch
  | duplicateEvent
  | unknownCommand
  | storeFailed
  deriving DecidableEq, Repr

/-- Table 79: the kinds of status item. -/
inductive StatusKind where
  | phase
  | cueRejected
  | keyLate
  | lateRisk
  | legLate
  | previewTail
  | time
  | input
  | queue
  | image
  | restarted
  | recountDone
  deriving DecidableEq, Repr

/-- Table 78, intake group: the part-level counters. -/
inductive PartCounter where
  | cellsReceived
  | syncErrors
  | missingCells
  | headerErrors
  | lockLosses
  | reservedLaneCells
  | timeBodyErrors
  | cueBodyErrors
  | managementBodyErrors
  | keyBodyErrors
  | timeGaps
  | cueGaps
  | managementGaps
  | keyGaps
  | timeCellsTaken
  | forwardCorrections
  | backwardCorrections
  | largeOffsets
  | strayCues
  | createdByPurchase
  | createdByPut
  | recordsDropped
  | recordsAgedOut
  | bucketFullRefusals
  | tableFullRefusals
  | recountsCompleted
  | itemsUnplaced
  | bars
  | unbars
  | walkerParks
  | commandsAccepted
  | commandsDropped
  | commandsForOthers
  | commandsExecuted
  | repliesSent
  | statusCellsSent
  | imageSaves
  deriving DecidableEq, Repr

/-- Table 78, zone group: the counters of one zone. -/
inductive ZoneCounter where
  | cellsPassed
  | cellsBlanked
  | clearLeakBlanks
  | substitutesSent
  | holdMessages
  | holdLineErrors
  | heldOpportunities
  | idleCellsSent
  | sweepNoticesSent
  | sweepCellsPurged
  | riskSets
  | sweepCellsBuilt
  | lateGrants
  | entriesQueued
  | mergedEntries
  | freshOverflows
  | listedNoticesSent
  | openNoticesSent
  | freshGrantsSent
  deriving DecidableEq, Repr

/-- Table 78, event group: the counters of one event record. -/
inductive EventCounter where
  | deadlineExpiries
  | appliedSteers
  | unmappedCues
  | repeatCues
  | appliedCues
  | rejectedCues
  | strayKeys
  | repeatSheets
  | staleSheets
  | orderRefusals
  | sheetsAccepted
  | supersedes
  | lateSheets
  | promotions
  | previewTails
  | purchasesAccepted
  | purchasesHeld
  | refusedByPhase
  | refusedByCutoff
  | refusedByBlackout
  | refusedByRecord
  | cancellations
  | overridesSet
  | overridesReleased
  | legsJoined
  | lapsCompleted
  | lateLegs
  deriving DecidableEq, Repr

/-! ## Start-up Loader, Intake, Lane Map, Site Clock -/

/-- The Start-up Loader (10.1, 10.8): whether the power-on image load is still going on, the straps as sampled
(R169), the two slot rates in force, and the EEPROM's bytes by address (canonical form: log 2). -/
structure Loader where
  loading : Bool
  unitStraps : Byte
  zoneStraps : BitVec 2
  nominalRate : BitVec 32
  returnRate : Half
  eeprom : List Host.Cell
  deriving DecidableEq, Repr

/-- R10: a control cell that Intake has handed to its unit and that the unit has not yet taken. -/
inductive Handoff where
  | time (cell : List Byte)
  | cue (cell : List Byte)
  | management (cell : List Byte)
  | key (owner : EventIndex) (cell : List Byte)
  deriving DecidableEq, Repr

/-- Intake (chapter 1): sync state and runs (R1–R4), output slot timing (R4), continuity references (R12) and the
hand-over of R10. -/
structure Intake where
  sync : Sync
  goodRun : Fin 5
  badRun : Fin 4
  nominalTiming : Bool
  managementRef : Option Byte
  cueRef : Option Byte
  timeRef : Option Byte
  keyRefs : Vector (Option Byte) 24
  handoff : Option Handoff
  deriving DecidableEq, Repr

/-- R6, R7: what an event record's claim makes of a lane entry. -/
inductive LaneClaim where
  | content (owner : EventIndex)
  | key (owner : EventIndex)
  | alternate (owner : EventIndex)
  deriving DecidableEq, Repr

/-- 1.3: the kind of a lane table entry. -/
inductive LaneKind where
  | free
  | content (owner : EventIndex)
  | key (owner : EventIndex)
  | alternate (owner : EventIndex)
  | reserved
  deriving DecidableEq, Repr

/-- The Site Clock (Table 19), and the window closes it has marked that the zone outputs have not yet taken (R24). -/
structure Clock where
  siteTime : Time
  isSet : Bool
  withhold : Fin 11
  largeRun : Fin 9
  fault : Bool
  closesDue : Nat
  deriving DecidableEq, Repr

/-! ## Settings -/

/-- Table 30: one row of the phase profile table; pass is the lane action PASS, accept the policy ACCEPT. -/
structure PhaseProfile where
  pass : Bool
  accept : Bool
  deriving DecidableEq, Repr

/-- R36: the phase profile table, for the phases ON_SALE to CLOSED. -/
structure ProfileTable where
  onSale : PhaseProfile
  preview : PhaseProfile
  live : PhaseProfile
  extra : PhaseProfile
  windDown : PhaseProfile
  closed : PhaseProfile
  deriving DecidableEq, Repr

/-- R26: an entry of the cue map; minutes only for EXTEND_PREVIEW. -/
structure CueEntry where
  code : Byte
  task : PhaseTask
  minutes : Option Byte
  deriving DecidableEq, Repr

/-- The part-level settings: profile table (R36), cue map (R26) and the seven timing values (R174). -/
structure Settings where
  profile : ProfileTable
  cueMap : List CueEntry
  openLead : Half
  guard : Half
  repeatInterval : Byte
  warnThreshold : Byte
  stallThreshold : Byte
  agingPeriod : Byte
  overrideHold : Bool
  deriving DecidableEq, Repr

/-- Table 30. -/
def ProfileTable.builtIn : ProfileTable where
  onSale := { pass := false, accept := true }
  preview := { pass := true, accept := true }
  live := { pass := true, accept := true }
  extra := { pass := true, accept := false }
  windDown := { pass := true, accept := false }
  closed := { pass := false, accept := false }

/-- Table 25. -/
def builtInCueMap : List CueEntry :=
  [ { code := 0x01, task := .goPreview, minutes := none },
    { code := 0x02, task := .goLive, minutes := none },
    { code := 0x03, task := .goExtra, minutes := none },
    { code := 0x04, task := .goWindDown, minutes := none },
    { code := 0x05, task := .goClosed, minutes := none },
    { code := 0x06, task := .extendPreview, minutes := some 5 },
    { code := 0x07, task := .backToSale, minutes := none } ]

/-- Table 81: the built-in settings. -/
def Settings.builtIn : Settings where
  profile := ProfileTable.builtIn
  cueMap := builtInCueMap
  openLead := Config.builtInOpenLead
  guard := Config.builtInGuard
  repeatInterval := Config.builtInRepeat
  warnThreshold := Config.builtInWarn
  stallThreshold := Config.builtInStall
  agingPeriod := Config.builtInAging
  overrideHold := false

/-! ## Event Table -/

/-- R101: an inclusive blackout range of region codes. -/
structure Range where
  low : Half
  high : Half
  deriving DecidableEq, Repr

/-- Table 37: a key sheet. -/
structure Sheet where
  number : SheetNumber
  effective : Time
  blob : List Byte
  cls : SheetClass
  mark : Bool
  deriving DecidableEq, Repr

/-- Tables 28 and 37: an event record with its Key Unit items and its counters. The first content lane is held apart
from the others: a loaded record has at least one. -/
structure Event where
  number : Half
  phase : Phase
  firstLane : Lane
  moreLanes : List Lane
  keyLane : Lane
  alternateLane : Option Lane
  mask : BitVec 4
  ranges : List Range
  epoch : Half
  previewLength : Byte
  scheduledStart : Option Time
  cutoff : Byte
  extraLimit : Byte
  grace : Byte
  liveStamp : Option Time
  currentEntry : Time
  previousEntry : Option Time
  previousPhase : Option Phase
  resumePhase : Option Phase
  deadline : Option Time
  lastCue : Option Byte
  current : Option Sheet
  pendingSheet : Option Sheet
  openLead : Option Time
  openRepeat : Option Time
  starvation : Half
  base : Option Time
  nextStarvation : Option Time
  counts : Vector ZoneCount 4
  recountFlag : Bool
  counters : Vector Counter 27
  deriving DecidableEq, Repr

/-- R33: a VACANT record. -/
def Event.vacant : Event where
  number := 0
  phase := .vacant
  firstLane := 0
  moreLanes := []
  keyLane := 0
  alternateLane := none
  mask := 0
  ranges := []
  epoch := 0
  previewLength := 0
  scheduledStart := none
  cutoff := 0
  extraLimit := 0
  grace := 0
  liveStamp := none
  currentEntry := 0
  previousEntry := none
  previousPhase := none
  resumePhase := none
  deadline := none
  lastCue := none
  current := none
  pendingSheet := none
  openLead := none
  openRepeat := none
  starvation := 0
  base := none
  nextStarvation := none
  counts := Vector.replicate 4 0
  recountFlag := false
  counters := Vector.replicate 27 0

/-! ## Holder Table and Table Engine -/

/-- Table 44: a holder record. isStatic is the kind STATIC, clear for LEARNED (Table 14, note 2). -/
structure Holder where
  decoder : Decoder
  zone : ZoneIndex
  region : Half
  isStatic : Bool
  ageMark : Bool
  barred : Bool
  exempt : Bool
  bought : EventSet
  grants : EventSet
  denies : EventSet
  deriving DecidableEq, Repr

/-- Table 46: a maintenance task; carried says that a RETIRE carries a recount (R92). -/
inductive Task where
  | retire (event : EventIndex) (carried : Bool)
  | recount (event : EventIndex)
  | ageScan
  deriving DecidableEq, Repr

/-- R85: the three kinds of step that the Table Engine grants the table to. -/
inductive TableUser where
  | command
  | sweepWalker
  | maintenanceWalker
  deriving DecidableEq, Repr

/-- The Table Engine's maintenance side: list and cursor (R87, R88), shadow counts (R90), age instant (R93), and the
kind of step granted last (R85). -/
structure Upkeep where
  tasks : List Task
  cursor : Fin 8193
  shadow : Vector ZoneCount 4
  ageInstant : Time
  lastGrant : TableUser
  deriving DecidableEq, Repr

/-! ## Sweep Walker -/

/-- Table 59: a leg, with its assembly cells by zone (R126). emitted is the count of first-lap entries per zone. -/
structure Leg where
  sheet : SheetNumber
  join : Bucket
  remaining : Fin 8193
  lap : Half
  walking : Bool
  emitted : Vector Nat 4
  late : Bool
  deadline : Option Time
  owesFlush : Bool
  cells : Vector (List Decoder) 4
  deriving DecidableEq, Repr

/-- R119: the sweep of one event: a leg for its current sheet, for its pending sheet, or both. With neither the event
has no sweep. -/
structure Sweep where
  current : Option Leg
  pendingLeg : Option Leg
  deriving DecidableEq, Repr

/-- The Sweep Walker: roster in event index order (R119), cursor (R121), parked (R128). -/
structure Walker where
  roster : Vector Sweep 24
  cursor : Bucket
  parked : Bool
  deriving DecidableEq, Repr

/-! ## Fresh Queues, Notice Pool, Zone Output Units -/

/-- Table 65: a fresh-queue entry. -/
structure FreshEntry where
  form : FreshForm
  decoder : Decoder
  event : EventIndex
  sheet : SheetNumber
  deriving DecidableEq, Repr

/-- R127: a listed grant notice as built into a pool buffer, with the event index it belongs to. -/
structure Notice where
  event : EventIndex
  eventNumber : Half
  sheet : SheetNumber
  effective : Time
  blob : List Byte
  entries : List Decoder
  deriving DecidableEq, Repr

/-- R9, R152: what a slot of a zone output carries: nothing of the input (an idle opportunity), or a content cell of one of
the three kinds of content traffic, as looked up when it arrived. -/
inductive Slot where
  | idle
  | free (cell : List Byte)
  | content (event : EventIndex) (cell : List Byte)
  | alternate (event : EventIndex) (cell : List Byte)
  deriving DecidableEq, Repr

/-- Table 68: a Zone Output Unit, with its counters, the cell sent in its latest slot (log 16), and the slot it has yet to
take where it is behind (R153, log 25). -/
structure Zone where
  share : Half
  dark : Bool
  credit : Fin 1024
  hold : Half
  turn : Fin 8
  windowCount : BitVec 32
  idleRate : BitVec 32
  lateRisk : Bool
  noticeCount : Byte
  substitutes : Vector Byte 24
  fresh : List FreshEntry
  sweep : List Notice
  counters : Vector Counter 19
  port : Option (List Byte)
  slot : Option Slot
  deriving DecidableEq, Repr

/-- Table 68, at power-on, with the built-in share and dark flag (log 21). -/
def Zone.powerOn : Zone where
  share := Config.builtInShare
  dark := false
  credit := 0
  hold := 0
  turn := 0
  windowCount := 0
  idleRate := 0
  lateRisk := false
  noticeCount := 0
  substitutes := Vector.replicate 24 0
  fresh := []
  sweep := []
  counters := Vector.replicate 19 0
  port := none
  slot := none

/-! ## Command Unit and Return Output -/

/-- R177: a status item of the pending status set. -/
structure Item where
  kind : StatusKind
  object : Byte
  detail : List Byte
  deriving DecidableEq, Repr

/-- R173: a reply waiting in the reply queue; its flags byte is filled when it leaves. -/
structure Reply where
  tag : Half
  code : Byte
  result : Result
  body : List Byte
  deriving DecidableEq, Repr

/-- Table 15: a purchase item. -/
structure PurchaseItem where
  decoder : Decoder
  event : Half
  zone : Byte
  region : Half
  deriving DecidableEq, Repr

/-- R172: what the Command Unit is executing. A PURCHASE waits for its items to be taken (R103), a SAVE_IMAGE for its
write to end (R181), and a RESTART for its reply to be sent (R182). -/
inductive Work where
  | ready
  | purchasing (tag : Half) (left : List PurchaseItem) (results : List Result)
  | saving (tag : Half) (image : List Byte)
  | restarting
  deriving DecidableEq, Repr

/-- The Command Unit: command queue and busy flag (R171), what is executing (R172), reply queue (R173) and pending
status set, oldest key first (R177). -/
structure CommandUnit where
  queue : List (List Byte)
  busy : Bool
  work : Work
  replies : List Reply
  status : List Item
  deriving DecidableEq, Repr

/-- The Return Output: reply-lane continuity (R13) and the cell sent in its latest slot (log 16). -/
structure ReturnOutput where
  continuity : Byte
  port : Option (List Byte)
  deriving DecidableEq, Repr

/-! ## The part and the machine -/

/-- Everything the spec gives the part. freeDraws is the model's own: how many free values have been drawn (log 6). -/
structure Gate where
  freeDraws : Nat
  loader : Loader
  intake : Intake
  lanes : List (Nat × LaneClaim)
  clock : Clock
  settings : Settings
  events : Vector Event 24
  holders : List (Nat × Holder)
  upkeep : Upkeep
  walker : Walker
  zones : Vector Zone 4
  command : CommandUnit
  output : ReturnOutput
  counters : Vector Counter 37
  deriving DecidableEq, Repr

/-- The machine: the commands that wait, first in first out, and the part. -/
structure State where
  pending : List Instr
  gate : Gate
  deriving DecidableEq, Repr

/-- R17: the Site Clock at power-on. -/
def Clock.powerOn : Clock where
  siteTime := 0
  isSet := false
  withhold := 0
  largeRun := 0
  fault := false
  closesDue := 0

/-- R2, R12: Intake at power-on. -/
def Intake.powerOn : Intake where
  sync := .searching
  goodRun := 0
  badRun := 0
  nominalTiming := true
  managementRef := none
  cueRef := none
  timeRef := none
  keyRefs := Vector.replicate 24 none
  handoff := none

/-- R119: an event with no sweep. -/
def Sweep.absent : Sweep where
  current := none
  pendingLeg := none

/-- Every block at its power-on state with the straps as sampled and the image load begun (R169, R179). draws and
eeprom are what a power-on leaves as it stands: the count of free values and the EEPROM's contents. -/
def Gate.atPowerOn (unitStraps : Byte) (zoneStraps : BitVec 2) (eeprom : List Host.Cell) (draws : Nat) : Gate where
  freeDraws := draws
  loader :=
    { loading := true
      unitStraps := unitStraps
      zoneStraps := zoneStraps
      nominalRate := Config.builtInNominalRate
      returnRate := Config.builtInReturnRate
      eeprom := eeprom }
  intake := Intake.powerOn
  lanes := []
  clock := Clock.powerOn
  settings := Settings.builtIn
  events := Vector.replicate 24 Event.vacant
  holders := []
  upkeep :=
    { tasks := []
      cursor := 0
      shadow := Vector.replicate 4 0
      ageInstant := 3600000
      lastGrant := .command }
  walker := { roster := Vector.replicate 24 Sweep.absent, cursor := 0, parked := false }
  zones := Vector.replicate 4 Zone.powerOn
  command := { queue := [], busy := false, work := .ready, replies := [], status := [] }
  output := { continuity := 0, port := none }
  counters := Vector.replicate 37 0

/-- The machine right after power-on: straps reading 0 (log 3), an EEPROM nobody has written (log 2), the image load
going on, no command waiting. -/
def State.reset : State where
  pending := []
  gate := Gate.atPowerOn 0 0 [] 0

/-- Why a step stops with a fault: never. The manual names no behaviour that stops the part, so there is no
constructor. -/
inductive Fault where
  deriving DecidableEq, Repr

/-- Why a step is refused. -/
inductive Refusal where
  /-- Raised by an arm of exec for a row that has no meaning yet; safe. No arm raises it. -/
  | notModelled (mnemonic : String)
  deriving DecidableEq, Repr

end Sys2Proof.Machine
end

