-- ==== Sys2Proof/Machine/Sparse.lean ====
section
/-! DEFINITION. Tables held as lists of (key, value) pairs with rising keys: the Holder Table by slot, the lane table by
lane, and the bytes of the EEPROM by address. -/

namespace Sys2Proof.Machine

namespace Sparse

/-- The value listed under a key. -/
def get {α : Type} : List (Nat × α) → Nat → Option α
  | [], _ => none
  | (j, v) :: rest, k => if j = k then some v else get rest k

/-- List a value under a key, at its place in the order, in place of what is listed there. -/
def set {α : Type} : List (Nat × α) → Nat → α → List (Nat × α)
  | [], k, v => [(k, v)]
  | (j, w) :: rest, k, v =>
    if k < j then (k, v) :: (j, w) :: rest
    else if k = j then (k, v) :: rest
    else (j, w) :: set rest k v

/-- List nothing under a key. -/
def erase {α : Type} (table : List (Nat × α)) (k : Nat) : List (Nat × α) :=
  table.filter (fun entry => entry.1 ≠ k)

/-- The form: keys strictly rising. -/
abbrev Sorted {α : Type} (table : List (Nat × α)) : Prop :=
  (table.map Prod.fst).Pairwise (· < ·)

end Sparse

namespace Memory

/-- The byte at an EEPROM address; one that nothing has written reads as the blank byte (log 2). -/
def read (memory : List Host.Cell) (address : Nat) : Byte :=
  (Sparse.get memory address).getD Config.blankByte

/-- Write one byte; writing what an unlisted address reads as lists nothing. -/
def write (memory : List Host.Cell) (address : Nat) (value : Byte) : List Host.Cell :=
  if value = Config.blankByte then Sparse.erase memory address else Sparse.set memory address value

/-- Write bytes at rising addresses. -/
def writeAll : List Host.Cell → Nat → List Byte → List Host.Cell
  | memory, _, [] => memory
  | memory, address, value :: rest => writeAll (write memory address value) (address + 1) rest

/-- Read count bytes at rising addresses. -/
def readAll (memory : List Host.Cell) : Nat → Nat → List Byte
  | _, 0 => []
  | address, count + 1 => read memory address :: readAll memory (address + 1) count

/-- The canonical form: addresses strictly rising, no entry equal to what an unlisted address reads as. -/
abbrev wf (memory : List Host.Cell) : Prop :=
  Sparse.Sorted memory ∧ ∀ entry ∈ memory, entry.2 ≠ Config.blankByte

end Memory

end Sys2Proof.Machine
end

