-- ==== Sys2Proof/Machine/Ops.lean ====
section
/-! DEFINITION. The named operations that every block shares: saturating counters, sums of times and the test of a
deadline, access to events, zones, sheets and legs, straps, per-zone counts and the lane table. The part has no
exception entry; raising a flag or posting an item is in Flags.lean. -/

namespace Sys2Proof.Machine

/-- The 24 event indices in ascending order. -/
def allEvents : List EventIndex :=
  [0, 1, 2, 3, 4, 5, 6, 7, 8, 9, 10, 11, 12, 13, 14, 15, 16, 17, 18, 19, 20, 21, 22, 23]

/-- The four zones in ascending order. -/
def allZones : List ZoneIndex :=
  [0, 1, 2, 3]

/-- Roster order (R119): event index order, the current sheet's leg before the pending sheet's. -/
def rosterOrder : List (EventIndex × SheetSlot) :=
  allEvents.flatMap (fun e => [(e, .current), (e, .pending)])

/-! ## Counters -/

/-- R14: a counter rises and holds at 4,294,967,295. -/
def countUp (c : Counter) (n : Nat) : Counter :=
  BitVec.ofNat 32 (min (c.toNat + n) 4294967295)

/-- Table 78: the position of a part-level counter in its group, from 0. -/
def PartCounter.pos : PartCounter → Fin 37
  | .cellsReceived => 0
  | .syncErrors => 1
  | .missingCells => 2
  | .headerErrors => 3
  | .lockLosses => 4
  | .reservedLaneCells => 5
  | .timeBodyErrors => 6
  | .cueBodyErrors => 7
  | .managementBodyErrors => 8
  | .keyBodyErrors => 9
  | .timeGaps => 10
  | .cueGaps => 11
  | .managementGaps => 12
  | .keyGaps => 13
  | .timeCellsTaken => 14
  | .forwardCorrections => 15
  | .backwardCorrections => 16
  | .largeOffsets => 17
  | .strayCues => 18
  | .createdByPurchase => 19
  | .createdByPut => 20
  | .recordsDropped => 21
  | .recordsAgedOut => 22
  | .bucketFullRefusals => 23
  | .tableFullRefusals => 24
  | .recountsCompleted => 25
  | .itemsUnplaced => 26
  | .bars => 27
  | .unbars => 28
  | .walkerParks => 29
  | .commandsAccepted => 30
  | .commandsDropped => 31
  | .commandsForOthers => 32
  | .commandsExecuted => 33
  | .repliesSent => 34
  | .statusCellsSent => 35
  | .imageSaves => 36

/-- Table 78: the position of a zone counter in its group, from 0. -/
def ZoneCounter.pos : ZoneCounter → Fin 19
  | .cellsPassed => 0
  | .cellsBlanked => 1
  | .clearLeakBlanks => 2
  | .substitutesSent => 3
  | .holdMessages => 4
  | .holdLineErrors => 5
  | .heldOpportunities => 6
  | .idleCellsSent => 7
  | .sweepNoticesSent => 8
  | .sweepCellsPurged => 9
  | .riskSets => 10
  | .sweepCellsBuilt => 11
  | .lateGrants => 12
  | .entriesQueued => 13
  | .mergedEntries => 14
  | .freshOverflows => 15
  | .listedNoticesSent => 16
  | .openNoticesSent => 17
  | .freshGrantsSent => 18

/-- Table 78: the position of an event counter in its group, from 0. -/
def EventCounter.pos : EventCounter → Fin 27
  | .deadlineExpiries => 0
  | .appliedSteers => 1
  | .unmappedCues => 2
  | .repeatCues => 3
  | .appliedCues => 4
  | .rejectedCues => 5
  | .strayKeys => 6
  | .repeatSheets => 7
  | .staleSheets => 8
  | .orderRefusals => 9
  | .sheetsAccepted => 10
  | .supersedes => 11
  | .lateSheets => 12
  | .promotions => 13
  | .previewTails => 14
  | .purchasesAccepted => 15
  | .purchasesHeld => 16
  | .refusedByPhase => 17
  | .refusedByCutoff => 18
  | .refusedByBlackout => 19
  | .refusedByRecord => 20
  | .cancellations => 21
  | .overridesSet => 22
  | .overridesReleased => 23
  | .legsJoined => 24
  | .lapsCompleted => 25
  | .lateLegs => 26

/-- A part-level counter adds 1. -/
def bump (k : PartCounter) (g : Gate) : Gate :=
  { g with counters := g.counters.set k.pos (countUp g.counters[k.pos] 1) }

/-! ## Events and zones -/

/-- The event record at an index. -/
def Gate.event (g : Gate) (e : EventIndex) : Event :=
  g.events[e]

/-- Write an event record. -/
def Gate.setEvent (g : Gate) (e : EventIndex) (ev : Event) : Gate :=
  { g with events := g.events.set e ev }

/-- Change an event record. -/
def modEvent (e : EventIndex) (f : Event → Event) (g : Gate) : Gate :=
  g.setEvent e (f (g.event e))

/-- A counter of an event record adds n. -/
def Event.countBy (k : EventCounter) (n : Nat) (ev : Event) : Event :=
  { ev with counters := ev.counters.set k.pos (countUp ev.counters[k.pos] n) }

/-- A counter of event e's record adds 1. -/
def bumpEvent (e : EventIndex) (k : EventCounter) (g : Gate) : Gate :=
  modEvent e (Event.countBy k 1) g

/-- The Zone Output Unit of a zone. -/
def Gate.zone (g : Gate) (z : ZoneIndex) : Zone :=
  g.zones[z]

/-- Write a Zone Output Unit. -/
def Gate.setZone (g : Gate) (z : ZoneIndex) (zone : Zone) : Gate :=
  { g with zones := g.zones.set z zone }

/-- Change a Zone Output Unit. -/
def modZone (z : ZoneIndex) (f : Zone → Zone) (g : Gate) : Gate :=
  g.setZone z (f (g.zone z))

/-- A counter of a zone adds n. -/
def Zone.countBy (k : ZoneCounter) (n : Nat) (zone : Zone) : Zone :=
  { zone with counters := zone.counters.set k.pos (countUp zone.counters[k.pos] n) }

/-! ## Straps (R169) -/

/-- R169: the strapped zone count is v + 1. -/
def Gate.zoneCount (g : Gate) : Nat :=
  g.loader.zoneStraps.toNat + 1

/-- R149: a zone at or above the strapped zone count is not driven. -/
def Gate.driven (g : Gate) (z : ZoneIndex) : Bool :=
  z.val < g.zoneCount

/-- R169: straps of 255 are taken as unit address 0. -/
def Gate.unitAddress (g : Gate) : Byte :=
  if g.loader.unitStraps = 255 then 0 else g.loader.unitStraps

/-- R169: the strap fault carried by every IMAGE item. -/
def Gate.strapFault (g : Gate) : Bool :=
  g.loader.unitStraps = 255

/-- Do something for every driven zone in ascending order; each unit changes only its own state (R149, log 25). -/
def forDrivenZones (f : ZoneIndex → Gate → Gate) (g : Gate) : Gate :=
  allZones.foldl (fun acc z => if acc.driven z then f z acc else acc) g

/-! ## Times -/

/-- A site time plus milliseconds; above 2^48 − 1 the manual states no result (log 5). -/
def timeAdd (t : Time) (ms : Nat) : Time :=
  if t.toNat + ms < 2 ^ 48 then BitVec.ofNat 48 (t.toNat + ms) else Config.timeBeyond (t.toNat + ms)

/-- A site time plus minutes at 60,000 ms per minute (0.6). -/
def timeAddMinutes (t : Time) (minutes : Nat) : Time :=
  timeAdd t (minutes * 60000)

/-- R23: T is reached when the clock is SET and site time is equal to or greater than T. -/
def Gate.reached (g : Gate) (t : Time) : Bool :=
  g.clock.isSet && t ≤ g.clock.siteTime

/-! ## Sheets and legs -/

/-- The sheet in a slot. -/
def Event.sheet (ev : Event) : SheetSlot → Option Sheet
  | .current => ev.current
  | .pending => ev.pendingSheet

/-- Write a sheet slot. -/
def Event.setSheet (slot : SheetSlot) (sheet : Option Sheet) (ev : Event) : Event :=
  match slot with
  | .current => { ev with current := sheet }
  | .pending => { ev with pendingSheet := sheet }

/-- The sheet in a slot of event e. -/
def Gate.sheet (g : Gate) (e : EventIndex) (slot : SheetSlot) : Option Sheet :=
  (g.event e).sheet slot

/-- The leg for a sheet slot in a sweep. -/
def Sweep.leg (sweep : Sweep) : SheetSlot → Option Leg
  | .current => sweep.current
  | .pending => sweep.pendingLeg

/-- Write the leg for a sheet slot. -/
def Sweep.setLeg (slot : SheetSlot) (leg : Option Leg) (sweep : Sweep) : Sweep :=
  match slot with
  | .current => { sweep with current := leg }
  | .pending => { sweep with pendingLeg := leg }

/-- The leg for a sheet slot of event e. -/
def Gate.leg (g : Gate) (e : EventIndex) (slot : SheetSlot) : Option Leg :=
  (g.walker.roster[e]).leg slot

/-- Write the leg for a sheet slot of event e. -/
def setLeg (e : EventIndex) (slot : SheetSlot) (leg : Option Leg) (g : Gate) : Gate :=
  { g with walker :=
      { g.walker with roster := g.walker.roster.set e ((g.walker.roster[e]).setLeg slot leg) } }

/-- Change every leg of the roster. -/
def mapLegs (f : Leg → Leg) (g : Gate) : Gate :=
  { g with walker :=
      { g.walker with
        roster := g.walker.roster.map
          (fun sweep => { current := sweep.current.map f, pendingLeg := sweep.pendingLeg.map f }) } }

/-- Table 59, note 1: a first-lap leg is WALKING with lap number 1. -/
def Leg.firstLap (leg : Leg) : Bool :=
  leg.walking && leg.lap = 1

/-- Does the roster hold a leg that satisfies p? -/
def Gate.anyLeg (g : Gate) (p : Leg → Bool) : Bool :=
  rosterOrder.any (fun r => match g.leg r.1 r.2 with
    | some leg => p leg
    | none => false)

/-- Does the roster hold a first-lap leg? -/
def Gate.hasFirstLap (g : Gate) : Bool :=
  g.anyLeg Leg.firstLap

/-! ## Per-zone counts -/

/-- A count raised or lowered by 1, if it stays within 0–32,768. -/
def shiftCount (up : Bool) (c : ZoneCount) : Option ZoneCount :=
  if up then
    if h : c.val + 1 < 32769 then some ⟨c.val + 1, h⟩ else none
  else
    if c.val = 0 then none else some ⟨c.val - 1, by have := c.isLt; omega⟩

/-- Raise or lower event e's live count of zone z; a count that would leave 0–32,768 is a free value (log 6). -/
def shiftLive (e : EventIndex) (z : ZoneIndex) (up : Bool) (g : Gate) : Gate :=
  match shiftCount up ((g.event e).counts[z]) with
  | some c => modEvent e (fun ev => { ev with counts := ev.counts.set z c }) g
  | none =>
    let drawn := Config.countBeyond g.freeDraws
    modEvent e (fun ev => { ev with counts := ev.counts.set z drawn }) { g with freeDraws := g.freeDraws + 1 }

/-- Raise or lower the shadow count of zone z (R90), as shiftLive does. -/
def shiftShadow (z : ZoneIndex) (up : Bool) (g : Gate) : Gate :=
  match shiftCount up (g.upkeep.shadow[z]) with
  | some c => { g with upkeep := { g.upkeep with shadow := g.upkeep.shadow.set z c } }
  | none =>
    { g with
      upkeep := { g.upkeep with shadow := g.upkeep.shadow.set z (Config.countBeyond g.freeDraws) }
      freeDraws := g.freeDraws + 1 }

/-! ## Lane table (R6–R9) -/

/-- R9: the kind of a lane; 4080–4095 are RESERVED whatever happens to event records (R6). -/
def Gate.laneKind (g : Gate) (lane : Lane) : LaneKind :=
  if 4080 ≤ lane.toNat then .reserved
  else match Sparse.get g.lanes lane.toNat with
    | none => .free
    | some (.content e) => .content e
    | some (.key e) => .key e
    | some (.alternate e) => .alternate e

/-- The event a claim belongs to. -/
def LaneClaim.owner : LaneClaim → EventIndex
  | .content e => e
  | .key e => e
  | .alternate e => e

/-- R8: every lane entry naming index e returns to FREE. -/
def releaseLanes (e : EventIndex) (g : Gate) : Gate :=
  { g with lanes := g.lanes.filter (fun entry => entry.2.owner ≠ e) }

/-- R85: the Table Engine grants the table to a kind of step. -/
def granted (user : TableUser) (g : Gate) : Gate :=
  { g with upkeep := { g.upkeep with lastGrant := user } }

end Sys2Proof.Machine
end

