-- ==== Sys2Proof/Machine/Operands.lean ====
section
/-! DEFINITION. Fields of cells and bodies: reading them (most significant byte first, 0.6), the checks of a cell
(R1, R10), the numbers of phases, tasks, classes, results and status kinds, and the building of the part's own cells
(R11, R13, R15). -/

namespace Sys2Proof.Machine

/-! ## Reading fields -/

/-- Byte i of a cell or body; a byte a list lacks reads as 0 (log 27). -/
def byteAt (bytes : List Byte) (i : Nat) : Byte :=
  bytes.getD i 0

/-- A field of n bytes from byte i, most significant byte first (0.6). -/
def natAt (bytes : List Byte) : Nat → Nat → Nat
  | _, 0 => 0
  | i, n + 1 => (byteAt bytes i).toNat * 256 ^ n + natAt bytes (i + 1) n

/-- A field of two bytes. -/
def halfAt (bytes : List Byte) (i : Nat) : Half :=
  BitVec.ofNat 16 (natAt bytes i 2)

/-- A field of three bytes. -/
def decoderAt (bytes : List Byte) (i : Nat) : Decoder :=
  BitVec.ofNat 24 (natAt bytes i 3)

/-- A field of six bytes. -/
def timeAt (bytes : List Byte) (i : Nat) : Time :=
  BitVec.ofNat 48 (natAt bytes i 6)

/-- An optional time of six bytes, absent where all ones (R34). -/
def optionalTimeAt (bytes : List Byte) (i : Nat) : Option Time :=
  if timeAt bytes i = BitVec.allOnes 48 then none else some (timeAt bytes i)

/-- The bytes of a field of the given width, most significant byte first. -/
def field : Nat → Nat → List Byte
  | 0, _ => []
  | width + 1, v => BitVec.ofNat 8 (v / 256 ^ width) :: field width v

/-- The sum of bytes as numbers. -/
def byteSum (bytes : List Byte) : Nat :=
  bytes.foldl (fun sum b => sum + b.toNat) 0

/-! ## Header and body of a cell -/

/-- R1: the sync byte. -/
abbrev syncByte : Byte := 0x5C

/-- Table 5: the five header bytes sum to 0 modulo 256. -/
def headerSumGood (cell : List Byte) : Bool :=
  byteSum (cell.take 5) % 256 = 0

/-- R1: the header proper: a good sum, and bits 6–4 of byte 1 zero. -/
def headerGood (cell : List Byte) : Bool :=
  headerSumGood cell && (byteAt cell 1) &&& 0x70 = 0

/-- Table 5: the lane, bits 3–0 of byte 1 and byte 2. -/
def laneOf (cell : List Byte) : Lane :=
  BitVec.ofNat 12 (((byteAt cell 1).toNat % 16) * 256 + (byteAt cell 2).toNat)

/-- Table 5: the scrambled flag, bit 7 of byte 1. -/
def scrambled (cell : List Byte) : Bool :=
  (byteAt cell 1).getLsbD 7

/-- Table 5: the continuity byte. -/
def continuityOf (cell : List Byte) : Byte :=
  byteAt cell 3

/-- R10: bytes 238–239 equal the sum of bytes 5–237 modulo 65,536. -/
def bodyGood (cell : List Byte) : Bool :=
  natAt cell 238 2 = byteSum ((cell.drop 5).take 233) % 65536

/-! ## Numbers the cells carry -/

/-- Table 29: the phase numbers. -/
def Phase.number : Phase → Byte
  | .vacant => 0
  | .onSale => 1
  | .preview => 2
  | .live => 3
  | .extra => 4
  | .windDown => 5
  | .closed => 6
  | .stalled => 7
  | .retiring => 8

/-- Table 29: the grant mode of a phase. -/
def Phase.mode : Phase → GrantMode
  | .vacant => .noGrant
  | .onSale => .noGrant
  | .preview => .openGrant
  | .live => .listedGrant
  | .extra => .listedGrant
  | .windDown => .listedGrant
  | .closed => .noGrant
  | .stalled => .noGrant
  | .retiring => .noGrant

/-- Table 24: the task numbers 1–7. -/
def PhaseTask.number : PhaseTask → Byte
  | .goPreview => 1
  | .goLive => 2
  | .goExtra => 3
  | .goWindDown => 4
  | .goClosed => 5
  | .extendPreview => 6
  | .backToSale => 7

/-- Table 24: the task of a number. -/
def taskOfNumber (n : Byte) : Option PhaseTask :=
  if n = 1 then some .goPreview
  else if n = 2 then some .goLive
  else if n = 3 then some .goExtra
  else if n = 4 then some .goWindDown
  else if n = 5 then some .goClosed
  else if n = 6 then some .extendPreview
  else if n = 7 then some .backToSale
  else none

/-- Table 28, note 2: the class byte of a sheet read back. -/
def SheetClass.number : SheetClass → Byte
  | .noClass => 0
  | .openClass => 1
  | .listedClass => 2

/-- R67: the class that the grant mode of a phase gives a sheet at acceptance. -/
def GrantMode.sheetClass : GrantMode → SheetClass
  | .noGrant => .noClass
  | .openGrant => .openClass
  | .listedGrant => .listedClass

/-- Table 76: the result codes. -/
def Result.code : Result → Byte
  | .ok => 0x00
  | .okAlready => 0x01
  | .badForm => 0x02
  | .range => 0x03
  | .noEvent => 0x04
  | .noRoom => 0x05
  | .laneTaken => 0x06
  | .wrongPhase => 0x07
  | .busy => 0x08
  | .tableFull => 0x09
  | .bucketFull => 0x0A
  | .noHolder => 0x0B
  | .refusedPhase => 0x0C
  | .cutoff => 0x0D
  | .blackedOut => 0x0E
  | .barred => 0x0F
  | .mismatch => 0x10
  | .duplicateEvent => 0x11
  | .unknownCommand => 0x12
  | .storeFailed => 0x13

/-- Table 79: the kind bytes. -/
def StatusKind.number : StatusKind → Byte
  | .phase => 1
  | .cueRejected => 2
  | .keyLate => 3
  | .lateRisk => 4
  | .legLate => 5
  | .previewTail => 6
  | .time => 7
  | .input => 8
  | .queue => 9
  | .image => 10
  | .restarted => 11
  | .recountDone => 12

/-! ## Building cells -/

/-- Table 5: a header with the given flag byte (0 or 0x80), lane and continuity, and its check byte. -/
def headerOf (flag : Byte) (lane : Lane) (continuity : Byte) : List Byte :=
  let high := flag ||| BitVec.ofNat 8 (lane.toNat / 256)
  let low := BitVec.ofNat 8 (lane.toNat % 256)
  let sum := byteSum [syncByte, high, low, continuity]
  [syncByte, high, low, continuity, BitVec.ofNat 8 (256 - sum % 256)]

/-- A list of bytes cut or filled with zeros to a length: every byte a layout leaves unused is zero (R11). -/
def padTo (length : Nat) (bytes : List Byte) : List Byte :=
  (bytes ++ List.replicate length 0).take length

/-- R11: an outgoing control cell from its lane, continuity and body fields (byte 5 onward). -/
def controlCell (lane : Lane) (continuity : Byte) (body : List Byte) : List Byte :=
  let filled := padTo 233 body
  headerOf 0 lane continuity ++ filled ++ field 2 (byteSum filled % 65536)

/-- R11: an idle cell: lane 4095, continuity 0, bytes 5–239 zero. -/
def idleCell : List Byte :=
  headerOf 0 4095 0 ++ List.replicate 235 0

/-- R11, R151: a relabelled substitute keeps payload and scrambled flag; lane, continuity and check byte are new. -/
def relabelled (cell : List Byte) (lane : Lane) (continuity : Byte) : List Byte :=
  headerOf (byteAt cell 1 &&& 0x80) lane continuity ++ cell.drop 5

/-- R82: the number that stands for all decoders, and that no record may carry. -/
abbrev allDecoders : Decoder := 16777215

/-- Table 12, R15: the body of a listed grant notice. -/
def listedBody (z : ZoneIndex) (notice : Notice) : List Byte :=
  [1, BitVec.ofNat 8 z.val] ++ field 2 notice.eventNumber.toNat ++ field 4 notice.sheet.toNat
    ++ field 6 notice.effective.toNat ++ padTo 72 notice.blob ++ [BitVec.ofNat 8 notice.entries.length]
    ++ notice.entries.flatMap (fun d => field 3 d.toNat)

/-- Table 12, R15: the body of an open grant notice: form 2, entry count 1, the single entry 16,777,215. -/
def openBody (z : ZoneIndex) (eventNumber : Half) (sheet : SheetNumber) (effective : Time) (blob : List Byte) :
    List Byte :=
  [2, BitVec.ofNat 8 z.val] ++ field 2 eventNumber.toNat ++ field 4 sheet.toNat ++ field 6 effective.toNat
    ++ padTo 72 blob ++ [1] ++ field 3 allDecoders.toNat

/-- Table 13: the fields of a reply cell from byte 5. -/
def replyBody (unit : Byte) (busy : Bool) (reply : Reply) : List Byte :=
  [unit] ++ field 2 reply.tag.toNat ++ [reply.code, reply.result.code, if busy then 1 else 0,
    BitVec.ofNat 8 reply.body.length] ++ reply.body

/-- Table 13: the fields of a status cell from byte 5: tag, code and result 0, body length 1 + 8 × items. -/
def statusBody (unit : Byte) (busy : Bool) (items : List Item) : List Byte :=
  [unit] ++ field 2 0 ++ [0, 0, if busy then 1 else 0, BitVec.ofNat 8 (1 + 8 * items.length),
    BitVec.ofNat 8 items.length]
    ++ items.flatMap (fun item => [item.kind.number, item.object] ++ padTo 6 item.detail)

/-! ## Command cells (Table 13) -/

/-- R172, R173: a command as it begins: tag, code, body length byte and body. Body bytes beyond the body length are
ignored (R16). -/
structure Request where
  tag : Half
  code : Byte
  length : Nat
  body : List Byte
  deriving DecidableEq, Repr

/-- Table 13: the fields of a command cell. -/
def requestOf (cell : List Byte) : Request where
  tag := halfAt cell 6
  code := byteAt cell 8
  length := (byteAt cell 9).toNat
  body := (cell.drop 10).take (byteAt cell 9).toNat

/-- Two-byte fields back to back. -/
def halvesAt (bytes : List Byte) : Nat → Nat → List Half
  | _, 0 => []
  | i, n + 1 => halfAt bytes i :: halvesAt bytes (i + 2) n

/-- Blackout ranges back to back, low then high (R34). -/
def rangesAt (bytes : List Byte) : Nat → Nat → List Range
  | _, 0 => []
  | i, n + 1 => { low := halfAt bytes i, high := halfAt bytes (i + 2) } :: rangesAt bytes (i + 4) n

/-- Table 15: purchase items back to back. -/
def itemsAt (bytes : List Byte) : Nat → Nat → List PurchaseItem
  | _, 0 => []
  | i, n + 1 =>
    { decoder := decoderAt bytes i
      event := halfAt bytes (i + 3)
      zone := byteAt bytes (i + 5)
      region := halfAt bytes (i + 6) } :: itemsAt bytes (i + 8) n

/-- R104 and the holder commands: a decoder number of 0 or 16,777,215 is out of range. -/
def decoderInRange (d : Decoder) : Bool :=
  d ≠ 0 && d ≠ allDecoders

end Sys2Proof.Machine
end

