-- ==== Sys2Proof/Machine/Flags.lean ====
section
/-! DEFINITION. The flags and the status items: the posting of an item (R177), the items whose posting several blocks
share, and the busy flag of the command queue with its two levels (R171). -/

namespace Sys2Proof.Machine

/-! ## The pending status set (R177) -/

/-- R177: do two items have one key, kind together with object? -/
def Item.sameKey (a b : Item) : Bool :=
  a.kind = b.kind && a.object = b.object

/-- R177: an item under a key present replaces the item held and keeps its age; otherwise it enters as the newest. -/
def insertItem (item : Item) : List Item → List Item
  | [] => [item]
  | held :: rest => if item.sameKey held then item :: rest else held :: insertItem item rest

/-- R177: post a status item. -/
def post (kind : StatusKind) (object : Byte) (detail : List Byte) (g : Gate) : Gate :=
  { g with command :=
      { g.command with
        status := insertItem { kind := kind, object := object, detail := detail } g.command.status } }

/-- The object byte that names an event index. -/
def eventObject (e : EventIndex) : Byte :=
  BitVec.ofNat 8 e.val

/-- The object byte that names the part itself. -/
abbrev partObject : Byte := 0xFF

/-- The low bits of site time, n bytes. -/
def lowTime (g : Gate) (n : Nat) : List Byte :=
  field n g.clock.siteTime.toNat

/-- R41, Table 32: a PHASE item; the numbers given already carry the 0x80 of a resume-phase change. -/
def postPhase (e : EventIndex) (left entered : Byte) (g : Gate) : Gate :=
  post .phase (eventObject e) ([left, entered] ++ lowTime g 4) g

/-- R25, Table 21: a TIME item with its sub-code. -/
def postTime (sub : Byte) (g : Gate) : Gate :=
  post .time partObject (sub :: lowTime g 5) g

/-- R4: an INPUT item, 0x01 LOST or 0x02 REGAINED. -/
def postInput (sub : Byte) (g : Gate) : Gate :=
  post .input partObject [sub, 0, 0, 0, 0, 0] g

/-- Table 80: a QUEUE item with the command queue count. -/
def postQueue (sub : Byte) (g : Gate) : Gate :=
  post .queue partObject [sub, BitVec.ofNat 8 g.command.queue.length, 0, 0, 0, 0] g

/-- Table 80: an IMAGE item; byte 1 carries the strap fault, byte 2 the first failure of a defaulted image. -/
def postImage (sub failure : Byte) (g : Gate) : Gate :=
  post .image partObject [sub, if g.strapFault then 1 else 0, failure, 0, 0, 0] g

/-- R134, Table 61: a LEG_LATE item. -/
def postLegLate (e : EventIndex) (sheet : SheetNumber) (remaining : Nat) (g : Gate) : Gate :=
  post .legLate (eventObject e) (field 4 sheet.toNat ++ field 2 remaining) g

/-! ## The busy flag (R171) -/

/-- R171: a cell joins the command queue at its tail; a join that brings the count to 24 while the flag is clear sets
it and posts QUEUE BUSY. -/
def joinQueue (cell : List Byte) (g : Gate) : Gate :=
  let joined := { g with command := { g.command with queue := g.command.queue ++ [cell] } }
  if joined.command.queue.length = Config.busyLevel ∧ joined.command.busy = false then
    postQueue 0x01 { joined with command := { joined.command with busy := true } }
  else joined

/-- R171: the head cell leaves the command queue; a leaving that brings the count to 8 while the flag is set clears it
and posts QUEUE CLEAR. -/
def leaveQueue (g : Gate) : Gate :=
  let left := { g with command := { g.command with queue := g.command.queue.tail } }
  if left.command.queue.length = Config.clearLevel ∧ left.command.busy = true then
    postQueue 0x02 { left with command := { left.command with busy := false } }
  else left

end Sys2Proof.Machine
end

