-- ==== Sys2Proof/Machine/Delivery.lean ====
section
/-! DEFINITION. The delivery work that several steps set off or take back: offers to the fresh queues (R140), purges
(R143, R144, R160), the join, suspension, resumption and drop of legs (R120, R124, R131, R132), open offers (R70) and
the discard of a sheet (R68). -/

namespace Sys2Proof.Machine

/-! ## Fresh queues -/

/-- R140: an entry is offered to zone z's fresh queue: merged into an identical one, refused by a full queue, or
joined at the tail. -/
def offerFresh (entry : FreshEntry) (z : ZoneIndex) (g : Gate) : Gate :=
  if entry ∈ (g.zone z).fresh then
    modZone z (Zone.countBy .mergedEntries 1) g
  else if Config.freshQueueSize ≤ (g.zone z).fresh.length then
    modZone z (Zone.countBy .freshOverflows 1) g
  else
    modZone z (fun zone => Zone.countBy .entriesQueued 1 { zone with fresh := zone.fresh ++ [entry] }) g

/-- R143, R144: every entry of zone z's fresh queue that satisfies p is removed; the others keep their order. -/
def purgeFresh (p : FreshEntry → Bool) (z : ZoneIndex) (g : Gate) : Gate :=
  modZone z (fun zone => { zone with fresh := zone.fresh.filter (fun entry => !p entry) }) g

/-- The same on every zone. -/
def purgeFreshAll (p : FreshEntry → Bool) (g : Gate) : Gate :=
  allZones.foldl (fun acc z => purgeFresh p z acc) g

/-! ## Sweep queues and the pool -/

/-- R159: the buffers held by the four sweep queues. -/
def Gate.buffersHeld (g : Gate) : Nat :=
  (allZones.map (fun z => (g.zone z).sweep.length)).sum

/-- R159: the free buffers. -/
def Gate.freeBuffers (g : Gate) : Nat :=
  Config.poolSize - g.buffersHeld

/-- R160: every cell of zone z's sweep queue that satisfies p is removed, its buffer freed, and the zone's
sweep-cells-purged counter adds the number removed. -/
def purgeSweep (p : Notice → Bool) (z : ZoneIndex) (g : Gate) : Gate :=
  modZone z (fun zone =>
    let kept := zone.sweep.filter (fun notice => !p notice)
    Zone.countBy .sweepCellsPurged (zone.sweep.length - kept.length) { zone with sweep := kept }) g

/-- The same on every zone. -/
def purgeSweepAll (p : Notice → Bool) (g : Gate) : Gate :=
  allZones.foldl (fun acc z => purgeSweep p z acc) g

/-! ## Legs -/

/-- Table 59: a lap number rises by 1 and holds at 65,535. -/
def lapUp (lap : Half) : Half :=
  if lap = 65535 then lap else lap + 1

/-- R124: a leg WALKING on a later lap becomes WAITING and owes a flush. -/
def Leg.suspend (leg : Leg) : Leg :=
  if leg.walking && leg.lap ≠ 1 then { leg with walking := false, owesFlush := true } else leg

/-- R124: a WAITING leg resumes at the cursor on its next lap. -/
def Leg.resume (cursor : Bucket) (leg : Leg) : Leg :=
  if leg.walking then leg
  else { leg with walking := true, lap := lapUp leg.lap, join := cursor, remaining := 8192 }

/-- R124: every WAITING leg of the roster resumes. -/
def resumeWaiting (g : Gate) : Gate :=
  mapLegs (Leg.resume g.walker.cursor) g

/-- R124: where a leg has just ceased to be a first-lap leg, the WAITING legs resume if no first-lap leg remains. -/
def afterFirstLap (wasFirstLap : Bool) (g : Gate) : Gate :=
  if wasFirstLap && !g.hasFirstLap then resumeWaiting g else g

/-- R132: the leg of a slot is dropped with its assembly cells. -/
def dropLeg (e : EventIndex) (slot : SheetSlot) (g : Gate) : Gate :=
  match g.leg e slot with
  | none => g
  | some leg => afterFirstLap leg.firstLap (setLeg e slot none g)

/-- R120: the lateness deadline of a leg that joins for a sheet; a sheet already offered openly gives none. -/
def Sheet.legDeadline (sheet : Sheet) : Option Time :=
  if sheet.cls = .openClass ∧ sheet.mark = true then none else some sheet.effective

/-- Table 59: a leg as it joins at a cursor. -/
def Leg.joined (sheet : Sheet) (cursor : Bucket) : Leg where
  sheet := sheet.number
  join := cursor
  remaining := 8192
  lap := 1
  walking := true
  emitted := Vector.replicate 4 0
  late := false
  deadline := sheet.legDeadline
  owesFlush := false
  cells := Vector.replicate 4 []

/-- R134: the lateness deadline of a leg has been reached. A first-lap leg becomes late, is counted and posted; either
way the deadline is removed. -/
def makeLate (e : EventIndex) (slot : SheetSlot) (leg : Leg) (g : Gate) : Gate :=
  if leg.firstLap then
    postLegLate e leg.sheet leg.remaining.val
      (bumpEvent e .lateLegs (setLeg e slot (some { leg with late := true, deadline := none }) g))
  else setLeg e slot (some { leg with deadline := none }) g

/-- R120, R134 at a join: a deadline at or before site time is reached at once (R23). R120 and R136 call the leg of any current
sheet late from its join; but R66 lets a current sheet's effective time lie ahead, and no deadline is reached while UNSET. That
such a leg holds its deadline like any other is the model's choice (DESIGN CHOICE, log 40). -/
def lateAtJoin (e : EventIndex) (slot : SheetSlot) (leg : Leg) (g : Gate) : Gate :=
  match leg.deadline with
  | some t => if g.reached t then makeLate e slot leg g else g
  | none => g

/-- R119, R120, R124: a leg enters the roster for a sheet: later-lap legs are suspended and the join is counted. -/
def enterLeg (e : EventIndex) (slot : SheetSlot) (leg : Leg) (g : Gate) : Gate :=
  bumpEvent e .legsJoined (setLeg e slot (some leg) (mapLegs Leg.suspend g))

/-- R119, R120: a leg joins for the sheet of a slot, if there is a sheet and no leg for it yet; one whose deadline has
passed is late from its join. -/
def joinLeg (e : EventIndex) (slot : SheetSlot) (g : Gate) : Gate :=
  match g.sheet e slot, g.leg e slot with
  | some sheet, none =>
    let leg := Leg.joined sheet g.walker.cursor
    lateAtJoin e slot leg (enterLeg e slot leg g)
  | _, _ => g

/-- R136: at a restart the leg of a pending sheet joins holding its deadline, even one that has passed: it is reached at
the next change of site time and not at the join. -/
def rejoinPending (e : EventIndex) (g : Gate) : Gate :=
  match g.sheet e .pending, g.leg e .pending with
  | some sheet, none => enterLeg e .pending (Leg.joined sheet g.walker.cursor) g
  | _, _ => g

/-- R47, R133: the event's sweep is removed with both legs; the WAITING legs of other sweeps resume if no first-lap leg
remains. -/
def removeSweep (e : EventIndex) (g : Gate) : Gate :=
  let isFirst := fun slot => match g.leg e slot with
    | some leg => leg.firstLap
    | none => false
  afterFirstLap (isFirst .current || isFirst .pending) (setLeg e .pending none (setLeg e .current none g))

/-- R130: a decoder is taken out of a list of entries, the others keeping their order. -/
def takeOut (d : Decoder) (entries : List Decoder) : List Decoder :=
  entries.filter (fun x => x ≠ d)

/-- R130: a decoder is taken out of the open assembly cells of one zone of both legs of event e. -/
def takeOutOfEvent (d : Decoder) (e : EventIndex) (z : ZoneIndex) (g : Gate) : Gate :=
  let f := fun leg : Leg => { leg with cells := leg.cells.set z (takeOut d leg.cells[z]) }
  setLeg e .pending ((g.leg e .pending).map f) (setLeg e .current ((g.leg e .current).map f) g)

/-- R115: a decoder is taken out of every open assembly cell. -/
def takeOutEverywhere (d : Decoder) (g : Gate) : Gate :=
  mapLegs (fun leg => { leg with cells := leg.cells.map (takeOut d) }) g

/-- R53: the assembly cells of event e on zone z are discarded. -/
def discardCells (e : EventIndex) (z : ZoneIndex) (g : Gate) : Gate :=
  let f := fun leg : Leg => { leg with cells := leg.cells.set z [] }
  setLeg e .pending ((g.leg e .pending).map f) (setLeg e .current ((g.leg e .current).map f) g)

/-! ## Open offers -/

/-- R102: is zone z in the event's zone blackout mask? -/
def Event.masks (ev : Event) (z : ZoneIndex) : Bool :=
  ev.mask.getLsbD z.val

/-- R70: the open entry of a sheet. -/
def openEntry (e : EventIndex) (sheet : SheetNumber) : FreshEntry where
  form := .openAll
  decoder := allDecoders
  event := e
  sheet := sheet

/-- R70: a sheet's open entries are offered to every driven zone not in the event's mask, and its open mark is set. -/
def openOffer (e : EventIndex) (slot : SheetSlot) (g : Gate) : Gate :=
  match g.sheet e slot with
  | none => g
  | some sheet =>
    let offered := forDrivenZones
      (fun z acc => if (acc.event e).masks z then acc else offerFresh (openEntry e sheet.number) z acc) g
    modEvent e (Event.setSheet slot (some { sheet with mark := true })) offered

/-- R70: a sheet's open lead instant: its effective time less the open lead, or 0 where that would fall below 0. -/
def leadInstant (effective : Time) (lead : Half) : Time :=
  BitVec.ofNat 48 (effective.toNat - lead.toNat)

/-- R70: the open lead instant of the pending sheet is set from its effective time and the lead in force; one already
at or before site time is reached when it is set, and the entries are offered. -/
def setOpenLead (e : EventIndex) (g : Gate) : Gate :=
  match g.sheet e .pending with
  | none => g
  | some sheet =>
    let instant := leadInstant sheet.effective g.settings.openLead
    if g.reached instant then openOffer e .pending (modEvent e (fun ev => { ev with openLead := none }) g)
    else modEvent e (fun ev => { ev with openLead := some instant }) g

/-! ## Discard of a sheet (R68) -/

/-- Does a fresh entry name an event and a sheet? -/
def FreshEntry.names (entry : FreshEntry) (e : EventIndex) (sheet : SheetNumber) : Bool :=
  entry.event = e && entry.sheet = sheet

/-- Does a sweep-queue cell carry an event's sheet? -/
def Notice.carries (notice : Notice) (e : EventIndex) (sheet : SheetNumber) : Bool :=
  notice.event = e && notice.sheet = sheet

/-- R68: the sheet of a slot is discarded with every piece of delivery work made for it. The open lead instant goes
with a pending sheet (R70). -/
def discardSheet (e : EventIndex) (slot : SheetSlot) (g : Gate) : Gate :=
  match g.sheet e slot with
  | none => g
  | some sheet =>
    let emptied := modEvent e (fun ev =>
      { Event.setSheet slot none ev with openLead := if slot = .pending then none else ev.openLead }) g
    purgeSweepAll (fun notice => notice.carries e sheet.number)
      (purgeFreshAll (fun entry => entry.names e sheet.number) (dropLeg e slot emptied))

end Sys2Proof.Machine
end

