-- ==== Sys2Proof/Machine/Entitle.lean ====
section
/-! DEFINITION. Entitlement and the Holder Table: eligibility (R100–R102), buckets and ways (R82–R84), and the record
change with its counts, purges and fresh rule (R86, R90, R117, R141). -/

namespace Sys2Proof.Machine

/-! ## Eligibility -/

/-- R101: a region code lies in a range, both ends inclusive. -/
def Range.covers (range : Range) (region : Half) : Bool :=
  range.low ≤ region && region ≤ range.high

/-- R101: the region is blacked out for the event. -/
def Event.blacksRegion (ev : Event) (region : Half) : Bool :=
  ev.ranges.any (fun range => range.covers region)

/-- R100: holder record h is eligible for event index e. -/
def eligible (h : Holder) (e : EventIndex) (ev : Event) : Bool :=
  !h.barred
    && (h.exempt || !ev.blacksRegion h.region)
    && (h.grants.getLsbD e.val || (h.bought.getLsbD e.val && !h.denies.getLsbD e.val))

/-- R102: holder record h is grant-eligible for event index e. -/
def grantEligible (h : Holder) (e : EventIndex) (ev : Event) : Bool :=
  eligible h e ev && !ev.masks h.zone

/-- R86: eligibility of a record that may not be there. -/
def eligibleOpt (h : Option Holder) (e : EventIndex) (ev : Event) : Bool :=
  match h with
  | some record => eligible record e ev
  | none => false

/-- R86: is a record that may not be there grant-eligible on zone z? -/
def grantOn (h : Option Holder) (e : EventIndex) (ev : Event) (z : ZoneIndex) : Bool :=
  match h with
  | some record => grantEligible record e ev && record.zone = z
  | none => false

/-! ## Buckets and ways -/

/-- R82: the bucket of a decoder number: its low 13 bits exclusive-or its high 11 bits. -/
def bucketOf (d : Decoder) : Bucket :=
  ⟨((d.extractLsb' 0 13) ^^^ ((d.extractLsb' 13 11).zeroExtend 13)).toNat, by
    exact BitVec.isLt _⟩

/-- The key of a way of a bucket in the table's list: bucket and way order is key order. -/
def slotKey (b : Bucket) (way : Nat) : Nat :=
  b.val * 4 + way

/-- The bucket a key lies in. -/
def bucketOfKey (key : Nat) : Nat :=
  key / 4

/-- The ways of a bucket in order. -/
def allWays : List Nat :=
  [0, 1, 2, 3]

/-- R82: every lookup examines the four ways of one bucket: the key of the decoder's record. -/
def findHolder (d : Decoder) (g : Gate) : Option (Nat × Holder) :=
  allWays.findSome? (fun way =>
    match Sparse.get g.holders (slotKey (bucketOf d) way) with
    | some h => if h.decoder = d then some (slotKey (bucketOf d) way, h) else none
    | none => none)

/-- The records of a bucket in way order, with their keys. -/
def bucketRecords (b : Bucket) (g : Gate) : List (Nat × Holder) :=
  allWays.filterMap (fun way => (Sparse.get g.holders (slotKey b way)).map (fun h => (slotKey b way, h)))

/-- R83: where a new record for a decoder goes: TABLE_FULL, BUCKET_FULL, or the lowest free way's key. -/
def placement (d : Decoder) (g : Gate) : Except Result Nat :=
  if Config.tableSize ≤ g.holders.length then .error .tableFull
  else match allWays.find? (fun way => (Sparse.get g.holders (slotKey (bucketOf d) way)).isNone) with
    | some way => .ok (slotKey (bucketOf d) way)
    | none => .error .bucketFull

/-- R99: the refusal counter of a refused placement. -/
def countRefusal (r : Result) (g : Gate) : Gate :=
  if r = .tableFull then bump .tableFullRefusals g else bump .bucketFullRefusals g

/-! ## Record changes (R86, R117) -/

/-- R90, R92: a RECOUNT of event e is running and bucket b has been visited in it. -/
def Gate.shadows (g : Gate) (e : EventIndex) (b : Nat) : Bool :=
  b < g.upkeep.cursor.val && match g.upkeep.tasks with
    | .recount x :: _ => x = e
    | .retire x carried :: _ => x = e && carried
    | _ => false

/-- R86, R90: event e's live count of zone z moves by 1, and the shadow count with it where the bucket has been
visited. -/
def moveCount (e : EventIndex) (b : Nat) (z : ZoneIndex) (up : Bool) (g : Gate) : Gate :=
  let moved := shiftLive e z up g
  if g.shadows e b then shiftShadow z up moved else moved

/-- R86: the counts of event e move where eligibility or zone differs between the two judgements. -/
def moveCounts (b : Nat) (before after : Option Holder) (e : EventIndex) (g : Gate) : Gate :=
  let was := eligibleOpt before e (g.event e)
  let is := eligibleOpt after e (g.event e)
  if was = is ∧ before.map Holder.zone = after.map Holder.zone then g
  else
    let fallen := match before with
      | some h => if was then moveCount e b h.zone false g else g
      | none => g
    match after with
    | some h => if is then moveCount e b h.zone true fallen else fallen
    | none => fallen

/-- R86, R130, R143: where the change ends grant-eligibility for event e on a zone, the record's listed entries for e
leave that zone's fresh queue and its decoder that zone's open assembly cells for e. -/
def purgeLost (before after : Option Holder) (e : EventIndex) (g : Gate) : Gate :=
  match before with
  | none => g
  | some h =>
    if grantOn before e (g.event e) h.zone && !grantOn after e (g.event e) h.zone then
      takeOutOfEvent h.decoder e h.zone
        (purgeFresh (fun entry => entry.form = .listed && entry.decoder = h.decoder && entry.event = e) h.zone g)
    else g

/-- R125: bucket b has been visited in the leg's current lap. -/
def Leg.visited (leg : Leg) (b : Bucket) : Bool :=
  leg.walking && (b.val + 8192 - leg.join.val) % 8192 < 8192 - leg.remaining.val

/-- R141: the leg of the sheet will place the decoder itself in its present lap. -/
def Leg.willReach (leg : Leg) (b : Bucket) : Bool :=
  leg.walking && !leg.visited b

/-- R141: the listed entry for a decoder and a sheet. -/
def listedEntry (d : Decoder) (e : EventIndex) (sheet : SheetNumber) : FreshEntry where
  form := .listed
  decoder := d
  event := e
  sheet := sheet

/-- R141 for one of the event's sheets. -/
def freshForSheet (h : Holder) (e : EventIndex) (slot : SheetSlot) (g : Gate) : Gate :=
  match g.sheet e slot with
  | none => g
  | some sheet =>
    match g.leg e slot with
    | some leg =>
      if leg.willReach (bucketOf h.decoder) then g else offerFresh (listedEntry h.decoder e sheet.number) h.zone g
    | none => offerFresh (listedEntry h.decoder e sheet.number) h.zone g

/-- R141: the fresh rule for a record that has become grant-eligible for event e: in a LISTED phase the current sheet
and then the pending sheet. -/
def freshRule (h : Holder) (e : EventIndex) (g : Gate) : Gate :=
  if (g.event e).phase.mode = .listedGrant then freshForSheet h e .pending (freshForSheet h e .current g) else g

/-- R86: the record is handed to the fresh rule where the change has made it grant-eligible for event e. -/
def handFresh (before after : Option Holder) (e : EventIndex) (g : Gate) : Gate :=
  match after with
  | none => g
  | some h =>
    if grantOn after e (g.event e) h.zone && !grantOn before e (g.event e) h.zone then freshRule h e g else g

/-- R81–R84: the table's entry of a key is written, or its way freed. -/
def writeHolder (key : Nat) (after : Option Holder) (g : Gate) : Gate :=
  { g with holders := match after with
      | some h => Sparse.set g.holders key h
      | none => Sparse.erase g.holders key }

/-- R85, R86, R117: one record change as one step: the live and shadow counts, then the purges, then the pairs handed
to the fresh rule in ascending event index; and the record as it stands after. -/
def changeRecord (key : Nat) (before after : Option Holder) (g : Gate) : Gate :=
  let counted := allEvents.foldl (fun acc e => moveCounts (bucketOfKey key) before after e acc) g
  let purged := allEvents.foldl (fun acc e => purgeLost before after e acc) counted
  let handed := allEvents.foldl (fun acc e => handFresh before after e acc) purged
  writeHolder key after handed

end Sys2Proof.Machine
end

