-- ==== Sys2Proof/Machine/Phases.lean ====
section
/-! DEFINITION. The Phase Controller: tasks and where they are allowed from (R38, Table 31), the phase change with its
stamps, entry actions, deadline and PHASE item (R39–R47), STALLED (R48–R50), and PHASE_DEADLINE_EXPIRY (R43). -/

namespace Sys2Proof.Machine

/-- Table 31: the phases a task is allowed from. -/
def PhaseTask.allowedFrom : PhaseTask → Phase → Bool
  | .goPreview, p => p = .onSale
  | .goLive, p => p = .onSale || p = .preview
  | .goExtra, p => p = .live
  | .goWindDown, p => p = .live || p = .extra
  | .goClosed, p => p = .onSale || p = .preview || p = .live || p = .extra || p = .windDown || p = .stalled
  | .extendPreview, p => p = .preview
  | .backToSale, p => p = .preview

/-- Table 31: the phase a task leads to; EXTEND_PREVIEW leaves PREVIEW as it is. -/
def PhaseTask.leadsTo : PhaseTask → Phase
  | .goPreview => .preview
  | .goLive => .live
  | .goExtra => .extra
  | .goWindDown => .windDown
  | .goClosed => .closed
  | .extendPreview => .preview
  | .backToSale => .onSale

/-- Table 33: the deadline of a phase entered at a site time. -/
def Event.deadlineFor (ev : Event) (p : Phase) (entry : Time) : Option Time :=
  match p with
  | .onSale => ev.scheduledStart
  | .preview => if ev.previewLength = 0 then none else some (timeAddMinutes entry ev.previewLength.toNat)
  | .extra => if ev.extraLimit = 0 then none else some (timeAddMinutes entry ev.extraLimit.toNat)
  | .windDown => some (timeAddMinutes entry ev.grace.toNat)
  | .live => none
  | .closed => none
  | .stalled => none
  | .retiring => none
  | .vacant => none

/-- Table 33: the task at the expiry of a phase's deadline. -/
def Event.expiryTask (ev : Event) (p : Phase) : Option PhaseTask :=
  match p with
  | .onSale => if ev.previewLength = 0 then some .goLive else some .goPreview
  | .preview => some .goLive
  | .extra => some .goWindDown
  | .windDown => some .goClosed
  | .live => none
  | .closed => none
  | .stalled => none
  | .retiring => none
  | .vacant => none

/-! ## Entry actions -/

/-- R72: at an entry into a LISTED phase the pending sheet is judged: reclassed LISTED, or kept OPEN as a preview
tail, counted and posted. -/
def judgePending (e : EventIndex) (g : Gate) : Gate :=
  match g.sheet e .pending with
  | none => g
  | some sheet =>
    if sheet.cls = .openClass ∧ sheet.mark = true then
      post .previewTail (eventObject e) (field 4 sheet.number.toNat ++ [0, 0]) (bumpEvent e .previewTails g)
    else if sheet.cls = .openClass ∨ sheet.cls = .noClass then
      modEvent e (fun ev =>
        { Event.setSheet .pending (some { sheet with cls := .listedClass }) ev with openLead := none }) g
    else g

/-- R45: the actions of an entry into a LISTED phase from NONE or OPEN. -/
def enterListed (e : EventIndex) (g : Gate) : Gate :=
  judgePending e (joinLeg e .pending (joinLeg e .current g))

/-- R46: the pending sheet, if there is one, is classed OPEN. -/
def classPendingOpen (e : EventIndex) (g : Gate) : Gate :=
  match g.sheet e .pending with
  | none => g
  | some sheet => modEvent e (Event.setSheet .pending (some { sheet with cls := .openClass })) g

/-- R71: the open repeat instant is set to a site time plus the repeat interval. -/
def setOpenRepeat (e : EventIndex) (g : Gate) : Gate :=
  modEvent e (fun ev =>
    { ev with openRepeat := some (timeAdd g.clock.siteTime (g.settings.repeatInterval.toNat * 1000)) }) g

/-- R46: the actions of an entry into PREVIEW from a NONE phase. -/
def enterOpen (e : EventIndex) (g : Gate) : Gate :=
  setOpenRepeat e (setOpenLead e (classPendingOpen e (openOffer e .current g)))

/-- R47: the actions of an entry into a NONE phase from OPEN or LISTED. -/
def enterNone (e : EventIndex) (g : Gate) : Gate :=
  purgeSweepAll (fun notice => notice.event = e)
    (purgeFreshAll (fun entry => entry.event = e) (removeSweep e g))

/-- Table 34: the entry actions by the grant modes left and entered. -/
def entryActions (e : EventIndex) : GrantMode → GrantMode → Gate → Gate
  | .noGrant, .listedGrant => enterListed e
  | .openGrant, .listedGrant => enterListed e
  | .noGrant, .openGrant => enterOpen e
  | .openGrant, .noGrant => enterNone e
  | .listedGrant, .noGrant => enterNone e
  | .noGrant, .noGrant => id
  | .openGrant, .openGrant => id
  | .listedGrant, .listedGrant => id
  | .listedGrant, .openGrant => id

/-- R70, R71, R73: an event that leaves PREVIEW loses its open lead instant and its open repeat instant. -/
def Event.leavePreview (ev : Event) : Event :=
  if ev.phase = .preview then { ev with openLead := none, openRepeat := none } else ev

/-- R39: the two-deep stamps of a change into phase p at site time now, the live stamp on the first entry into LIVE,
and the resume phase (R48–R50). -/
def Event.stamp (p : Phase) (now : Time) (ev : Event) : Event :=
  { ev with
    phase := p
    previousEntry := some ev.currentEntry
    previousPhase := some ev.phase
    currentEntry := now
    liveStamp := if p = .live ∧ ev.liveStamp = none then some now else ev.liveStamp
    resumePhase := if p = .stalled then some ev.phase else none }

/-- R74: on the first entry into a granting phase of an event that has accepted no sheet, the starvation base is the
entry time and the next instant one epoch later. -/
def Event.startStarvation (now : Time) (ev : Event) : Event :=
  if ev.phase.mode ≠ .noGrant ∧ ev.base = none then
    { ev with base := some now, nextStarvation := some (timeAdd now (ev.epoch.toNat * 1000)) }
  else ev

/-- R42: the phase deadline after a change from phase left: kept across entry into STALLED and across the return from
it, else set from Table 33. -/
def Event.renewDeadline (left : Phase) (now : Time) (ev : Event) : Event :=
  if ev.phase = .stalled ∨ (left = .stalled ∧ ev.phase ≠ .closed) then ev
  else { ev with deadline := ev.deadlineFor ev.phase now }

/-- R40: one phase change: the stamps, the entry actions, the phase deadline, the PHASE item. -/
def changePhase (e : EventIndex) (p : Phase) (g : Gate) : Gate :=
  let left := (g.event e).phase
  let now := g.clock.siteTime
  let stamped := modEvent e (fun ev => Event.startStarvation now (Event.stamp p now ev.leavePreview)) g
  let acted := entryActions e left.mode p.mode stamped
  let dated := modEvent e (Event.renewDeadline left now) acted
  postPhase e left.number p.number dated

/-! ## Tasks -/

/-- R38, R49: the phase a task is judged against: the event's phase, or its resume phase while STALLED for every task
but GO_CLOSED. -/
def Event.judgedPhase (ev : Event) (task : PhaseTask) : Phase :=
  if ev.phase = .stalled ∧ task ≠ .goClosed then ev.resumePhase.getD .stalled else ev.phase

/-- R44: a preview deadline that is present moves later. -/
def extendPreview (e : EventIndex) (minutes : Nat) (g : Gate) : Gate :=
  modEvent e (fun ev => { ev with deadline := ev.deadline.map (fun t => timeAddMinutes t minutes) }) g

/-- R49: a task allowed from the resume phase is applied to the resume phase: it takes the result, the previous slot
is rewritten, the deadline is set from this time, and a flagged PHASE item is posted. -/
def changeResume (e : EventIndex) (from_ to_ : Phase) (g : Gate) : Gate :=
  let now := g.clock.siteTime
  postPhase e (0x80 + from_.number) (0x80 + to_.number)
    (modEvent e (fun ev =>
      { ev with
        resumePhase := some to_
        previousEntry := some now
        previousPhase := some to_
        deadline := ev.deadlineFor to_ now
        liveStamp := if to_ = .live ∧ ev.liveStamp = none then some now else ev.liveStamp }) g)

/-- R42: BACK_TO_SALE removes the scheduled start. -/
def dropStart (task : PhaseTask) (e : EventIndex) (g : Gate) : Gate :=
  if task = .backToSale then modEvent e (fun ev => { ev with scheduledStart := none }) g else g

/-- R38, R44, R49, R50: an allowed task takes its result; none where Table 31 does not allow it. -/
def applyTask (e : EventIndex) (task : PhaseTask) (minutes : Nat) (g : Gate) : Option Gate :=
  let judged := (g.event e).judgedPhase task
  if task.allowedFrom judged then
    some (
      if task = .extendPreview then extendPreview e minutes g
      else if (g.event e).phase = .stalled ∧ task.leadsTo ≠ .closed then
        changeResume e judged task.leadsTo (dropStart task e g)
      else changePhase e task.leadsTo (dropStart task e g))
  else none

/-! ## PHASE_DEADLINE_EXPIRY -/

/-- R43: the phase whose deadline an event holds: its phase, or its resume phase while STALLED. -/
def Event.deadlinePhase (ev : Event) : Phase :=
  if ev.phase = .stalled then ev.resumePhase.getD .stalled else ev.phase

/-- R43: the deadline is removed, the expiry counted and the task of Table 33 applied. -/
def expireDeadline (e : EventIndex) (g : Gate) : Gate :=
  let removed := bumpEvent e .deadlineExpiries (modEvent e (fun ev => { ev with deadline := none }) g)
  match (g.event e).expiryTask (g.event e).deadlinePhase with
  | some task => (applyTask e task 0 removed).getD removed
  | none => removed

/-- R23, R43: the expiry is taken when the event's phase deadline has been reached, and is otherwise not due. -/
def phaseDeadlineExpiry (e : EventIndex) (g : Gate) : Gate :=
  match (g.event e).deadline with
  | some t => if g.reached t then expireDeadline e g else g
  | none => g

/-- Run a step of the part; the queue of waiting commands stays as it is. -/
def State.onGate (f : Gate → Gate) (s : State) : Host.Outcome State Fault Refusal :=
  .next { s with gate := f s.gate }

/-- PHASE_DEADLINE_EXPIRY (R43). -/
def execPhaseDeadlineExpiry (e : EventIndex) (s : State) : Host.Outcome State Fault Refusal :=
  s.onGate (phaseDeadlineExpiry e)

end Sys2Proof.Machine
end

