-- ==== Sys2Proof/Machine/Clock.lean ====
section
/-! DEFINITION. The Site Clock (R17–R25) and the window closes it marks: SITE_CLOCK_TICK, TIME_CELL, and WINDOW_CLOSE
with the idle rate and the lateness projection of the zones (R161–R165). -/

namespace Sys2Proof.Machine

/-! ## Site time -/

/-- R18: site time some milliseconds later; it stays at 2^48 − 1 once there. -/
def laterTime (t : Time) (ms : Nat) : Time :=
  BitVec.ofNat 48 (min (t.toNat + ms) (2 ^ 48 - 1))

/-- R18, R20, R24: site time rises; a window closes where it reaches or crosses a whole multiple of 1,000. -/
def Clock.advance (ms : Nat) (clock : Clock) : Clock :=
  { clock with
    siteTime := laterTime clock.siteTime ms
    closesDue :=
      if (laterTime clock.siteTime ms).toNat / 1000 = clock.siteTime.toNat / 1000 then clock.closesDue
      else clock.closesDue + 1 }

/-- R18: a tick is absorbed by the withhold count, or site time rises by 1. -/
def Clock.tick (clock : Clock) : Clock :=
  if clock.withhold = 0 then clock.advance 1
  else { clock with withhold := Fin.ofNat 11 (clock.withhold.val - 1) }

/-- R18: a millisecond tick of the local oscillator. -/
def siteClockTick (g : Gate) : Gate :=
  { g with clock := g.clock.tick }

/-- SITE_CLOCK_TICK (R18). -/
def execSiteClockTick (s : State) : Host.Outcome State Fault Refusal :=
  s.onGate siteClockTick

/-! ## Time cells -/

/-- R19: the first setting. The window in progress closes at it (R24). Where the new site time is itself a multiple of
1,000, the next window ends at the next multiple, 1,000 ms later: R24's last words on this can be read as one multiple
further on, and its first sentence is followed (DESIGN CHOICE, log 35). -/
def Clock.firstSetting (programme : Time) (clock : Clock) : Clock where
  siteTime := if clock.siteTime ≤ programme then programme else clock.siteTime
  isSet := true
  withhold := 0
  largeRun := 0
  fault := false
  closesDue := clock.closesDue + 1

/-- R20: the offset of a programme time, as a signed difference without wrap. -/
def Clock.offset (programme : Time) (clock : Clock) : Int :=
  (programme.toNat : Int) - clock.siteTime.toNat

/-- R20, R21: the correction an offset asks for. -/
def Clock.correct (d : Int) (clock : Clock) : Clock :=
  if d < 0 then
    { clock with withhold := Fin.ofNat 11 (max clock.withhold.val (min d.natAbs 10)) }
  else { clock.advance (min d.natAbs 10) with withhold := 0 }

/-- R22: the large-offset run and the fault flag after an offset. -/
def Clock.judge (d : Int) (clock : Clock) : Clock :=
  if 10 < d.natAbs then
    { clock with
      largeRun := Fin.ofNat 9 (min (clock.largeRun.val + 1) 8)
      fault := clock.fault || 8 ≤ clock.largeRun.val + 1 }
  else { clock with largeRun := 0, fault := false }

/-- R20–R22: the counters of a time cell with offset d taken while SET. -/
def countOffset (d : Int) (g : Gate) : Gate :=
  let corrected :=
    if 0 < d then bump .forwardCorrections g
    else if d < 0 then bump .backwardCorrections g
    else g
  if 10 < d.natAbs then bump .largeOffsets corrected else corrected

/-- R22: a change of the fault flag posts TIME FAULT or TIME CLEAR. -/
def postFault (was : Bool) (g : Gate) : Gate :=
  if g.clock.fault = was then g
  else if g.clock.fault then postTime 0x02 g
  else postTime 0x03 g

/-- R19–R22: the Site Clock takes a time cell. -/
def takeTime (cell : List Byte) (g : Gate) : Gate :=
  let programme := timeAt cell 5
  let counted := bump .timeCellsTaken g
  if g.clock.isSet then
    let d := g.clock.offset programme
    postFault g.clock.fault (countOffset d { counted with clock := (g.clock.correct d).judge d })
  else postTime 0x01 { counted with clock := g.clock.firstSetting programme }

/-- R10: the hand-over of a control cell ends as its unit takes the cell. -/
def clearHandoff (g : Gate) : Gate :=
  { g with intake := { g.intake with handoff := none } }

/-- R10, R20: the Site Clock takes the time cell handed to it; without one the step is not due (log 1). -/
def timeCell (g : Gate) : Gate :=
  match g.intake.handoff with
  | some (.time cell) => takeTime cell (clearHandoff g)
  | _ => g

/-- TIME_CELL (R19–R22). -/
def execTimeCell (s : State) : Host.Outcome State Fault Refusal :=
  s.onGate timeCell

/-! ## The lateness projection -/

/-- R163: a count of entries in notices, 48 to a notice, rounded up. -/
def noticesFor (entries : Nat) : Nat :=
  (entries + 47) / 48

/-- R162: is the leg of a slot a counted leg of zone z? -/
def Gate.isCounted (g : Gate) (z : ZoneIndex) (r : EventIndex × SheetSlot) : Bool :=
  match g.leg r.1 r.2 with
  | some leg => leg.firstLap && !(g.event r.1).masks z
  | none => false

/-- R162: the counted legs of zone z, in roster order. -/
def Gate.countedLegs (g : Gate) (z : ZoneIndex) : List (EventIndex × SheetSlot) :=
  rosterOrder.filter (g.isCounted z)

/-- R163: a leg's remaining first-lap work on zone z. -/
def Gate.legWork (g : Gate) (z : ZoneIndex) (r : EventIndex × SheetSlot) : Nat :=
  match g.leg r.1 r.2 with
  | some leg => ((g.event r.1).counts[z]).val - leg.emitted[z]
  | none => 0

/-- R163: the need N of zone z, in notices. -/
def Gate.need (g : Gate) (z : ZoneIndex) : Nat :=
  (g.zone z).sweep.length + noticesFor (g.zone z).fresh.length
    + ((g.countedLegs z).map (fun r => noticesFor (g.legWork z r))).sum

/-- R164: the supply S of a zone. -/
def Zone.supply (zone : Zone) : Nat :=
  zone.idleRate.toNat * zone.share.toNat / 256

/-- R164: the effective time that a counted leg gives the deadline; a sheet offered openly gives none. -/
def Gate.effectiveOf (g : Gate) (r : EventIndex × SheetSlot) : Option (EventIndex × Time) :=
  match g.sheet r.1 r.2 with
  | some sheet =>
    if sheet.cls = .openClass ∧ sheet.mark = true then none else some (r.1, sheet.effective)
  | none => none

/-- R164, R165: the earlier of two; at equal times the one found first, which has the lower event index. -/
def earlier (a b : EventIndex × Time) : EventIndex × Time :=
  if b.2 < a.2 then b else a

/-- R164: the earliest effective time among the counted legs, with its event. -/
def Gate.earliest (g : Gate) (z : ZoneIndex) : Option (EventIndex × Time) :=
  match (g.countedLegs z).filterMap g.effectiveOf with
  | [] => none
  | first :: rest => some (rest.foldl earlier first)

/-- R164: is N not met by S within D ms? The time needed is 0 where N is 0, else N ÷ S rounded up, unbounded where S
is 0 (log 19). -/
def atRisk (n s : Nat) (d : Int) : Bool :=
  if n = 0 then d < 0
  else if s = 0 then true
  else d < ((((n + s - 1) / s) * 1000 : Nat) : Int)

/-- R164: D, the earliest effective time less site time less the guard. -/
def Gate.slack (g : Gate) (effective : Time) : Int :=
  (effective.toNat : Int) - g.clock.siteTime.toNat - g.settings.guard.toNat

/-- R165: the LATE_RISK flag of zone z takes a value; a change posts the item of Table 73 and a SET is counted. -/
def setRisk (z : ZoneIndex) (risk : Bool) (event : Byte) (n s : Nat) (g : Gate) : Gate :=
  if (g.zone z).lateRisk = risk then g
  else
    post .lateRisk (BitVec.ofNat 8 z.val)
      ([if risk then 0x01 else 0x02, event] ++ field 2 (min n 65535) ++ field 2 (min s 65535))
      (modZone z (fun zone =>
        if risk then Zone.countBy .riskSets 1 { zone with lateRisk := true } else { zone with lateRisk := false }) g)

/-- R162–R165: the projection of zone z. -/
def project (z : ZoneIndex) (g : Gate) : Gate :=
  let n := g.need z
  let s := (g.zone z).supply
  match g.earliest z with
  | some (e, effective) => setRisk z (atRisk n s (g.slack effective)) (eventObject e) n s g
  | none => setRisk z false 0xFF n s g

/-- R161: zone z takes the close: the window count becomes the idle rate, and the projection is made while SET. -/
def closeWindow (z : ZoneIndex) (g : Gate) : Gate :=
  let taken := modZone z (fun zone => { zone with idleRate := zone.windowCount, windowCount := 0 }) g
  if g.clock.isSet then project z taken else taken

/-- R161: every driven zone takes a close that the Site Clock has marked; with none marked the step is not due
(log 14). -/
def windowClose (g : Gate) : Gate :=
  if g.clock.closesDue = 0 then g
  else forDrivenZones closeWindow { g with clock := { g.clock with closesDue := g.clock.closesDue - 1 } }

/-- WINDOW_CLOSE (R161). -/
def execWindowClose (s : State) : Host.Outcome State Fault Refusal :=
  s.onGate windowClose

end Sys2Proof.Machine
end

