-- ==== Sys2Proof/Machine/Cues.lean ====
section
/-! DEFINITION. The Cue Unit (R26–R32): the lookup of an event by its number, the cue map, CUE_CELL. -/

namespace Sys2Proof.Machine

/-- The non-VACANT event record that carries an event number, if there is one (R28, R33). -/
def Gate.findEvent (g : Gate) (number : Half) : Option EventIndex :=
  allEvents.find? (fun e => (g.event e).phase ≠ .vacant && (g.event e).number = number)

/-- R26: the entry of a cue code. -/
def Gate.cueEntry (g : Gate) (code : Byte) : Option CueEntry :=
  g.settings.cueMap.find? (fun entry => entry.code = code)

/-- R30, Table 26: a cue's task is handed to the Phase Controller; applied it is counted, not allowed it is counted
and posted. -/
def applyCue (e : EventIndex) (entry : CueEntry) (sequence : Byte) (g : Gate) : Gate :=
  match applyTask e entry.task ((entry.minutes.getD 0).toNat) g with
  | some applied => bumpEvent e .appliedCues applied
  | none =>
    post .cueRejected (eventObject e)
      [entry.code, sequence, entry.task.number, ((g.event e).judgedPhase entry.task).number, 0, 0]
      (bumpEvent e .rejectedCues g)

/-- R29: a mapped cue is a repeat of the last sequence, or records its sequence and has its task applied. -/
def takeMapped (e : EventIndex) (entry : CueEntry) (sequence : Byte) (g : Gate) : Gate :=
  if (g.event e).lastCue = some sequence then bumpEvent e .repeatCues g
  else applyCue e entry sequence (modEvent e (fun ev => { ev with lastCue := some sequence }) g)

/-- R28: the Cue Unit takes a cue cell: stray, unmapped, or mapped. -/
def takeCue (cell : List Byte) (g : Gate) : Gate :=
  match g.findEvent (halfAt cell 5) with
  | none => bump .strayCues g
  | some e =>
    match g.cueEntry (byteAt cell 8) with
    | none => bumpEvent e .unmappedCues g
    | some entry => takeMapped e entry (byteAt cell 7) g

/-- R10, R28: the Cue Unit takes the cue cell handed to it; without one the step is not due (log 1). -/
def cueCell (g : Gate) : Gate :=
  match g.intake.handoff with
  | some (.cue cell) => takeCue cell (clearHandoff g)
  | _ => g

/-- CUE_CELL (R28–R30). -/
def execCueCell (s : State) : Host.Outcome State Fault Refusal :=
  s.onGate cueCell

end Sys2Proof.Machine
end

