-- ==== Sys2Proof/Machine/KeyUnit.lean ====
section
/-! DEFINITION. The Key Unit (chapter 4): KEY_CELL and the instants PROMOTION, OPEN_LEAD_INSTANT, OPEN_REPEAT and
STARVATION_INSTANT. -/

namespace Sys2Proof.Machine

/-! ## Acceptance of a sheet -/

/-- Table 38, note 1: the newest accepted sheet, the pending one if there is one. -/
def Event.newest (ev : Event) : Option Sheet :=
  match ev.pendingSheet with
  | some sheet => some sheet
  | none => ev.current

/-- R74: acceptance resets the starvation items to the sheet's effective time. -/
def Event.resetStarvation (effective : Time) (ev : Event) : Event :=
  { ev with
    starvation := 0
    base := some effective
    nextStarvation := some (timeAdd effective (ev.epoch.toNat * 1000)) }

/-- Table 39, R64–R66: the slot an accepted sheet takes. -/
def Gate.placeFor (g : Gate) (e : EventIndex) (effective : Time) : SheetSlot :=
  if (g.event e).pendingSheet.isSome then .pending
  else if g.clock.isSet then
    if g.clock.siteTime < effective then .pending else .current
  else if (g.event e).current.isSome then .pending
  else .current

/-- R64, R65: a supersede, or a late sheet, is counted. -/
def countPlacement (e : EventIndex) (slot : SheetSlot) (g : Gate) : Gate :=
  if (g.event e).pendingSheet.isSome then bumpEvent e .supersedes g
  else if g.clock.isSet && slot = .current then bumpEvent e .lateSheets g
  else g

/-- R64–R66: the sheet displaced from the slot is discarded and the new one takes it. -/
def placeSheet (e : EventIndex) (slot : SheetSlot) (sheet : Sheet) (g : Gate) : Gate :=
  modEvent e (Event.setSheet slot (some sheet)) (discardSheet e slot g)

/-- R67, R70: the delivery that the class of an accepted sheet calls for. -/
def deliver (e : EventIndex) (slot : SheetSlot) (cls : SheetClass) (g : Gate) : Gate :=
  match cls, slot with
  | .listedClass, _ => joinLeg e slot g
  | .openClass, .pending => setOpenLead e g
  | .openClass, .current => openOffer e .current g
  | .noClass, _ => g

/-- R50, R67: an acceptance returns a STALLED event to its resume phase. -/
def returnFromStall (e : EventIndex) (g : Gate) : Gate :=
  if (g.event e).phase = .stalled then changePhase e ((g.event e).resumePhase.getD .stalled) g else g

/-- R67: a sheet is accepted: placed, the starvation items reset, delivered by its class, and the event returned from
STALLED. -/
def acceptSheet (e : EventIndex) (number : SheetNumber) (effective : Time) (blob : List Byte) (g : Gate) : Gate :=
  let cls := (g.event e).phase.mode.sheetClass
  let slot := g.placeFor e effective
  let sheet : Sheet := { number := number, effective := effective, blob := blob, cls := cls, mark := false }
  let placed := placeSheet e slot sheet (countPlacement e slot (bumpEvent e .sheetsAccepted g))
  returnFromStall e (deliver e slot cls (modEvent e (Event.resetStarvation effective) placed))

/-- R62, R63: a cell that names its own event is a repeat, stale, refused as ORDER, or accepted. -/
def judgeSheet (e : EventIndex) (number : SheetNumber) (effective : Time) (blob : List Byte) (g : Gate) : Gate :=
  match (g.event e).newest with
  | some newest =>
    if number = newest.number then bumpEvent e .repeatSheets g
    else if number < newest.number then bumpEvent e .staleSheets g
    else if effective ≤ newest.effective then bumpEvent e .orderRefusals g
    else acceptSheet e number effective blob g
  | none =>
    if number = 0 then bumpEvent e .staleSheets g else acceptSheet e number effective blob g

/-- R61, Table 38: the Key Unit takes a key cell for the owner of its lane. The event number is tested first, for sheet number
0 too: a stray key. R16 would have sheet number 0 counted as stale with its event number not used; that the order of R61 and
Table 38 is followed is the model's choice (DESIGN CHOICE, log 37). A record that has become VACANT since the look-up owns no
lane, and the cell changes nothing (log 10); against a record that LOAD_EVENT has taken again since the look-up the cell is
judged like any other, which is the model's choice (DESIGN CHOICE, log 44). -/
def takeKey (e : EventIndex) (cell : List Byte) (g : Gate) : Gate :=
  if (g.event e).phase = .vacant then g
  else if halfAt cell 5 ≠ (g.event e).number ∨ (g.event e).phase = .retiring then
    bumpEvent e .strayKeys g
  else judgeSheet e (BitVec.ofNat 32 (natAt cell 7 4)) (timeAt cell 11) ((cell.drop 17).take 72) g

/-- R10, R61: the Key Unit takes the key cell handed to it; without one the step is not due (log 1). -/
def keyCell (g : Gate) : Gate :=
  match g.intake.handoff with
  | some (.key e cell) => takeKey e cell (clearHandoff g)
  | _ => g

/-- KEY_CELL (R61–R67). -/
def execKeyCell (s : State) : Host.Outcome State Fault Refusal :=
  s.onGate keyCell

/-! ## The instants of an event -/

/-- R60: the Key Unit's instants of one event, in the order in which equal times are taken. -/
inductive KeyInstant where
  | lead
  | promotion
  | starvation
  | openRepeat
  deriving DecidableEq, Repr

/-- R60: the time of an instant, if it is held. -/
def Event.instant (ev : Event) : KeyInstant → Option Time
  | .lead => ev.openLead
  | .promotion => ev.pendingSheet.map Sheet.effective
  | .starvation => ev.nextStarvation
  | .openRepeat => ev.openRepeat

/-- R60: the order at equal times. -/
def KeyInstant.rank : KeyInstant → Nat
  | .lead => 0
  | .promotion => 1
  | .starvation => 2
  | .openRepeat => 3

/-- R60: does an instant come after one of a given time and rank, or is it not held? -/
def Event.comesAfter (ev : Event) (t : Time) (rank : Nat) (other : KeyInstant) : Bool :=
  match ev.instant other with
  | none => true
  | some u => t < u || (t = u && rank ≤ other.rank)

/-- R23, R60: an instant of event e is due when it is reached and no other held instant of e comes before it
(log 13). -/
def Gate.instantDue (g : Gate) (e : EventIndex) (k : KeyInstant) : Bool :=
  match (g.event e).instant k with
  | none => false
  | some t =>
    g.reached t
      && [KeyInstant.lead, .promotion, .starvation, .openRepeat].all (fun other =>
        (g.event e).comesAfter t k.rank other)

/-- R69, R131: the pending sheet moves to the current slot, and its leg becomes the current sheet's leg. -/
def movePending (e : EventIndex) (g : Gate) : Gate :=
  let moved := modEvent e (fun ev => { ev with current := ev.pendingSheet, pendingSheet := none, openLead := none }) g
  setLeg e .pending none (setLeg e .current (g.leg e .pending) moved)

/-- R69, R73: a promoted OPEN sheet not yet offered is offered at the promotion, in PREVIEW alone (log 17). -/
def offerPromoted (e : EventIndex) (g : Gate) : Gate :=
  match g.sheet e .current with
  | some sheet =>
    if sheet.cls = .openClass ∧ sheet.mark = false ∧ (g.event e).phase = .preview then openOffer e .current g else g
  | none => g

/-- R69: the pending sheet of event e is promoted. -/
def promote (e : EventIndex) (g : Gate) : Gate :=
  offerPromoted e (bumpEvent e .promotions (movePending e (discardSheet e .current g)))

/-- R69: the promotion is taken when it is due. -/
def promotion (e : EventIndex) (g : Gate) : Gate :=
  if g.instantDue e .promotion then promote e g else g

/-- PROMOTION (R69). -/
def execPromotion (e : EventIndex) (s : State) : Host.Outcome State Fault Refusal :=
  s.onGate (promotion e)

/-- R70: the open lead instant is removed and the pending sheet's entries are offered. -/
def openLeadInstant (e : EventIndex) (g : Gate) : Gate :=
  if g.instantDue e .lead then openOffer e .pending (modEvent e (fun ev => { ev with openLead := none }) g) else g

/-- OPEN_LEAD_INSTANT (R70). -/
def execOpenLeadInstant (e : EventIndex) (s : State) : Host.Outcome State Fault Refusal :=
  s.onGate (openLeadInstant e)

/-- R71: a pending sheet of class OPEN with its mark set is offered again. -/
def reofferPending (e : EventIndex) (g : Gate) : Gate :=
  match g.sheet e .pending with
  | some sheet => if sheet.cls = .openClass ∧ sheet.mark = true then openOffer e .pending g else g
  | none => g

/-- R71: the open entries of the event's sheets are offered again and the next instant is set. -/
def openRepeat (e : EventIndex) (g : Gate) : Gate :=
  if g.instantDue e .openRepeat then setOpenRepeat e (reofferPending e (openOffer e .current g)) else g

/-- OPEN_REPEAT (R71). -/
def execOpenRepeat (e : EventIndex) (s : State) : Host.Outcome State Fault Refusal :=
  s.onGate (openRepeat e)

/-- R75: the starvation count rises by 1, holding at 65,535. -/
def starvationUp (count : Half) : Half :=
  if count = 65535 then count else count + 1

/-- R76: the stall threshold in use: the greater of the value set and the warn threshold plus 1. -/
def Settings.stallAt (settings : Settings) : Nat :=
  max settings.stallThreshold.toNat (settings.warnThreshold.toNat + 1)

/-- R75, Table 40: a count at or above the warn threshold posts KEY_LATE. -/
def warnStarvation (e : EventIndex) (g : Gate) : Gate :=
  let count := (g.event e).starvation
  if g.settings.warnThreshold.toNat ≤ count.toNat then
    post .keyLate (eventObject e) (field 2 count.toNat ++ lowTime g 4) g
  else g

/-- R76, R48: a count at or above the stall threshold takes a granting event to STALLED. -/
def stallStarved (e : EventIndex) (g : Gate) : Gate :=
  if (g.event e).phase.mode ≠ .noGrant ∧ g.settings.stallAt ≤ (g.event e).starvation.toNat then
    changePhase e .stalled g
  else g

/-- R75: does the count rise in a phase? -/
def Phase.starves (p : Phase) : Bool :=
  p.mode ≠ .noGrant || p = .stalled

/-- R75: the next starvation instant is advanced by E. -/
def Event.nextEpoch (ev : Event) : Event :=
  { ev with nextStarvation := ev.nextStarvation.map (fun t => timeAdd t (ev.epoch.toNat * 1000)) }

/-- R75, R76: the instant advances, and the count rises where the phase calls for it. -/
def starve (e : EventIndex) (g : Gate) : Gate :=
  let advanced := modEvent e Event.nextEpoch g
  if (g.event e).phase.starves then
    stallStarved e (warnStarvation e
      (modEvent e (fun ev => { ev with starvation := starvationUp ev.starvation }) advanced))
  else advanced

/-- R75: the starvation instant is taken when it is due. -/
def starvationInstant (e : EventIndex) (g : Gate) : Gate :=
  if g.instantDue e .starvation then starve e g else g

/-- STARVATION_INSTANT (R75). -/
def execStarvationInstant (e : EventIndex) (s : State) : Host.Outcome State Fault Refusal :=
  s.onGate (starvationInstant e)

end Sys2Proof.Machine
end

