-- ==== Sys2Proof/Machine/Management.lean ====
section
/-! DEFINITION. The Command Unit and the Return Output (chapter 10): MANAGEMENT_CELL, the beginning of a command and the
placing of its reply, UNKNOWN_COMMAND, RETURN_SLOT. -/

namespace Sys2Proof.Machine

/-! ## Taking command cells -/

/-- R170: is a management cell meant for this part? -/
def Gate.addressed (g : Gate) (cell : List Byte) : Bool :=
  byteAt cell 5 = g.unitAddress || byteAt cell 5 = 255

/-- R170: a management cell is ignored, joins the command queue, or is dropped at a full queue. -/
def takeManagement (cell : List Byte) (g : Gate) : Gate :=
  if g.addressed cell then
    if g.command.queue.length < Config.commandQueueSize then joinQueue cell (bump .commandsAccepted g)
    else bump .commandsDropped g
  else bump .commandsForOthers g

/-- R10, R170: the Command Unit takes the management cell handed to it; without one the step is not due (log 1). -/
def managementCell (g : Gate) : Gate :=
  match g.intake.handoff with
  | some (.management cell) => takeManagement cell (clearHandoff g)
  | _ => g

/-- MANAGEMENT_CELL (R170). -/
def execManagementCell (s : State) : Host.Outcome State Fault Refusal :=
  s.onGate managementCell

/-! ## Execution -/

/-- What a command ends with: its result, its reply body, and the part as it leaves it. -/
structure Answer where
  result : Result
  body : List Byte
  gate : Gate
  deriving DecidableEq, Repr

/-- R173: a refusal with body length 0, which changes nothing. -/
def refuse (r : Result) (g : Gate) : Answer where
  result := r
  body := []
  gate := g

/-- R172, R173: a reply is placed at the tail of the reply queue and the command counts as executed. -/
def placeReply (tag : Half) (code : Byte) (result : Result) (body : List Byte) (g : Gate) : Gate :=
  bump .commandsExecuted
    { g with command :=
      { g.command with
        replies := g.command.replies ++ [{ tag := tag, code := code, result := result, body := body }] } }

/-- R172: may a command begin? The one before it has placed its reply, and the reply queue holds fewer than 16. -/
def Gate.canBegin (g : Gate) : Bool :=
  g.command.work = .ready && g.command.replies.length < Config.replyQueueSize

/-- R16, R172: the command at the head of the queue begins if it may and if it satisfies p; a body length above 228 is
answered BAD_FORM, and otherwise the command is run. A step whose command is not at the head is not due (log 1). -/
def beginWhere (p : Request → Bool) (run : Request → Gate → Gate) (g : Gate) : Gate :=
  match g.command.queue with
  | [] => g
  | cell :: _ =>
    let request := requestOf cell
    if g.canBegin && p request then
      if 228 < request.length then placeReply request.tag request.code .badForm [] (leaveQueue g)
      else run request (leaveQueue g)
    else g

/-- R172: the command with a code begins. -/
def beginCommand (code : Byte) (run : Request → Gate → Gate) (g : Gate) : Gate :=
  beginWhere (fun request => request.code = code) run g

/-- R172: a command of one step: it is taken by its block and its reply is placed. -/
def executeCommand (code : Byte) (meaning : Request → Gate → Answer) (g : Gate) : Gate :=
  beginCommand code (fun request begun =>
    let answer := meaning request begun
    placeReply request.tag request.code answer.result answer.body answer.gate) g

/-- Table 77: the command codes. -/
def commandCodes : List Byte :=
  [0x10, 0x11, 0x12, 0x13, 0x14, 0x20, 0x21, 0x22, 0x23, 0x24, 0x25, 0x26, 0x27, 0x28, 0x29, 0x30, 0x31, 0x32, 0x33,
    0x34, 0x35, 0x36]

/-- R172: a command whose code Table 77 does not define is answered UNKNOWN_COMMAND, whatever its body length. -/
def unknownCommand (g : Gate) : Gate :=
  match g.command.queue with
  | [] => g
  | cell :: _ =>
    let request := requestOf cell
    if g.canBegin && !commandCodes.contains request.code then
      placeReply request.tag request.code .unknownCommand [] (leaveQueue g)
    else g

/-- UNKNOWN_COMMAND (R172). -/
def execUnknownCommand (s : State) : Host.Outcome State Fault Refusal :=
  s.onGate unknownCommand

/-! ## Return Output -/

/-- R11, R178: a cell leaves on the return output. -/
def sendReturn (cell : List Byte) (g : Gate) : Gate :=
  { g with output := { g.output with port := some cell } }

/-- R13: a reply or status cell carries the reply-lane continuity, which then advances. -/
def sendOnReplyLane (body : List Byte) (g : Gate) : Gate :=
  let sent := sendReturn (controlCell 4090 g.output.continuity body) g
  { sent with output := { sent.output with continuity := g.output.continuity + 1 } }

/-- R173, R178: the head reply leaves. -/
def sendReply (reply : Reply) (rest : List Reply) (g : Gate) : Gate :=
  bump .repliesSent
    (sendOnReplyLane (replyBody g.unitAddress g.command.busy reply)
      { g with command := { g.command with replies := rest } })

/-- R177, R178: a status cell takes the items of the up to 28 oldest keys, which leave the set. -/
def sendStatus (g : Gate) : Gate :=
  bump .statusCellsSent
    (sendOnReplyLane (statusBody g.unitAddress g.command.busy (g.command.status.take Config.statusItems))
      { g with command := { g.command with status := g.command.status.drop Config.statusItems } })

/-- R178: a return slot sends the head reply, otherwise a status cell, otherwise an idle cell; during the image load
it sends an idle cell. -/
def returnSlot (g : Gate) : Gate :=
  if g.loader.loading then sendReturn idleCell g
  else match g.command.replies with
    | reply :: rest => sendReply reply rest g
    | [] => if g.command.status = [] then sendReturn idleCell g else sendStatus g

/-- RETURN_SLOT (R178). -/
def execReturnSlot (s : State) : Host.Outcome State Fault Refusal :=
  s.onGate returnSlot

end Sys2Proof.Machine
end

