-- ==== Sys2Proof/Machine/Slots.lean ====
section
/-! DEFINITION. The Zone Output Units (chapter 9): lane actions, hold lines, the idle opportunity with its credit step
and arbiter, the emission of notices (R145, R146, R158), HOLD_MESSAGE and NOMINAL_SLOT. -/

namespace Sys2Proof.Machine

/-! ## Sending a cell -/

/-- The cell of a slot leaves on zone z (log 16). -/
def sendZone (z : ZoneIndex) (cell : List Byte) (g : Gate) : Gate :=
  modZone z (fun zone => { zone with port := some cell }) g

/-- R13, R158: a notice with the given body leaves on zone z with the zone's notice continuity, which advances. -/
def sendNotice (z : ZoneIndex) (body : List Byte) (g : Gate) : Gate :=
  modZone z (fun zone =>
    { zone with
      port := some (controlCell 4091 zone.noticeCount body)
      noticeCount := zone.noticeCount + 1 }) g

/-! ## Emission of notices -/

/-- R145, R146: effective time and blob of the sheet with a number as the Key Unit holds it. Every entry queued names
a held sheet (R145); for one that is not held they are free values (log 9). -/
def Event.materialOf (ev : Event) (number : SheetNumber) : Time × List Byte :=
  match ev.current with
  | some sheet =>
    if sheet.number = number then (sheet.effective, sheet.blob)
    else match ev.pendingSheet with
      | some next => if next.number = number then (next.effective, next.blob) else Config.unheldSheet number
      | none => Config.unheldSheet number
  | none => match ev.pendingSheet with
    | some next => if next.number = number then (next.effective, next.blob) else Config.unheldSheet number
    | none => Config.unheldSheet number

/-- R145: does an entry go into a listed notice for an event and a sheet? -/
def FreshEntry.packs (entry : FreshEntry) (e : EventIndex) (sheet : SheetNumber) : Bool :=
  entry.form = .listed && entry.event = e && entry.sheet = sheet

/-- R145: in queue order, the decoders of up to n entries that satisfy p, and the queue without those entries. -/
def packEntries (p : FreshEntry → Bool) : Nat → List FreshEntry → List Decoder × List FreshEntry
  | _, [] => ([], [])
  | 0, queue => ([], queue)
  | n + 1, entry :: rest =>
    if p entry then
      (entry.decoder :: (packEntries p n rest).1, (packEntries p n rest).2)
    else
      ((packEntries p (n + 1) rest).1, entry :: (packEntries p (n + 1) rest).2)

/-- R145: a listed notice is packed from zone z's fresh queue and sent. -/
def sendListed (z : ZoneIndex) (head : FreshEntry) (g : Gate) : Gate :=
  let packed := packEntries (fun entry => entry.packs head.event head.sheet) Config.noticeEntries (g.zone z).fresh
  let material := (g.event head.event).materialOf head.sheet
  let notice : Notice :=
    { event := head.event
      eventNumber := (g.event head.event).number
      sheet := head.sheet
      effective := material.1
      blob := material.2
      entries := packed.1 }
  sendNotice z (listedBody z notice)
    (modZone z (fun zone =>
      Zone.countBy .freshGrantsSent packed.1.length
        (Zone.countBy .listedNoticesSent 1 { zone with fresh := packed.2 })) g)

/-- R146: an open head entry is sent alone. -/
def sendOpen (z : ZoneIndex) (head : FreshEntry) (rest : List FreshEntry) (g : Gate) : Gate :=
  let material := (g.event head.event).materialOf head.sheet
  sendNotice z (openBody z (g.event head.event).number head.sheet material.1 material.2)
    (modZone z (fun zone => Zone.countBy .openNoticesSent 1 { zone with fresh := rest }) g)

/-- R158: the head cell of the sweep queue is sent and its buffer is freed. -/
def sendSweep (z : ZoneIndex) (head : Notice) (rest : List Notice) (g : Gate) : Gate :=
  sendNotice z (listedBody z head)
    (modZone z (fun zone => Zone.countBy .sweepNoticesSent 1 { zone with sweep := rest }) g)

/-- A notice taken from the fresh queue (R145, R146). -/
def sendFresh (z : ZoneIndex) (head : FreshEntry) (rest : List FreshEntry) (g : Gate) : Gate :=
  match head.form with
  | .listed => sendListed z head g
  | .openAll => sendOpen z head rest g

/-- R157: the arbiter draws from the sweep queue at turn count 7 where it holds a cell, else from the fresh queue, else
from the sweep queue. -/
def arbitrate (z : ZoneIndex) (g : Gate) : Gate :=
  match (g.zone z).sweep, (g.zone z).fresh with
  | notice :: rest, [] => sendSweep z notice rest g
  | notice :: rest, entry :: others =>
    if (g.zone z).turn = 7 then sendSweep z notice rest g else sendFresh z entry others g
  | [], entry :: others => sendFresh z entry others g
  | [], [] => g

/-! ## The idle opportunity -/

/-- R156: is a notice ready? -/
def Zone.ready (zone : Zone) : Bool :=
  !zone.fresh.isEmpty || !zone.sweep.isEmpty

/-- R156: the credit after the share is added. -/
def Zone.raisedCredit (zone : Zone) : Nat :=
  min (zone.credit.val + zone.share.toNat) 1023

/-- R161: the window count takes one more opportunity; above 4,294,967,295 the manual states no value (log 7). -/
def countWindow (z : ZoneIndex) (g : Gate) : Gate :=
  if (g.zone z).windowCount = BitVec.allOnes 32 then
    modZone z (fun zone => { zone with windowCount := Config.windowBeyond g.freeDraws })
      { g with freeDraws := g.freeDraws + 1 }
  else modZone z (fun zone => { zone with windowCount := zone.windowCount + 1 }) g

/-- R156: an idle cell is sent by an unheld opportunity. -/
def sendIdle (z : ZoneIndex) (g : Gate) : Gate :=
  sendZone z idleCell (modZone z (Zone.countBy .idleCellsSent 1) g)

/-- R156, R157: the credit step of an unheld opportunity: a notice, with the credit lowered and the turn advanced, or
an idle cell. -/
def creditStep (z : ZoneIndex) (g : Gate) : Gate :=
  let credit := (g.zone z).raisedCredit
  if 256 ≤ credit ∧ (g.zone z).ready = true then
    modZone z (fun zone =>
      { zone with credit := Fin.ofNat 1024 (credit - 256), turn := Fin.ofNat 8 (zone.turn.val + 1) })
      (arbitrate z g)
  else sendIdle z (modZone z (fun zone => { zone with credit := Fin.ofNat 1024 credit }) g)

/-- R155: a held opportunity. -/
def heldOpportunity (z : ZoneIndex) (g : Gate) : Gate :=
  sendZone z idleCell
    (modZone z (fun zone => Zone.countBy .heldOpportunities 1 { zone with hold := zone.hold - 1 }) g)

/-- R155, R156: one idle opportunity of zone z. -/
def idleOpportunity (z : ZoneIndex) (g : Gate) : Gate :=
  if (g.zone z).hold = 0 then creditStep z (countWindow z g) else heldOpportunity z g

/-! ## Lane actions -/

/-- R36: the row of the profile table for a phase. STALLED and RETIRING have none, nor has VACANT, which has no lane action
(3.3). -/
def ProfileTable.row (table : ProfileTable) : Phase → Option PhaseProfile
  | .onSale => some table.onSale
  | .preview => some table.preview
  | .live => some table.live
  | .extra => some table.extra
  | .windDown => some table.windDown
  | .closed => some table.closed
  | .stalled => none
  | .retiring => none
  | .vacant => none

/-- R36, R150: is the lane action of a phase PASS? STALLED and RETIRING always use BLANK. That a cell which a zone still holds
when its event has become VACANT is blanked too, as if the action were BLANK, is the model's choice: no rule gives VACANT a lane
action (DESIGN CHOICE, log 42). -/
def Gate.passes (g : Gate) (p : Phase) : Bool :=
  match g.settings.profile.row p with
  | some row => row.pass
  | none => false

/-- A cell leaves zone z unchanged (R150, R152). -/
def passCell (z : ZoneIndex) (cell : List Byte) (g : Gate) : Gate :=
  sendZone z cell (modZone z (Zone.countBy .cellsPassed 1) g)

/-- R150, R151: a blanked cell is counted, and its slot is an idle opportunity. -/
def blankCell (z : ZoneIndex) (g : Gate) : Gate :=
  idleOpportunity z (modZone z (Zone.countBy .cellsBlanked 1) g)

/-- R150: a content cell of event e on zone z: dark flag, lane action, mask, clear-leak guard. -/
def contentSlot (e : EventIndex) (cell : List Byte) (z : ZoneIndex) (g : Gate) : Gate :=
  if (g.zone z).dark then blankCell z g
  else if !g.passes (g.event e).phase then blankCell z g
  else if (g.event e).masks z then blankCell z g
  else if (g.event e).phase.mode = .listedGrant ∧ scrambled cell = false then
    blankCell z (modZone z (Zone.countBy .clearLeakBlanks 1) g)
  else passCell z cell g

/-- R151: the substitute of an alternate cell leaves zone z on the event's first content lane. -/
def substitute (e : EventIndex) (cell : List Byte) (z : ZoneIndex) (g : Gate) : Gate :=
  modZone z (fun zone =>
    Zone.countBy .substitutesSent 1
      { zone with
        port := some (relabelled cell (g.event e).firstLane zone.substitutes[e])
        substitutes := zone.substitutes.set e (zone.substitutes[e] + 1) }) g

/-- R151: an alternate cell of event e on zone z. -/
def alternateSlot (e : EventIndex) (cell : List Byte) (z : ZoneIndex) (g : Gate) : Gate :=
  if (g.zone z).dark = false ∧ g.passes (g.event e).phase = true ∧ (g.event e).masks z = true then
    substitute e cell z g
  else blankCell z g

/-! ## Slots of the zones -/

/-- R150–R152: zone z takes a slot, judged against the state as it stands at this step. -/
def takeSlot (slot : Slot) (z : ZoneIndex) (g : Gate) : Gate :=
  match slot with
  | .idle => idleOpportunity z g
  | .free cell => passCell z cell g
  | .content e cell => contentSlot e cell z g
  | .alternate e cell => alternateSlot e cell z g

/-- R5: what a slot that was held carries once it is taken: while Intake is SEARCHING or LOST no content, alternate or
free-lane cell is sent, and the slot is an idle opportunity. -/
def Gate.heldSlot (g : Gate) (slot : Slot) : Slot :=
  if g.intake.sync = .locked then slot else .idle

/-- R153: zone z, if it is behind, takes the slot it holds (log 25). -/
def catchUp (z : ZoneIndex) (g : Gate) : Gate :=
  match (g.zone z).slot with
  | some slot => takeSlot (g.heldSlot slot) z (modZone z (fun zone => { zone with slot := none }) g)
  | none => g

/-- R149, R153: a slot comes to zone z, which has taken the slot before it: it takes this one in the same step, or holds
it where it is named behind (log 25). -/
def reachZone (slot : Slot) (behind : BitVec 4) (z : ZoneIndex) (g : Gate) : Gate :=
  if behind.getLsbD z.val then modZone z (fun zone => { zone with slot := some slot }) (catchUp z g)
  else takeSlot slot z (catchUp z g)

/-- R149: a slot comes to every driven zone. -/
def giveSlot (slot : Slot) (behind : BitVec 4) (g : Gate) : Gate :=
  forDrivenZones (reachZone slot behind) g

/-! ## HOLD_MESSAGE and NOMINAL_SLOT -/

/-- R154: a hold message of a driven zone replaces the hold count, or is dropped and counted. -/
def holdMessage (z : ZoneIndex) (value : Option Half) (g : Gate) : Gate :=
  if g.driven z then
    match value with
    | some count => modZone z (fun zone => Zone.countBy .holdMessages 1 { zone with hold := count }) g
    | none => modZone z (Zone.countBy .holdLineErrors 1) g
  else g

/-- HOLD_MESSAGE (R154). -/
def execHoldMessage (z : ZoneIndex) (value : Option Half) (s : State) : Host.Outcome State Fault Refusal :=
  s.onGate (holdMessage z value)

/-- R5: the nominal slot clock gives every driven zone one slot: an idle cell during the image load, an idle
opportunity while the outputs run at nominal timing. At input timing the step is not due (log 15). -/
def nominalSlot (g : Gate) : Gate :=
  if g.loader.loading then forDrivenZones sendIdle g
  else if g.intake.nominalTiming then giveSlot .idle 0 g
  else g

/-- NOMINAL_SLOT (R5). -/
def execNominalSlot (s : State) : Host.Outcome State Fault Refusal :=
  s.onGate nominalSlot

end Sys2Proof.Machine
end

