-- ==== Sys2Proof/Machine/Input.lean ====
section
/-! DEFINITION. Intake (chapter 1): sync states (R1–R4), lane look-up and dispatch (R9), continuity and body checks of
control cells (R10, R12), INPUT_CELL and MISSING_CELL. -/

namespace Sys2Proof.Machine

/-! ## Sync states -/

/-- R2, R4: a good cell for lock: a good sync byte and a header that sums to 0. -/
def lockGood (cell : List Byte) : Bool :=
  byteAt cell 0 = syncByte && headerSumGood cell

/-- R2, R4: the good run reaches 4: Intake enters LOCKED and posts INPUT REGAINED. -/
def enterLocked (g : Gate) : Gate :=
  postInput 0x02 { g with intake := { g.intake with sync := .locked, goodRun := 4, badRun := 0 } }

/-- R2, R4: a framed cell while SEARCHING or LOST. -/
def huntCell (cell : List Byte) (g : Gate) : Gate :=
  if lockGood cell then
    if g.intake.goodRun.val + 1 < 4 then
      { g with intake := { g.intake with goodRun := Fin.ofNat 5 (g.intake.goodRun.val + 1) } }
    else enterLocked g
  else { g with intake := { g.intake with goodRun := 0 } }

/-- R3: the bad-sync run reaches 3: Intake enters LOST, counts a lock loss and posts INPUT LOST; the zone outputs run
on the nominal slot clock. -/
def enterLost (g : Gate) : Gate :=
  postInput 0x01
    (bump .lockLosses
      { g with intake := { g.intake with sync := .lost, goodRun := 0, badRun := 3, nominalTiming := true } })

/-- R1, R3: a bad-sync cell or a missing cell adds 1 to the bad-sync run. -/
def badSync (g : Gate) : Gate :=
  if g.intake.badRun.val + 1 < 3 then
    { g with intake := { g.intake with badRun := Fin.ofNat 4 (g.intake.badRun.val + 1) } }
  else enterLost g

/-! ## Control cells -/

/-- R9: the four kinds of control cell at the input. -/
inductive ControlKind where
  | time
  | cue
  | management
  | key (owner : EventIndex)
  deriving DecidableEq, Repr

/-- R12: the continuity reference of a kind. -/
def Intake.reference (intake : Intake) : ControlKind → Option Byte
  | .time => intake.timeRef
  | .cue => intake.cueRef
  | .management => intake.managementRef
  | .key e => intake.keyRefs[e]

/-- R12: the reference of a kind takes a continuity value. -/
def Intake.setReference (value : Byte) (intake : Intake) : ControlKind → Intake
  | .time => { intake with timeRef := some value }
  | .cue => { intake with cueRef := some value }
  | .management => { intake with managementRef := some value }
  | .key e => { intake with keyRefs := intake.keyRefs.set e (some value) }

/-- Table 9: the continuity-gap counter of a kind. -/
def ControlKind.gapCounter : ControlKind → PartCounter
  | .time => .timeGaps
  | .cue => .cueGaps
  | .management => .managementGaps
  | .key _ => .keyGaps

/-- Table 9: the body-error counter of a kind. -/
def ControlKind.bodyCounter : ControlKind → PartCounter
  | .time => .timeBodyErrors
  | .cue => .cueBodyErrors
  | .management => .managementBodyErrors
  | .key _ => .keyBodyErrors

/-- R10: the hand-over of a cell to the unit of its kind. -/
def ControlKind.handoff (cell : List Byte) : ControlKind → Handoff
  | .time => .time cell
  | .cue => .cue cell
  | .management => .management cell
  | .key e => .key e cell

/-- R12: a present reference that is not one less than the cell's continuity, modulo 256, is a gap. -/
def isGap (reference : Option Byte) (continuity : Byte) : Bool :=
  match reference with
  | some value => continuity ≠ value + 1
  | none => false

/-- R12: the continuity check of a control cell; the reference takes the cell's value in every case. -/
def checkContinuity (kind : ControlKind) (cell : List Byte) (g : Gate) : Gate :=
  let counted := if isGap (g.intake.reference kind) (continuityOf cell) then bump kind.gapCounter g else g
  { counted with intake := counted.intake.setReference (continuityOf cell) kind }

/-- R10: the body check of a control cell: an error is counted and the cell dropped, a good cell is handed over. -/
def checkBody (kind : ControlKind) (cell : List Byte) (g : Gate) : Gate :=
  if bodyGood cell then { g with intake := { g.intake with handoff := some (kind.handoff cell) } }
  else bump kind.bodyCounter g

/-- R9, R10, R12: a control cell; its slot is an idle opportunity on every zone. -/
def controlSlot (kind : ControlKind) (cell : List Byte) (behind : BitVec 4) (g : Gate) : Gate :=
  giveSlot .idle behind (checkBody kind cell (checkContinuity kind cell g))

/-- R10: a control cell handed over earlier reaches its unit before the next input cell is looked up (log 10). -/
def deliverWaiting (g : Gate) : Gate :=
  match g.intake.handoff with
  | some (.time _) => timeCell g
  | some (.cue _) => cueCell g
  | some (.management _) => managementCell g
  | some (.key _ _) => keyCell g
  | none => g

/-! ## Look-up and dispatch -/

/-- R9, Table 8: the dispatch of a cell on a reserved lane, 4080–4095. -/
def reservedSlot (cell : List Byte) (behind : BitVec 4) (g : Gate) : Gate :=
  if laneOf cell = 4092 then controlSlot .time cell behind g
  else if laneOf cell = 4093 then controlSlot .cue cell behind g
  else if laneOf cell = 4094 then controlSlot .management cell behind g
  else if laneOf cell = 4095 then giveSlot .idle behind g
  else giveSlot .idle behind (bump .reservedLaneCells g)

/-- R9, Table 8: a cell that passed R1 is looked up by its lane and dispatched. -/
def dispatchCell (cell : List Byte) (behind : BitVec 4) (g : Gate) : Gate :=
  match g.laneKind (laneOf cell) with
  | .reserved => reservedSlot cell behind g
  | .free => giveSlot (.free cell) behind g
  | .content e => giveSlot (.content e cell) behind g
  | .alternate e => giveSlot (.alternate e cell) behind g
  | .key e => controlSlot (.key e) cell behind g

/-- R4, R9, R10: a cell that passed R1 is delivered: a waiting control cell reaches its unit, output slot timing is by
input cell slots, and the cell is looked up. -/
def deliverCell (cell : List Byte) (behind : BitVec 4) (g : Gate) : Gate :=
  let ready := deliverWaiting g
  dispatchCell cell behind { ready with intake := { ready.intake with nominalTiming := false } }

/-- R1, R3: a framed cell while LOCKED. The slot of a bad-sync cell comes to the zones before a loss of lock, so that a zone
that is behind takes the slot before it as that cell left it. -/
def lockedCell (cell : List Byte) (behind : BitVec 4) (g : Gate) : Gate :=
  if byteAt cell 0 ≠ syncByte then badSync (giveSlot .idle behind (bump .syncErrors g))
  else
    let synced := { g with intake := { g.intake with badRun := 0 } }
    if headerGood cell then deliverCell cell behind synced
    else giveSlot .idle behind (bump .headerErrors synced)

/-- R1, R2, R14: a framed input cell; during the image load it is ignored. -/
def inputCell (cell : List Byte) (behind : BitVec 4) (g : Gate) : Gate :=
  if g.loader.loading then g
  else match g.intake.sync with
    | .locked => lockedCell cell behind (bump .cellsReceived g)
    | .searching => huntCell cell (bump .cellsReceived g)
    | .lost => huntCell cell (bump .cellsReceived g)

/-- R153: a driven zone that is behind takes the slot it holds; with none held the step is not due (log 25). -/
def slotTaken (z : ZoneIndex) (g : Gate) : Gate :=
  if g.driven z then catchUp z g else g

/-- R1, R153: the two steps of an input cell. -/
def cellStep (step : CellStep) (g : Gate) : Gate :=
  match step with
  | .arrives cell behind => inputCell cell behind g
  | .taken z => slotTaken z g

/-- INPUT_CELL (R1, R153). -/
def execInputCell (step : CellStep) (s : State) : Host.Outcome State Fault Refusal :=
  s.onGate (cellStep step)

/-- R3: a missing cell while LOCKED; in the other sync states none is declared (R4). -/
def missingCell (g : Gate) : Gate :=
  if g.loader.loading then g
  else match g.intake.sync with
    | .locked => badSync (giveSlot .idle 0 (bump .missingCells g))
    | .searching => g
    | .lost => g

/-- MISSING_CELL (R3). -/
def execMissingCell (s : State) : Host.Outcome State Fault Refusal :=
  s.onGate missingCell

end Sys2Proof.Machine
end

