-- ==== Sys2Proof/Machine/Sweep.lean ====
section
/-! DEFINITION. The Sweep Walker (chapter 7): SWEEP_VISIT with its moves, placements and lap ends, the rotation in which
the Table Engine grants the table (R85), and LEG_LATE. -/

namespace Sys2Proof.Machine

/-! ## Moves (R127) -/

/-- R127: the notice built from a leg's entries on one zone. -/
def Gate.noticeFor (g : Gate) (e : EventIndex) (leg : Leg) (entries : List Decoder) : Notice :=
  let material := (g.event e).materialOf leg.sheet
  { event := e
    eventNumber := (g.event e).number
    sheet := leg.sheet
    effective := material.1
    blob := material.2
    entries := entries }

/-- R127: the leg after its cell of zone z has moved: the cell is empty, and a first-lap leg counts the entries. -/
def Leg.moved (z : ZoneIndex) (leg : Leg) : Leg :=
  { leg with
    cells := leg.cells.set z []
    emitted := if leg.firstLap then leg.emitted.set z (leg.emitted[z] + leg.cells[z].length) else leg.emitted }

/-- R127: a leg's assembly cell of zone z moves to the tail of the zone's sweep queue; an empty cell moves nothing. -/
def moveCell (e : EventIndex) (slot : SheetSlot) (z : ZoneIndex) (g : Gate) : Gate :=
  match g.leg e slot with
  | none => g
  | some leg =>
    if leg.cells[z] = [] then g
    else
      modZone z (fun zone =>
        Zone.countBy .sweepCellsBuilt 1 { zone with sweep := zone.sweep ++ [g.noticeFor e leg leg.cells[z]] })
        (setLeg e slot (some (leg.moved z)) g)

/-- R129: a leg's open cells move, zone 0 to 3. -/
def moveCells (e : EventIndex) (slot : SheetSlot) (g : Gate) : Gate :=
  allZones.foldl (fun acc z => moveCell e slot z acc) g

/-- R129: an owed flush, and its mark is cleared. -/
def flushOwed (r : EventIndex × SheetSlot) (g : Gate) : Gate :=
  match g.leg r.1 r.2 with
  | none => g
  | some leg =>
    if leg.owesFlush then
      let flushed := moveCells r.1 r.2 g
      setLeg r.1 r.2 ((flushed.leg r.1 r.2).map (fun l => { l with owesFlush := false })) flushed
    else g

/-! ## Placements (R122) -/

/-- R122, R135: a decoder is placed at the end of a leg's cell for the record's zone; a late first-lap leg counts a
late grant; a cell that reaches 48 moves at once. -/
def place (r : EventIndex × SheetSlot) (h : Holder) (leg : Leg) (g : Gate) : Gate :=
  let placed := setLeg r.1 r.2
    (some { leg with cells := leg.cells.set h.zone (leg.cells[h.zone] ++ [h.decoder]) }) g
  let counted := if leg.firstLap && leg.late then modZone h.zone (Zone.countBy .lateGrants 1) placed else placed
  if leg.cells[h.zone].length + 1 = Config.noticeEntries then moveCell r.1 r.2 h.zone counted else counted

/-- R122: one record and one leg: placed where the leg is WALKING and the record grant-eligible. -/
def placeFor (h : Holder) (r : EventIndex × SheetSlot) (g : Gate) : Gate :=
  match g.leg r.1 r.2 with
  | none => g
  | some leg => if leg.walking && grantEligible h r.1 (g.event r.1) then place r h leg g else g

/-- R122: one record, every leg in roster order. -/
def placeRecord (h : Holder) (g : Gate) : Gate :=
  rosterOrder.foldl (fun acc r => placeFor h r acc) g

/-- R122: the records of the bucket at the cursor, in way order. -/
def placeBucket (g : Gate) : Gate :=
  (bucketRecords g.walker.cursor g).foldl (fun acc entry => placeRecord entry.2 acc) g

/-! ## Lap ends (R123) -/

/-- R122: a WALKING leg's remaining count falls by 1. -/
def Leg.step (leg : Leg) : Leg :=
  if leg.walking then { leg with remaining := Fin.ofNat 8193 (leg.remaining.val - 1) } else leg

/-- R123: has the leg's lap ended? -/
def Leg.lapEnded (leg : Leg) : Bool :=
  leg.walking && leg.remaining = 0

/-- R129: the lap-end flush of a leg. -/
def flushLapEnd (r : EventIndex × SheetSlot) (g : Gate) : Gate :=
  match g.leg r.1 r.2 with
  | none => g
  | some leg => if leg.lapEnded then moveCells r.1 r.2 g else g

/-- R121: the next bucket. -/
def nextBucket (b : Bucket) : Bucket :=
  Fin.ofNat 8192 (b.val + 1)

/-- R123, R124, R134: the end of a leg's lap. It waits while another first-lap leg walks; otherwise it begins its next
lap, and with the last first lap every WAITING leg resumes. -/
def endLap (r : EventIndex × SheetSlot) (g : Gate) : Gate :=
  match g.leg r.1 r.2 with
  | none => g
  | some leg =>
    if leg.lapEnded then
      let ended : Leg := { leg with walking := false, deadline := none }
      let waiting := setLeg r.1 r.2 (some ended) (bumpEvent r.1 .lapsCompleted g)
      if waiting.hasFirstLap then waiting
      else if leg.firstLap then resumeWaiting waiting
      else setLeg r.1 r.2 (some (ended.resume waiting.walker.cursor)) waiting
    else g

/-! ## The visit -/

/-- R122, R129: the visit of the bucket at the cursor: owed flushes, records, lap-end flushes, the cursor's advance and
the lap ends, each in roster order. -/
def visitBucket (g : Gate) : Gate :=
  let flushed := rosterOrder.foldl (fun acc r => flushOwed r acc) g
  let stepped := mapLegs Leg.step (placeBucket flushed)
  let moved := rosterOrder.foldl (fun acc r => flushLapEnd r acc) stepped
  rosterOrder.foldl (fun acc r => endLap r acc)
    { moved with walker := { moved.walker with cursor := nextBucket moved.walker.cursor } }

/-- R128: the buffer test, on the queues as the visit would leave them: no sweep queue above 160 cells, and no more
buffers taken than the pool holds. -/
def Gate.fits (g : Gate) : Bool :=
  allZones.all (fun z => (g.zone z).sweep.length ≤ Config.sweepQueueSize) && g.buffersHeld ≤ Config.poolSize

/-- R128: the walker parks; each entry into the parked state counts once. -/
def park (g : Gate) : Gate :=
  if g.walker.parked then g
  else bump .walkerParks { g with walker := { g.walker with parked := true } }

/-! ## The rotation of the table (R85) -/

/-- R95–R98, R110–R116: the codes of the commands on holder records, which the Table Engine takes in one step each; a
PURCHASE waits for it with its items (R103). -/
def tableCodes : List Byte :=
  [0x21, 0x22, 0x23, 0x24, 0x25, 0x26, 0x27, 0x28, 0x29]

/-- R85: a command's step waits for the table: an item of the PURCHASE that is executing, or the command at the head of
the queue, which may begin and is one on holder records that the Command Unit hands over (R172). -/
def Gate.commandWaits (g : Gate) : Bool :=
  match g.command.work with
  | .purchasing _ (_ :: _) _ => true
  | .ready => g.canBegin && match g.command.queue with
    | [] => false
    | cell :: _ => tableCodes.contains (requestOf cell).code && (requestOf cell).length ≤ 228
  | _ => false

/-- R85: a kind of step waits for the table. The Sweep Walker waits with a WALKING leg whose visit the buffer test lets
it make; a visit that the test refuses takes no step of the table (log 24). -/
def Gate.waits (g : Gate) : TableUser → Bool
  | .command => g.commandWaits
  | .sweepWalker => g.anyLeg Leg.walking && (visitBucket g).fits
  | .maintenanceWalker => !g.upkeep.tasks.isEmpty

/-- R85: the rotation of the three kinds (log 24). -/
def nextUser : TableUser → TableUser
  | .command => .sweepWalker
  | .sweepWalker => .maintenanceWalker
  | .maintenanceWalker => .command

/-- R85: the kind of step to which the table is granted next: after the kind served last, in rotation, passing over a
kind with nothing waiting. -/
def Gate.turn (g : Gate) : Option TableUser :=
  let first := nextUser g.upkeep.lastGrant
  let second := nextUser first
  if g.waits first then some first
  else if g.waits second then some second
  else if g.waits g.upkeep.lastGrant then some g.upkeep.lastGrant
  else none

/-- R121, R128: the walker's next step: it holds with no WALKING leg, makes the visit where the buffer test passes and the
table is granted to it (R85; out of turn the step is not due: log 24), and parks where the test fails. -/
def sweepVisit (g : Gate) : Gate :=
  if g.anyLeg Leg.walking then
    let visited := visitBucket g
    if !visited.fits then park g
    else if g.turn = some .sweepWalker then
      granted .sweepWalker { visited with walker := { visited.walker with parked := false } }
    else g
  else g

/-- SWEEP_VISIT (R122). -/
def execSweepVisit (s : State) : Host.Outcome State Fault Refusal :=
  s.onGate sweepVisit

/-! ## LEG_LATE (R134) -/

/-- R23: no leg of the roster holds a lateness deadline before t (log 13). -/
def Gate.noEarlierLeg (g : Gate) (t : Time) : Bool :=
  !g.anyLeg (fun leg => match leg.deadline with
    | some u => u < t
    | none => false)

/-- R134: the lateness deadline of a leg has been reached; otherwise the step is not due. -/
def legLate (e : EventIndex) (slot : SheetSlot) (g : Gate) : Gate :=
  match g.leg e slot with
  | none => g
  | some leg =>
    match leg.deadline with
    | none => g
    | some t => if g.reached t && g.noEarlierLeg t then makeLate e slot leg g else g

/-- LEG_LATE (R134). -/
def execLegLate (e : EventIndex) (slot : SheetSlot) (s : State) : Host.Outcome State Fault Refusal :=
  s.onGate (legLate e slot)

end Sys2Proof.Machine
end

