-- ==== Sys2Proof/Machine/Maintenance.lean ====
section
/-! DEFINITION. The maintenance walker (R87–R94): the maintenance list, MAINTENANCE_VISIT with the three walks and their
ends, and AGE_INSTANT. -/

namespace Sys2Proof.Machine

/-! ## The maintenance list (R87) -/

/-- R88, R90, R92: a walk begins at bucket 0 with empty shadow counts. That they are emptied for a walk that carries no recount
too is the model's choice (DESIGN CHOICE, log 43). -/
def beginWalk (g : Gate) : Gate :=
  { g with upkeep := { g.upkeep with cursor := 0, shadow := Vector.replicate 4 0 } }

/-- R87: write the list; where the head changes, the new head's walk begins. -/
def setTasks (tasks : List Task) (g : Gate) : Gate :=
  let written := { g with upkeep := { g.upkeep with tasks := tasks } }
  if tasks.head? = g.upkeep.tasks.head? then written else beginWalk written

/-- R87: a RECOUNT(e) is merged into a queued one, restarts a running one, or is added at the tail. -/
def queueRecount (e : EventIndex) (g : Gate) : Gate :=
  if g.upkeep.tasks.head? = some (.recount e) then beginWalk g
  else if .recount e ∈ g.upkeep.tasks then g
  else setTasks (g.upkeep.tasks ++ [.recount e]) g

/-- R87, R92: a RETIRE(e) takes the place of a queued or running RECOUNT(e) and carries it, or is added at the tail. -/
def queueRetire (e : EventIndex) (g : Gate) : Gate :=
  if .recount e ∈ g.upkeep.tasks then
    setTasks (g.upkeep.tasks.map (fun task => if task = .recount e then .retire e true else task)) g
  else setTasks (g.upkeep.tasks ++ [.retire e false]) g

/-- R87: an AGE_SCAN is merged into one in the list, or is added at the tail. -/
def queueAgeScan (g : Gate) : Gate :=
  if .ageScan ∈ g.upkeep.tasks then g else setTasks (g.upkeep.tasks ++ [.ageScan]) g

/-! ## Visits -/

/-- Index e is cleared from a set. -/
def clearIndex (e : EventIndex) (set : EventSet) : EventSet :=
  set &&& ~~~(1#24 <<< e.val)

/-- Index e is added to a set. -/
def addIndex (e : EventIndex) (set : EventSet) : EventSet :=
  set ||| (1#24 <<< e.val)

/-- R89: index e is cleared from all three sets of a record. -/
def Holder.forget (e : EventIndex) (h : Holder) : Holder :=
  { h with bought := clearIndex e h.bought, grants := clearIndex e h.grants, denies := clearIndex e h.denies }

/-- R89: a RETIRE(e) visit of one record; a record that holds e in none of its sets is left untouched. -/
def retireRecord (e : EventIndex) (key : Nat) (h : Holder) (g : Gate) : Gate :=
  if h.forget e = h then g else changeRecord key (some h) (some (h.forget e)) g

/-- R90: a RECOUNT(e) visit of one record. -/
def recountRecord (e : EventIndex) (h : Holder) (g : Gate) : Gate :=
  if eligible h e (g.event e) then shiftShadow h.zone true g else g

/-- R94: the three sets of a record are empty. -/
def Holder.holdsNothing (h : Holder) : Bool :=
  h.bought = 0 && h.grants = 0 && h.denies = 0

/-- R94: an AGE_SCAN visit of one record. -/
def ageRecord (key : Nat) (h : Holder) (g : Gate) : Gate :=
  if h.isStatic || h.barred then g
  else if h.holdsNothing then
    if h.ageMark then changeRecord key (some h) (some { h with ageMark := false }) g
    else bump .recordsAgedOut (changeRecord key (some h) none g)
  else if h.ageMark then g
  else changeRecord key (some h) (some { h with ageMark := true }) g

/-- R88: the task is applied to one record. -/
def Task.applyTo (task : Task) (key : Nat) (h : Holder) (g : Gate) : Gate :=
  match task with
  | .retire e _ => retireRecord e key h g
  | .recount e => recountRecord e h g
  | .ageScan => ageRecord key h g

/-! ## Ends of walks -/

/-- R8, R56, R60, R92: event e becomes VACANT: its lanes are released, its key-lane reference becomes absent, its
record takes its VACANT values, and PHASE from RETIRING to VACANT is posted. -/
def becomeVacant (e : EventIndex) (g : Gate) : Gate :=
  let released := releaseLanes e g
  let cleared := { released with
    intake := { released.intake with keyRefs := released.intake.keyRefs.set e none } }
  postPhase e (g.event e).phase.number Phase.vacant.number (cleared.setEvent e Event.vacant)

/-- Table 47: the sum of the four counts. -/
def countSum (counts : Vector ZoneCount 4) : Nat :=
  (allZones.map (fun z => (counts[z]).val)).sum

/-- R91: the shadow counts replace the live counts, the flag is cleared, and RECOUNT_DONE is posted and counted. -/
def finishRecount (e : EventIndex) (g : Gate) : Gate :=
  post .recountDone (eventObject e) (field 2 (countSum g.upkeep.shadow) ++ lowTime g 4)
    (bump .recountsCompleted
      (modEvent e (fun ev => { ev with counts := g.upkeep.shadow, recountFlag := false }) g))

/-- Table 46: the end of a task. -/
def Task.finish (task : Task) (g : Gate) : Gate :=
  match task with
  | .retire e _ => becomeVacant e g
  | .recount e => finishRecount e g
  | .ageScan => g

/-- R88: the visit of a bucket: its records in way order, then the cursor. -/
def visitRecords (task : Task) (g : Gate) : Gate :=
  let b := Fin.ofNat 8192 g.upkeep.cursor.val
  let done := (bucketRecords b g).foldl (fun acc entry => task.applyTo entry.1 entry.2 acc) g
  { done with upkeep := { done.upkeep with cursor := Fin.ofNat 8193 (g.upkeep.cursor.val + 1) } }

/-- R88: after bucket 8,191 the task ends and is removed, and the next begins at bucket 0. -/
def endWalk (task : Task) (rest : List Task) (g : Gate) : Gate :=
  let finished := task.finish g
  match rest with
  | [] => { finished with upkeep := { finished.upkeep with tasks := [] } }
  | next :: others => beginWalk { finished with upkeep := { finished.upkeep with tasks := next :: others } }

/-- R88: the next visit of the walk of the task at the head of the list. -/
def makeVisit (task : Task) (rest : List Task) (g : Gate) : Gate :=
  let visited := granted .maintenanceWalker (visitRecords task g)
  if visited.upkeep.cursor = 8192 then endWalk task rest visited else visited

/-- R85, R88: the maintenance walker's next visit, where the table is granted to it; with an empty list, or out of turn, the
step is not due (log 24). -/
def maintenanceVisit (g : Gate) : Gate :=
  match g.upkeep.tasks with
  | [] => g
  | task :: rest => if g.turn = some .maintenanceWalker then makeVisit task rest g else g

/-- MAINTENANCE_VISIT (R88). -/
def execMaintenanceVisit (s : State) : Host.Outcome State Fault Refusal :=
  s.onGate maintenanceVisit

/-! ## AGE_INSTANT -/

/-- R93: the age instant queues an AGE_SCAN and the next is set from the site time of that moment; not reached, the
step is not due. -/
def ageInstant (g : Gate) : Gate :=
  if g.reached g.upkeep.ageInstant then
    let queued := queueAgeScan g
    { queued with
      upkeep := { queued.upkeep with ageInstant := timeAddMinutes g.clock.siteTime g.settings.agingPeriod.toNat } }
  else g

/-- AGE_INSTANT (R93). -/
def execAgeInstant (s : State) : Host.Outcome State Fault Refusal :=
  s.onGate ageInstant

end Sys2Proof.Machine
end

