-- ==== Sys2Proof/Machine/EventCommands.lean ====
section
/-! DEFINITION. The commands on event records (chapter 3): LOAD_EVENT with the lane claim (R7, R34, R35), AMEND_EVENT
(R52–R54), STEER_EVENT (R51), RETIRE_EVENT (R55) and READ_EVENT (R57, Table 28). -/

namespace Sys2Proof.Machine

/-! ## Field ranges shared by LOAD_EVENT and AMEND_EVENT (R34, R52) -/

/-- R34: a zone blackout mask names strapped zones only, and its bits 4–7 are clear. -/
def Gate.maskInRange (g : Gate) (mask : Byte) : Bool :=
  mask.toNat < 2 ^ g.zoneCount

/-- R34: a range's low code does not exceed its high code. -/
def rangesInRange (ranges : List Range) : Bool :=
  ranges.all (fun range => range.low ≤ range.high)

/-- R34: a cutoff offset of 241–254 is out of range. -/
def cutoffInRange (cutoff : Byte) : Bool :=
  cutoff.toNat ≤ 240 || cutoff = 255

/-- A value brought into a range (R34, R166, R174). -/
def clamp (low high v : Nat) : Nat :=
  max low (min v high)

/-- R34: a grace of 0 is stored as 1 and one above 240 as 240. -/
def clampGrace (grace : Byte) : Byte :=
  BitVec.ofNat 8 (clamp 1 240 grace.toNat)

/-- R34: an epoch length below 10 s is stored as 10 s and one above 600 s as 600 s. -/
def clampEpoch (epoch : Half) : Half :=
  BitVec.ofNat 16 (clamp 10 600 epoch.toNat)

/-! ## LOAD_EVENT -/

/-- R34: the fields of a LOAD_EVENT body. -/
structure LoadFields where
  number : Half
  lanes : List Half
  keyLane : Half
  alternate : Option Half
  mask : Byte
  ranges : List Range
  epoch : Half
  preview : Byte
  start : Option Time
  cutoff : Byte
  extraLimit : Byte
  grace : Byte
  deriving DecidableEq, Repr

/-- R34: the fields in body order. -/
def loadFields (body : List Byte) : LoadFields :=
  let n := (byteAt body 2).toNat
  let m := (byteAt body 3).toNat
  let lanesEnd := 4 + 2 * n
  let rangesEnd := lanesEnd + 5 + 4 * m
  { number := halfAt body 0
    lanes := halvesAt body 4 n
    keyLane := halfAt body lanesEnd
    alternate := if halfAt body (lanesEnd + 2) = 0xFFFF then none else some (halfAt body (lanesEnd + 2))
    mask := byteAt body (lanesEnd + 4)
    ranges := rangesAt body (lanesEnd + 5) m
    epoch := halfAt body rangesEnd
    preview := byteAt body (rangesEnd + 2)
    start := optionalTimeAt body (rangesEnd + 3)
    cutoff := byteAt body (rangesEnd + 9)
    extraLimit := byteAt body (rangesEnd + 10)
    grace := byteAt body (rangesEnd + 11) }

/-- R34, first step: the form of a LOAD_EVENT body. -/
def loadFormGood (request : Request) : Bool :=
  4 ≤ request.length
    && request.length = 21 + 2 * (byteAt request.body 2).toNat + 4 * (byteAt request.body 3).toNat

/-- R7, R34: every lane a LOAD names. -/
def LoadFields.named (f : LoadFields) : List Half :=
  f.lanes ++ [f.keyLane] ++ f.alternate.toList

/-- R34, second step: field ranges. -/
def Gate.loadInRange (g : Gate) (f : LoadFields) : Bool :=
  1 ≤ f.lanes.length && f.lanes.length ≤ 6 && f.ranges.length ≤ 8
    && f.named.all (fun lane => lane.toNat ≤ 4095)
    && g.maskInRange f.mask && rangesInRange f.ranges
    && f.preview.toNat ≤ 120 && cutoffInRange f.cutoff && f.extraLimit.toNat ≤ 120

/-- R34, third step: identity. -/
def Gate.loadIdentity (g : Gate) (number : Half) : Option Result :=
  match g.findEvent number with
  | some e => if (g.event e).phase = .retiring then some .busy else some .duplicateEvent
  | none => none

/-- R34, R35: the lowest VACANT index. -/
def Gate.vacantIndex (g : Gate) : Option EventIndex :=
  allEvents.find? (fun e => (g.event e).phase = .vacant)

/-- A lane number of 0–4,095 as a lane. -/
def laneOfHalf (lane : Half) : Lane :=
  lane.setWidth 12

/-- R7: every lane named is FREE and none is named twice. -/
def Gate.claimable (g : Gate) (named : List Half) : Bool :=
  named.all (fun lane => g.laneKind (laneOfHalf lane) = .free) && named.Nodup

/-- R7: one lane entry takes a kind. -/
def claimLane (claim : LaneClaim) (lane : Half) (g : Gate) : Gate :=
  { g with lanes := Sparse.set g.lanes (laneOfHalf lane).toNat claim }

/-- R7: every named entry changes at once, and the key-lane continuity reference of e becomes absent. -/
def claimLanes (e : EventIndex) (f : LoadFields) (g : Gate) : Gate :=
  let content := f.lanes.foldl (fun acc lane => claimLane (.content e) lane acc) g
  let key := claimLane (.key e) f.keyLane content
  let all := f.alternate.toList.foldl (fun acc lane => claimLane (.alternate e) lane acc) key
  { all with intake := { all.intake with keyRefs := all.intake.keyRefs.set e none } }

/-- R35, Table 28: the record as a LOAD takes it. -/
def LoadFields.record (f : LoadFields) (now : Time) : Event :=
  { Event.vacant with
    number := f.number
    phase := .onSale
    firstLane := laneOfHalf (f.lanes.headD 0)
    moreLanes := f.lanes.tail.map laneOfHalf
    keyLane := laneOfHalf f.keyLane
    alternateLane := f.alternate.map laneOfHalf
    mask := f.mask.setWidth 4
    ranges := f.ranges
    epoch := clampEpoch f.epoch
    previewLength := f.preview
    scheduledStart := f.start
    cutoff := f.cutoff
    extraLimit := f.extraLimit
    grace := clampGrace f.grace
    currentEntry := now
    previousPhase := some .vacant
    deadline := f.start }

/-- R13: the substitute counters for e are set to 0 on every zone. -/
def clearSubstitutes (e : EventIndex) (g : Gate) : Gate :=
  allZones.foldl
    (fun acc z => modZone z (fun zone => { zone with substitutes := zone.substitutes.set e 0 }) acc) g

/-- R35: the record takes the lowest VACANT index in one step. -/
def takeRecord (e : EventIndex) (f : LoadFields) (g : Gate) : Gate :=
  postPhase e Phase.vacant.number Phase.onSale.number
    (clearSubstitutes e ((claimLanes e f g).setEvent e (f.record g.clock.siteTime)))

/-- R34, R35: LOAD_EVENT, checked in five steps. -/
def loadEvent (request : Request) (g : Gate) : Answer :=
  let f := loadFields request.body
  if !loadFormGood request then refuse .badForm g
  else if !g.loadInRange f then refuse .range g
  else match g.loadIdentity f.number with
    | some refusal => refuse refusal g
    | none => match g.vacantIndex with
      | none => refuse .noRoom g
      | some e =>
        if g.claimable f.named then { result := .ok, body := [eventObject e], gate := takeRecord e f g }
        else refuse .laneTaken g

/-- LOAD_EVENT (R34, R35). -/
def execLoadEvent (s : State) : Host.Outcome State Fault Refusal :=
  s.onGate (executeCommand 0x10 loadEvent)

/-! ## AMEND_EVENT -/

/-- 3.8: the fields an AMEND_EVENT carries; a field whose change bit is clear is absent. -/
structure AmendFields where
  number : Half
  mask : Option Byte
  ranges : Option (List Range)
  start : Option (Option Time)
  cutoff : Option Byte
  extraLimit : Option Byte
  grace : Option Byte
  deriving DecidableEq, Repr

/-- 3.8: where the range count of an AMEND_EVENT stands. -/
def amendRangesAt (change : Byte) : Nat :=
  if change.getLsbD 0 then 4 else 3

/-- 3.8: where the fields after the blackout ranges of an AMEND_EVENT begin. -/
def amendStartAt (body : List Byte) : Nat :=
  let change := byteAt body 2
  let at_ := amendRangesAt change
  if change.getLsbD 1 then at_ + 1 + 4 * (byteAt body at_).toNat else at_

/-- 3.8: where each field of an AMEND_EVENT after the start begins, and the body's length. -/
def amendCutoffAt (body : List Byte) : Nat :=
  amendStartAt body + if (byteAt body 2).getLsbD 2 then 6 else 0

/-- 3.8: where the extra limit of an AMEND_EVENT stands. -/
def amendExtraAt (body : List Byte) : Nat :=
  amendCutoffAt body + if (byteAt body 2).getLsbD 3 then 1 else 0

/-- 3.8: where the grace of an AMEND_EVENT stands. -/
def amendGraceAt (body : List Byte) : Nat :=
  amendExtraAt body + if (byteAt body 2).getLsbD 4 then 1 else 0

/-- 3.8: the length that the change byte and range count of an AMEND_EVENT call for. -/
def amendLength (body : List Byte) : Nat :=
  amendGraceAt body + if (byteAt body 2).getLsbD 5 then 1 else 0

/-- R52, first check: the form of an AMEND_EVENT body. -/
def amendFormGood (request : Request) : Bool :=
  let change := byteAt request.body 2
  3 ≤ request.length && !change.getLsbD 6 && !change.getLsbD 7
    && (!change.getLsbD 1 || amendRangesAt change < request.length)
    && request.length = amendLength request.body

/-- A field that is present where its change bit is set. -/
def whenSet {α : Type} (bit : Bool) (value : α) : Option α :=
  if bit then some value else none

/-- 3.8: the fields of an AMEND_EVENT body. -/
def amendFields (body : List Byte) : AmendFields :=
  let change := byteAt body 2
  let at_ := amendRangesAt change
  { number := halfAt body 0
    mask := whenSet (change.getLsbD 0) (byteAt body 3)
    ranges := whenSet (change.getLsbD 1) (rangesAt body (at_ + 1) (byteAt body at_).toNat)
    start := whenSet (change.getLsbD 2) (optionalTimeAt body (amendStartAt body))
    cutoff := whenSet (change.getLsbD 3) (byteAt body (amendCutoffAt body))
    extraLimit := whenSet (change.getLsbD 4) (byteAt body (amendExtraAt body))
    grace := whenSet (change.getLsbD 5) (byteAt body (amendGraceAt body)) }

/-- R52: the fields given lie in their LOAD_EVENT ranges. -/
def Gate.amendInRange (g : Gate) (f : AmendFields) : Bool :=
  f.mask.all g.maskInRange
    && f.ranges.all (fun ranges => decide (ranges.length ≤ 8) && rangesInRange ranges)
    && f.cutoff.all cutoffInRange
    && f.extraLimit.all (fun limit => limit.toNat ≤ 120)

/-- R53: zone z loses the event's fresh entries and open assembly cells where it is newly blacked. -/
def blackZone (e : EventIndex) (old : BitVec 4) (z : ZoneIndex) (g : Gate) : Gate :=
  if (g.event e).masks z && !old.getLsbD z.val then
    discardCells e z (purgeFresh (fun entry => entry.event = e) z g)
  else g

/-- R53: a new zone blackout mask. -/
def amendMask (e : EventIndex) (mask : Byte) (g : Gate) : Gate :=
  let old := (g.event e).mask
  allZones.foldl (fun acc z => blackZone e old z acc) (modEvent e (fun ev => { ev with mask := mask.setWidth 4 }) g)

/-- R54: a new list of ranges queues a RECOUNT and sets the recount flag. -/
def amendRanges (e : EventIndex) (ranges : List Range) (g : Gate) : Gate :=
  queueRecount e (modEvent e (fun ev => { ev with ranges := ranges, recountFlag := true }) g)

/-- R54: a new scheduled start replaces the phase deadline of the ON_SALE event. -/
def amendStart (e : EventIndex) (start : Option Time) (g : Gate) : Gate :=
  modEvent e (fun ev => { ev with scheduledStart := start, deadline := start }) g

/-- R54: the entry time of the event's phase, or of its resume phase while STALLED, from the stamps. -/
def Event.entryTime (ev : Event) : Time :=
  if ev.phase = .stalled then ev.previousEntry.getD ev.currentEntry else ev.currentEntry

/-- R54: a new limit of phase p replaces the deadline while the event is in p or is STALLED with resume phase p. -/
def Event.redate (p : Phase) (ev : Event) : Event :=
  if ev.deadlinePhase = p then { ev with deadline := ev.deadlineFor p ev.entryTime } else ev

/-- R54: a new extra limit. -/
def amendExtra (e : EventIndex) (limit : Byte) (g : Gate) : Gate :=
  modEvent e (fun ev => Event.redate .extra { ev with extraLimit := limit }) g

/-- R54: a new grace. -/
def amendGrace (e : EventIndex) (grace : Byte) (g : Gate) : Gate :=
  modEvent e (fun ev => Event.redate .windDown { ev with grace := clampGrace grace }) g

/-- A field that is given is written. -/
def applyGiven {α : Type} (given : Option α) (write : α → Gate → Gate) (g : Gate) : Gate :=
  match given with
  | some value => write value g
  | none => g

/-- R52–R54: all the fields given are written in one step. -/
def writeAmend (e : EventIndex) (f : AmendFields) (g : Gate) : Gate :=
  applyGiven f.grace (amendGrace e)
    (applyGiven f.extraLimit (amendExtra e)
      (applyGiven f.cutoff (fun cutoff => modEvent e (fun ev => { ev with cutoff := cutoff }))
        (applyGiven f.start (amendStart e)
          (applyGiven f.ranges (amendRanges e)
            (applyGiven f.mask (amendMask e) g)))))

/-- R52: AMEND_EVENT. -/
def amendEvent (request : Request) (g : Gate) : Answer :=
  let f := amendFields request.body
  if !amendFormGood request then refuse .badForm g
  else if !g.amendInRange f then refuse .range g
  else match g.findEvent f.number with
    | none => refuse .noEvent g
    | some e =>
      if (g.event e).phase = .retiring then refuse .busy g
      else if f.start.isSome ∧ (g.event e).phase ≠ .onSale then refuse .wrongPhase g
      else { result := .ok, body := [], gate := writeAmend e f g }

/-- AMEND_EVENT (R52–R54). -/
def execAmendEvent (s : State) : Host.Outcome State Fault Refusal :=
  s.onGate (executeCommand 0x11 amendEvent)

/-! ## STEER_EVENT -/

/-- An optional phase as read back: 0xFF where absent (Table 28). -/
def optionalPhase (p : Option Phase) : Byte :=
  match p with
  | some phase => phase.number
  | none => 0xFF

/-- R51: the body of an OK, BUSY or WRONG_PHASE reply to a STEER_EVENT. -/
def steerBody (e : EventIndex) (g : Gate) : List Byte :=
  [(g.event e).phase.number, optionalPhase (g.event e).resumePhase]

/-- R51: a STEER_EVENT's task on a loaded event. -/
def steerTask (e : EventIndex) (task : PhaseTask) (minutes : Nat) (g : Gate) : Answer :=
  if (g.event e).phase = .retiring then { result := .busy, body := steerBody e g, gate := g }
  else match applyTask e task minutes g with
    | some applied =>
      { result := .ok, body := steerBody e applied, gate := bumpEvent e .appliedSteers applied }
    | none => { result := .wrongPhase, body := steerBody e g, gate := g }

/-- R51: STEER_EVENT. -/
def steerEvent (request : Request) (g : Gate) : Answer :=
  if request.length ≠ 4 then refuse .badForm g
  else match taskOfNumber (byteAt request.body 2) with
    | none => refuse .range g
    | some task =>
      let minutes := (byteAt request.body 3).toNat
      if task = .extendPreview ∧ ¬ (1 ≤ minutes ∧ minutes ≤ 30) then refuse .range g
      else match g.findEvent (halfAt request.body 0) with
        | none => refuse .noEvent g
        | some e => steerTask e task minutes g

/-- STEER_EVENT (R51). -/
def execSteerEvent (s : State) : Host.Outcome State Fault Refusal :=
  s.onGate (executeCommand 0x12 steerEvent)

/-! ## RETIRE_EVENT -/

/-- R55: RETIRE_EVENT. -/
def retireEvent (request : Request) (g : Gate) : Answer :=
  if request.length ≠ 2 then refuse .badForm g
  else match g.findEvent (halfAt request.body 0) with
    | none => refuse .noEvent g
    | some e =>
      if (g.event e).phase = .retiring then refuse .busy g
      else if (g.event e).phase ≠ .closed then refuse .wrongPhase g
      else { result := .ok, body := [], gate := changePhase e .retiring (queueRetire e g) }

/-- RETIRE_EVENT (R55). -/
def execRetireEvent (s : State) : Host.Outcome State Fault Refusal :=
  s.onGate (executeCommand 0x13 retireEvent)

/-! ## READ_EVENT -/

/-- An optional site time as read back: all ones where absent (Table 28). -/
def optionalTime (t : Option Time) : List Byte :=
  match t with
  | some time => field 6 time.toNat
  | none => List.replicate 6 0xFF

/-- Table 28, notes 1: the content lanes as read back, unused slots 0xFFFF. -/
def lanesRead (ev : Event) : List Byte :=
  let lanes := ev.firstLane :: ev.moreLanes
  BitVec.ofNat 8 lanes.length
    :: (lanes.flatMap (fun lane : Lane => field 2 lane.toNat) ++ List.replicate 12 0xFF).take 12

/-- Table 28, notes 1: the blackout ranges as read back, unused slots zero. -/
def rangesRead (ranges : List Range) : List Byte :=
  BitVec.ofNat 8 ranges.length
    :: padTo 32 (ranges.flatMap (fun range => field 2 range.low.toNat ++ field 2 range.high.toNat))

/-- Table 28, note 2: a sheet as read back. -/
def sheetRead (sheet : Option Sheet) : List Byte :=
  match sheet with
  | some s => s.cls.number :: (field 4 s.number.toNat ++ field 6 s.effective.toNat)
  | none => 0xFF :: List.replicate 10 0

/-- Table 28, note 3: the last cue sequence as read back. -/
def cueRead (sequence : Option Byte) : List Byte :=
  match sequence with
  | some n => [0x00, n]
  | none => [0xFF, 0xFF]

/-- R57, Table 28: the 134 bytes of a record as read back. The recount flag's byte is 1 where set and 0 where clear, which
Table 28 does not say (DESIGN CHOICE, log 36). -/
def recordRead (e : EventIndex) (ev : Event) : List Byte :=
  [eventObject e] ++ field 2 ev.number.toNat ++ [ev.phase.number] ++ lanesRead ev ++ field 2 ev.keyLane.toNat
    ++ (match ev.alternateLane with
      | some lane => field 2 lane.toNat
      | none => [0xFF, 0xFF])
    ++ [ev.mask.setWidth 8] ++ rangesRead ev.ranges ++ field 2 ev.epoch.toNat ++ [ev.previewLength]
    ++ optionalTime ev.scheduledStart ++ [ev.cutoff, ev.extraLimit, ev.grace]
    ++ optionalTime ev.liveStamp ++ field 6 ev.currentEntry.toNat ++ optionalTime ev.previousEntry
    ++ [optionalPhase ev.previousPhase, optionalPhase ev.resumePhase] ++ optionalTime ev.deadline
    ++ cueRead ev.lastCue ++ sheetRead ev.current ++ sheetRead ev.pendingSheet ++ field 2 ev.starvation.toNat
    ++ optionalTime ev.base ++ allZones.flatMap (fun z => field 2 (ev.counts[z]).val)
    ++ [if ev.recountFlag then 1 else 0]

/-- R57: READ_EVENT. -/
def readEvent (request : Request) (g : Gate) : Answer :=
  if request.length ≠ 2 then refuse .badForm g
  else match g.findEvent (halfAt request.body 0) with
    | none => refuse .noEvent g
    | some e => { result := .ok, body := recordRead e (g.event e), gate := g }

/-- READ_EVENT (R57). -/
def execReadEvent (s : State) : Host.Outcome State Fault Refusal :=
  s.onGate (executeCommand 0x14 readEvent)

end Sys2Proof.Machine
end

