-- ==== Sys2Proof/Machine/HolderCommands.lean ====
section
/-! DEFINITION. The commands on holder records: PURCHASE and PURCHASE_ITEM (R103–R109), CANCEL (R110), PUT_HOLDER
(R95), DROP_HOLDER (R96), FORCE and RELEASE (R111–R113), BAR and UNBAR (R115, R116), READ_HOLDER (R97), DUMP (R98). -/

namespace Sys2Proof.Machine

/-! ## The command side of the table (R85) -/

/-- R85, R172: a command on holder records begins where the table is granted to the command side, and is answered; out of
turn the step is not due (log 24). One with a body length above 228 is refused by the Command Unit and needs no grant. -/
def executeAtTable (code : Byte) (meaning : Request → Gate → Answer) (g : Gate) : Gate :=
  beginWhere (fun request => request.code = code && (228 < request.length || g.turn = some .command))
    (fun request begun =>
      let answer := meaning request (granted .command begun)
      placeReply request.tag request.code answer.result answer.body answer.gate) g

/-! ## PURCHASE -/

/-- R16, R103: the form of a PURCHASE body. -/
def purchaseFormGood (request : Request) : Bool :=
  request.length ≠ 0 && request.length ≤ 224 && request.length % 8 = 0

/-- R103: a PURCHASE that passes its form check has its items taken up, in body order. -/
def takeUpItems (request : Request) (g : Gate) : Gate :=
  { g with command :=
      { g.command with work := .purchasing request.tag (itemsAt request.body 0 (request.length / 8)) [] } }

/-- R103: a PURCHASE begins: it is refused with BAD_FORM, or its items wait to be taken. -/
def purchase (g : Gate) : Gate :=
  beginCommand 0x20 (fun request begun =>
    if purchaseFormGood request then takeUpItems request begun
    else placeReply request.tag request.code .badForm [] begun) g

/-- PURCHASE (R103). -/
def execPurchase (s : State) : Host.Outcome State Fault Refusal :=
  s.onGate purchase

/-- R36, R105: does the profile table accept purchases in a phase? -/
def Gate.accepts (g : Gate) (p : Phase) : Bool :=
  match g.settings.profile.row p with
  | some row => row.accept
  | none => false

/-- R36, R105: in LIVE, is the item within the cutoff? -/
def Gate.withinCutoff (g : Gate) (ev : Event) : Bool :=
  ev.cutoff = 255 || match ev.liveStamp with
    | some t => g.clock.siteTime.toNat < t.toNat + ev.cutoff.toNat * 60000
    | none => false

/-- R106: does blackout turn the item away? -/
def Gate.blacksOut (g : Gate) (e : EventIndex) (z : ZoneIndex) (item : PurchaseItem) : Bool :=
  (g.event e).masks z
    || ((g.event e).blacksRegion item.region && match findHolder item.decoder g with
      | some (_, h) => !h.exempt
      | none => true)

/-- R109: the index is added to the bought set, and a LEARNED record's age mark is set. -/
def Holder.buy (e : EventIndex) (h : Holder) : Holder :=
  { h with bought := addIndex e h.bought, ageMark := h.ageMark || !h.isStatic }

/-- R108: a new record made by a purchase item, before its bought bit. -/
def PurchaseItem.newHolder (item : PurchaseItem) (z : ZoneIndex) : Holder where
  decoder := item.decoder
  zone := z
  region := item.region
  isStatic := false
  ageMark := false
  barred := false
  exempt := false
  bought := 0
  grants := 0
  denies := 0

/-- R107, R109: an item whose decoder has a record. -/
def buyHeld (e : EventIndex) (z : ZoneIndex) (item : PurchaseItem) (key : Nat) (h : Holder) (g : Gate) :
    Result × Gate :=
  if h.zone ≠ z ∨ h.region ≠ item.region then (.mismatch, bumpEvent e .refusedByRecord g)
  else if h.barred then (.barred, bumpEvent e .refusedByRecord g)
  else if h.bought.getLsbD e.val then (.okAlready, bumpEvent e .purchasesHeld g)
  else (.ok, bumpEvent e .purchasesAccepted (changeRecord key (some h) (some (h.buy e)) g))

/-- R108, R109: an item whose decoder has no record. -/
def buyNew (e : EventIndex) (z : ZoneIndex) (item : PurchaseItem) (g : Gate) : Result × Gate :=
  match placement item.decoder g with
  | .error r => (r, bumpEvent e .refusedByRecord (countRefusal r g))
  | .ok key =>
    (.ok, bumpEvent e .purchasesAccepted
      (bump .createdByPurchase (changeRecord key none (some ((item.newHolder z).buy e)) g)))

/-- R105–R109: an item that names a loaded event. -/
def buyFor (e : EventIndex) (z : ZoneIndex) (item : PurchaseItem) (g : Gate) : Result × Gate :=
  if !g.accepts (g.event e).phase then (.refusedPhase, bumpEvent e .refusedByPhase g)
  else if (g.event e).phase = .live ∧ g.withinCutoff (g.event e) = false then
    (.cutoff, bumpEvent e .refusedByCutoff g)
  else if g.blacksOut e z item then (.blackedOut, bumpEvent e .refusedByBlackout g)
  else match findHolder item.decoder g with
    | some (key, h) => buyHeld e z item key h g
    | none => buyNew e z item g

/-- R169: a zone byte of a command names a zone below the strapped zone count. -/
def Gate.strappedZone (g : Gate) (zone : Byte) : Option ZoneIndex :=
  allZones.find? (fun z => z.val = zone.toNat && g.driven z)

/-- R104–R109: one purchase item. -/
def buyItem (item : PurchaseItem) (g : Gate) : Result × Gate :=
  match g.strappedZone item.zone with
  | none => (.range, bump .itemsUnplaced g)
  | some z =>
    if decoderInRange item.decoder then
      match g.findEvent item.event with
      | none => (.noEvent, bump .itemsUnplaced g)
      | some e => buyFor e z item g
    else (.range, bump .itemsUnplaced g)

/-- R103: after an item the PURCHASE goes on with the items left, or ends with its reply, one result per item. -/
def afterItem (tag : Half) (left : List PurchaseItem) (results : List Result) (g : Gate) : Gate :=
  match left with
  | [] =>
    placeReply tag 0x20 .ok (results.map Result.code) { g with command := { g.command with work := .ready } }
  | _ :: _ => { g with command := { g.command with work := .purchasing tag left results } }

/-- R103: one item of a PURCHASE is taken, and its result is kept. -/
def takeItem (tag : Half) (item : PurchaseItem) (left : List PurchaseItem) (results : List Result) (g : Gate) : Gate :=
  let taken := buyItem item g
  afterItem tag left (results ++ [taken.1]) taken.2

/-- R85, R103, R109: the next item of the PURCHASE that is executing, where the table is granted to the command side; with
no item, or out of turn, the step is not due (log 1, log 24). -/
def purchaseItem (g : Gate) : Gate :=
  match g.command.work with
  | .purchasing tag (item :: left) results =>
    if g.turn = some .command then takeItem tag item left results (granted .command g) else g
  | _ => g

/-- PURCHASE_ITEM (R104–R109). -/
def execPurchaseItem (s : State) : Host.Outcome State Fault Refusal :=
  s.onGate purchaseItem

/-! ## Event numbers named by a holder command -/

/-- R95, R110, R111: the event numbers of a command, checked in body order: NO_EVENT where no non-VACANT record carries
one, BUSY where a RETIRING record does; otherwise their indices. -/
def Gate.namedEvents (g : Gate) : List Half → Except Result (List EventIndex)
  | [] => .ok []
  | number :: rest =>
    match g.findEvent number with
    | none => .error .noEvent
    | some e =>
      if (g.event e).phase = .retiring then .error .busy
      else match g.namedEvents rest with
        | .ok indices => .ok (e :: indices)
        | .error r => .error r

/-- The set of some indices; an index named twice is taken once. -/
def indexSet (indices : List EventIndex) : EventSet :=
  indices.foldl (fun set e => addIndex e set) 0

/-- A counter of each event of a set adds 1 (R118). -/
def bumpEach (k : EventCounter) (set : EventSet) (g : Gate) : Gate :=
  allEvents.foldl (fun acc e => if set.getLsbD e.val then bumpEvent e k acc else acc) g

/-- A record change of a command, on a record that is there (R85, R86). -/
def rewriteHolder (key : Nat) (h after : Holder) (g : Gate) : Gate :=
  changeRecord key (some h) (some after) g

/-- R172: a command that passes answers OK, or OK_ALREADY where nothing needed changing, with body length 0. -/
def answerChanged (changed : Bool) (g : Gate) : Answer where
  result := if changed then .ok else .okAlready
  body := []
  gate := g

/-! ## CANCEL -/

/-- R110: the named indices are cleared from the record's bought set. -/
def cancelSets (key : Nat) (h : Holder) (named : EventSet) (g : Gate) : Answer :=
  answerChanged (h.bought &&& named ≠ 0)
    (bumpEach .cancellations (h.bought &&& named)
      (rewriteHolder key h { h with bought := h.bought &&& ~~~named } g))

/-- R110: CANCEL. -/
def cancel (request : Request) (g : Gate) : Answer :=
  let d := decoderAt request.body 0
  let k := (byteAt request.body 3).toNat
  if request.length < 4 ∨ request.length ≠ 4 + 2 * k then refuse .badForm g
  else if decoderInRange d = false ∨ k = 0 ∨ 24 < k then refuse .range g
  else match findHolder d g with
    | none => refuse .noHolder g
    | some (key, h) =>
      match g.namedEvents (halvesAt request.body 4 k) with
      | .error r => refuse r g
      | .ok indices => cancelSets key h (indexSet indices) g

/-- CANCEL (R110). -/
def execCancel (s : State) : Host.Outcome State Fault Refusal :=
  s.onGate (executeAtTable 0x21 cancel)

/-! ## PUT_HOLDER -/

/-- R95: the record as PUT_HOLDER writes it over one that is there. -/
def Holder.rewrite (z : ZoneIndex) (region : Half) (exempt : Bool) (bought : EventSet) (h : Holder) : Holder :=
  { h with zone := z, region := region, exempt := exempt, bought := bought, isStatic := true, ageMark := false }

/-- R95: a new record made by PUT_HOLDER. -/
def newStatic (d : Decoder) (z : ZoneIndex) (region : Half) (exempt : Bool) (bought : EventSet) : Holder where
  decoder := d
  zone := z
  region := region
  isStatic := true
  ageMark := false
  barred := false
  exempt := exempt
  bought := bought
  grants := 0
  denies := 0

/-- R95: the body of an OK or OK_ALREADY reply: bucket and way. -/
def placeBody (key : Nat) : List Byte :=
  field 2 (bucketOfKey key) ++ field 1 (key % 4)

/-- R95: a PUT_HOLDER whose checks have passed. -/
def putRecord (d : Decoder) (z : ZoneIndex) (region : Half) (exempt : Bool) (bought : EventSet) (g : Gate) :
    Answer :=
  match findHolder d g with
  | some (key, h) =>
    { result := if h.rewrite z region exempt bought = h then .okAlready else .ok
      body := placeBody key
      gate := rewriteHolder key h (h.rewrite z region exempt bought) g }
  | none => match placement d g with
    | .error r => { result := r, body := [], gate := countRefusal r g }
    | .ok key =>
      { result := .ok
        body := placeBody key
        gate := bump .createdByPut
          (changeRecord key none (some (newStatic d z region exempt bought)) g) }

/-- R95: PUT_HOLDER. -/
def putHolder (request : Request) (g : Gate) : Answer :=
  let d := decoderAt request.body 0
  let exempt := byteAt request.body 6
  let k := (byteAt request.body 7).toNat
  if request.length < 8 ∨ request.length ≠ 8 + 2 * k then refuse .badForm g
  else match g.strappedZone (byteAt request.body 3) with
    | none => refuse .range g
    | some z =>
      if decoderInRange d = false ∨ 1 < exempt.toNat ∨ 24 < k then refuse .range g
      else match g.namedEvents (halvesAt request.body 8 k) with
        | .error r => refuse r g
        | .ok indices => putRecord d z (halfAt request.body 4) (exempt = 1) (indexSet indices) g

/-- PUT_HOLDER (R95). -/
def execPutHolder (s : State) : Host.Outcome State Fault Refusal :=
  s.onGate (executeAtTable 0x22 putHolder)

/-! ## Commands whose body is a decoder number -/

/-- R96, R97, R115, R116: the checks of a command whose body is one decoder number with a record. -/
def withHolder (request : Request) (run : Nat → Holder → Answer) (g : Gate) : Answer :=
  let d := decoderAt request.body 0
  if request.length ≠ 3 then refuse .badForm g
  else if decoderInRange d = false then refuse .range g
  else match findHolder d g with
    | none => refuse .noHolder g
    | some (key, h) => run key h

/-- R96: DROP_HOLDER. -/
def dropHolder (request : Request) (g : Gate) : Answer :=
  withHolder request (fun key h =>
    { result := .ok
      body := []
      gate := bump .recordsDropped (changeRecord key (some h) none g) }) g

/-- DROP_HOLDER (R96). -/
def execDropHolder (s : State) : Host.Outcome State Fault Refusal :=
  s.onGate (executeAtTable 0x23 dropHolder)

/-! ## FORCE and RELEASE -/

/-- R112: the record after a FORCE. -/
def Holder.forced (grant : Bool) (named : EventSet) (h : Holder) : Holder :=
  if grant then { h with grants := h.grants ||| named, denies := h.denies &&& ~~~named }
  else { h with denies := h.denies ||| named, grants := h.grants &&& ~~~named }

/-- R118: the indices that a FORCE adds to a forced set where they were not held. -/
def Holder.newlyForced (grant : Bool) (named : EventSet) (h : Holder) : EventSet :=
  if grant then named &&& ~~~h.grants else named &&& ~~~h.denies

/-- R113: the record after a RELEASE; KEEP makes the outcome of each override permanent in the bought set. -/
def Holder.released (keep : Bool) (named : EventSet) (h : Holder) : Holder :=
  { h with
    bought := if keep then (h.bought ||| (h.grants &&& named)) &&& ~~~(h.denies &&& named) else h.bought
    grants := h.grants &&& ~~~named
    denies := h.denies &&& ~~~named }

/-- R111, R113: the checks that FORCE and RELEASE share; mode 0x01 is GRANT or KEEP, 0x02 DENY or DROP. -/
def withOverride (request : Request) (run : Nat → Holder → Bool → EventSet → Answer) (g : Gate) : Answer :=
  let d := decoderAt request.body 0
  let mode := byteAt request.body 3
  let k := (byteAt request.body 4).toNat
  if request.length < 5 ∨ request.length ≠ 5 + 2 * k then refuse .badForm g
  else if decoderInRange d = false ∨ (mode ≠ 1 ∧ mode ≠ 2) ∨ k = 0 ∨ 8 < k then refuse .range g
  else match findHolder d g with
    | none => refuse .noHolder g
    | some (key, h) =>
      match g.namedEvents (halvesAt request.body 5 k) with
      | .error r => refuse r g
      | .ok indices => run key h (mode = 1) (indexSet indices)

/-- R111, R112: FORCE. -/
def force (request : Request) (g : Gate) : Answer :=
  withOverride request (fun key h grant named =>
    answerChanged (h.forced grant named ≠ h)
      (bumpEach .overridesSet (h.newlyForced grant named) (rewriteHolder key h (h.forced grant named) g))) g

/-- FORCE (R111, R112). -/
def execForce (s : State) : Host.Outcome State Fault Refusal :=
  s.onGate (executeAtTable 0x24 force)

/-- R113: RELEASE. -/
def release (request : Request) (g : Gate) : Answer :=
  withOverride request (fun key h keep named =>
    answerChanged ((h.grants ||| h.denies) &&& named ≠ 0)
      (bumpEach .overridesReleased ((h.grants ||| h.denies) &&& named)
        (rewriteHolder key h (h.released keep named) g))) g

/-- RELEASE (R113). -/
def execRelease (s : State) : Host.Outcome State Fault Refusal :=
  s.onGate (executeAtTable 0x25 release)

/-! ## BAR and UNBAR -/

/-- R115, R130, R143: every listed entry naming the decoder leaves every zone's fresh queue, and the decoder leaves
every open assembly cell. -/
def purgeDecoder (d : Decoder) (g : Gate) : Gate :=
  takeOutEverywhere d (purgeFreshAll (fun entry => entry.form = .listed && entry.decoder = d) g)

/-- R115: BAR. -/
def bar (request : Request) (g : Gate) : Answer :=
  withHolder request (fun key h =>
    if h.barred then answerChanged false g
    else answerChanged true
      (bump .bars (purgeDecoder h.decoder (rewriteHolder key h { h with barred := true } g)))) g

/-- BAR (R115). -/
def execBar (s : State) : Host.Outcome State Fault Refusal :=
  s.onGate (executeAtTable 0x26 bar)

/-- R116: UNBAR. -/
def unbar (request : Request) (g : Gate) : Answer :=
  withHolder request (fun key h =>
    if h.barred then answerChanged true (bump .unbars (rewriteHolder key h { h with barred := false } g))
    else answerChanged false g) g

/-- UNBAR (R116). -/
def execUnbar (s : State) : Host.Outcome State Fault Refusal :=
  s.onGate (executeAtTable 0x27 unbar)

/-! ## READ_HOLDER and DUMP -/

/-- Table 14: the flags byte of a record as read back. -/
def Holder.flagBits (h : Holder) : Byte :=
  (if h.isStatic then 1 else 0) ||| (if h.ageMark then 2 else 0) ||| (if h.barred then 4 else 0)
    ||| (if h.exempt then 8 else 0)

/-- Table 14: a holder record as read back, 16 bytes. -/
def holderRead (h : Holder) : List Byte :=
  field 3 h.decoder.toNat ++ [BitVec.ofNat 8 h.zone.val] ++ field 2 h.region.toNat ++ [h.flagBits]
    ++ field 3 h.bought.toNat ++ field 3 h.grants.toNat ++ field 3 h.denies.toNat

/-- R97: READ_HOLDER. -/
def readHolder (request : Request) (g : Gate) : Answer :=
  withHolder request (fun _ h => { result := .ok, body := holderRead h, gate := g }) g

/-- READ_HOLDER (R97). -/
def execReadHolder (s : State) : Host.Outcome State Fault Refusal :=
  s.onGate (executeAtTable 0x28 readHolder)

/-- R98: from a bucket on, up to a number of buckets are taken while the records stay at 12 or fewer: the bucket after
the last one taken, and the records. -/
def dumpFrom (g : Gate) : Nat → Nat → List Holder → Nat × List Holder
  | 0, b, taken => (b, taken)
  | left + 1, b, taken =>
    if h : b < 8192 then
      let records := (bucketRecords ⟨b, h⟩ g).map Prod.snd
      if taken.length + records.length ≤ 12 then dumpFrom g left (b + 1) (taken ++ records)
      else (b, taken)
    else (b, taken)

/-- R98: the body of a DUMP reply. -/
def dumpBody (next : Nat) (records : List Holder) : List Byte :=
  field 2 next ++ [BitVec.ofNat 8 records.length] ++ records.flatMap holderRead

/-- R98: DUMP. -/
def dump (request : Request) (g : Gate) : Answer :=
  let start := (halfAt request.body 0).toNat
  if request.length ≠ 2 then refuse .badForm g
  else if 8191 < start then refuse .range g
  else
    let taken := dumpFrom g 512 start []
    { result := .ok, body := dumpBody taken.1 taken.2, gate := g }

/-- DUMP (R98). -/
def execDump (s : State) : Host.Outcome State Fault Refusal :=
  s.onGate (executeAtTable 0x29 dump)

end Sys2Proof.Machine
end

