-- ==== Sys2Proof/Machine/SettingCommands.lean ====
section
/-! DEFINITION. The commands on settings and counters: SET_ZONE (R166), SET_PROFILE (R37), SET_CUE_MAP (R27),
SET_TIMING (R174, R77) and READ_COUNTERS (R175, R176). -/

namespace Sys2Proof.Machine

/-! ## SET_ZONE -/

/-- R166: a share of 0 is stored as 1, and one above 256 as 256. -/
def clampShare (share : Half) : Half :=
  BitVec.ofNat 16 (clamp 1 256 share.toNat)

/-- R166: SET_ZONE. -/
def setZone (request : Request) (g : Gate) : Answer :=
  let share := clampShare (halfAt request.body 1)
  let dark := byteAt request.body 3
  if request.length ≠ 4 then refuse .badForm g
  else match g.strappedZone (byteAt request.body 0) with
    | none => refuse .range g
    | some z =>
      if 1 < dark.toNat then refuse .range g
      else
        { result := .ok
          body := field 2 share.toNat ++ [dark]
          gate := modZone z (fun zone => { zone with share := share, dark := dark = 1 }) g }

/-- SET_ZONE (R166). -/
def execSetZone (s : State) : Host.Outcome State Fault Refusal :=
  s.onGate (executeCommand 0x30 setZone)

/-! ## SET_PROFILE -/

/-- R37: one row, a lane action byte and a purchase byte. -/
def profileRow (bytes : List Byte) (i : Nat) : PhaseProfile where
  pass := byteAt bytes i = 1
  accept := byteAt bytes (i + 1) = 1

/-- R37: the profile table of 12 bytes from byte i. -/
def profileAt (bytes : List Byte) (i : Nat) : ProfileTable where
  onSale := profileRow bytes i
  preview := profileRow bytes (i + 2)
  live := profileRow bytes (i + 4)
  extra := profileRow bytes (i + 6)
  windDown := profileRow bytes (i + 8)
  closed := profileRow bytes (i + 10)

/-- R37: each of the 12 bytes is 0 or 1. -/
def profileInRange (bytes : List Byte) (i : Nat) : Bool :=
  ((bytes.drop i).take 12).all (fun b => b.toNat ≤ 1)

/-- R37: SET_PROFILE. -/
def setProfile (request : Request) (g : Gate) : Answer :=
  if request.length ≠ 12 then refuse .badForm g
  else if !profileInRange request.body 0 then refuse .range g
  else
    { result := .ok
      body := []
      gate := { g with settings := { g.settings with profile := profileAt request.body 0 } } }

/-- SET_PROFILE (R37). -/
def execSetProfile (s : State) : Host.Outcome State Fault Refusal :=
  s.onGate (executeCommand 0x31 setProfile)

/-! ## SET_CUE_MAP -/

/-- R27: an entry of the map in a body: cue code, task number and minutes; none where the task or the minutes are out
of range. The minutes of any task but EXTEND_PREVIEW are ignored. -/
def cueEntryAt (bytes : List Byte) (i : Nat) : Option CueEntry :=
  match taskOfNumber (byteAt bytes (i + 1)) with
  | none => none
  | some task =>
    if task = .extendPreview then
      if 1 ≤ (byteAt bytes (i + 2)).toNat ∧ (byteAt bytes (i + 2)).toNat ≤ 30 then
        some { code := byteAt bytes i, task := task, minutes := some (byteAt bytes (i + 2)) }
      else none
    else some { code := byteAt bytes i, task := task, minutes := none }

/-- R27: the entries of a map back to back. -/
def cueEntriesAt (bytes : List Byte) : Nat → Nat → List (Option CueEntry)
  | _, 0 => []
  | i, n + 1 => cueEntryAt bytes i :: cueEntriesAt bytes (i + 3) n

/-- R27: the cue codes of a map's entries. -/
def cueCodesAt (bytes : List Byte) : Nat → Nat → List Byte
  | _, 0 => []
  | i, n + 1 => byteAt bytes i :: cueCodesAt bytes (i + 3) n

/-- R27: the entries of a map, where all are in range. -/
def cueMapAt (bytes : List Byte) (i n : Nat) : Option (List CueEntry) :=
  if (cueEntriesAt bytes i n).all Option.isSome then some ((cueEntriesAt bytes i n).filterMap id) else none

/-- R27: SET_CUE_MAP. -/
def setCueMap (request : Request) (g : Gate) : Answer :=
  let n := (byteAt request.body 0).toNat
  if request.length = 0 ∨ request.length ≠ 1 + 3 * n then refuse .badForm g
  else if 16 < n then refuse .range g
  else if ¬ (cueCodesAt request.body 1 n).Nodup then refuse .badForm g
  else match cueMapAt request.body 1 n with
    | none => refuse .range g
    | some entries =>
      { result := .ok, body := [], gate := { g with settings := { g.settings with cueMap := entries } } }

/-- SET_CUE_MAP (R27). -/
def execSetCueMap (s : State) : Host.Outcome State Fault Refusal :=
  s.onGate (executeCommand 0x32 setCueMap)

/-! ## SET_TIMING -/

/-- R174: the refusals of SET_TIMING. -/
def timingInRange (body : List Byte) : Bool :=
  (halfAt body 0).toNat ≤ 10000 && (halfAt body 2).toNat ≤ 30000 && 1 ≤ (byteAt body 4).toNat
    && (byteAt body 4).toNat ≤ 30 && (byteAt body 8).toNat ≤ 1

/-- R174: the seven values as stored, three of them clamped. -/
def Settings.withTiming (body : List Byte) (settings : Settings) : Settings :=
  { settings with
    openLead := halfAt body 0
    guard := halfAt body 2
    repeatInterval := byteAt body 4
    warnThreshold := BitVec.ofNat 8 (clamp 1 15 (byteAt body 5).toNat)
    stallThreshold := BitVec.ofNat 8 (clamp 2 15 (byteAt body 6).toNat)
    agingPeriod := BitVec.ofNat 8 (clamp 5 240 (byteAt body 7).toNat)
    overrideHold := byteAt body 8 = 1 }

/-- R174: the seven values in the command's layout. -/
def timingRead (settings : Settings) : List Byte :=
  field 2 settings.openLead.toNat ++ field 2 settings.guard.toNat
    ++ [settings.repeatInterval, settings.warnThreshold, settings.stallThreshold, settings.agingPeriod,
      if settings.overrideHold then 1 else 0]

/-- R77: a held open lead instant is recomputed with the new lead; one already reached has its entries offered. -/
def recomputeLead (e : EventIndex) (g : Gate) : Gate :=
  if (g.event e).openLead.isSome then setOpenLead e g else g

/-- R77, R174: the values are written and the held open lead instants recomputed. R77 gives the events no order; that they
are taken by ascending index, so that the entries offered at once join a fresh queue in it, is the model's choice (DESIGN
CHOICE, log 38). -/
def writeTiming (body : List Byte) (g : Gate) : Gate :=
  allEvents.foldl (fun acc e => recomputeLead e acc) { g with settings := g.settings.withTiming body }

/-- R174: SET_TIMING. -/
def setTiming (request : Request) (g : Gate) : Answer :=
  if request.length ≠ 9 then refuse .badForm g
  else if !timingInRange request.body then refuse .range g
  else
    { result := .ok
      body := timingRead (g.settings.withTiming request.body)
      gate := writeTiming request.body g }

/-- SET_TIMING (R174, R77). -/
def execSetTiming (s : State) : Host.Outcome State Fault Refusal :=
  s.onGate (executeCommand 0x33 setTiming)

/-! ## READ_COUNTERS -/

/-- R175: the body of a reply: group, object, count, and the counters in order. -/
def countersBody (group object : Byte) (counters : List Counter) : List Byte :=
  [group, object, BitVec.ofNat 8 counters.length] ++ counters.flatMap (fun c => field 4 c.toNat)

/-- R175: the intake group. -/
def readPartCounters (clear : Bool) (g : Gate) : Answer where
  result := .ok
  body := countersBody 0 0xFF g.counters.toList
  gate := if clear then { g with counters := Vector.replicate 37 0 } else g

/-- R175: the group of a zone. -/
def readZoneCounters (z : ZoneIndex) (clear : Bool) (g : Gate) : Answer where
  result := .ok
  body := countersBody 1 (BitVec.ofNat 8 z.val) (g.zone z).counters.toList
  gate := if clear then modZone z (fun zone => { zone with counters := Vector.replicate 19 0 }) g else g

/-- R175: the group of an event index. -/
def readEventCounters (e : EventIndex) (clear : Bool) (g : Gate) : Answer where
  result := .ok
  body := countersBody 2 (eventObject e) (g.event e).counters.toList
  gate := if clear then modEvent e (fun ev => { ev with counters := Vector.replicate 27 0 }) g else g

/-- R175: an event object names an index of 0–23. -/
def eventOfByte (object : Byte) : Option EventIndex :=
  allEvents.find? (fun e => e.val = object.toNat)

/-- R175: READ_COUNTERS. -/
def readCounters (request : Request) (g : Gate) : Answer :=
  let group := byteAt request.body 0
  let object := byteAt request.body 1
  let clear := byteAt request.body 2
  if request.length ≠ 3 then refuse .badForm g
  else if 2 < group.toNat ∨ 1 < clear.toNat then refuse .range g
  else if group = 0 then readPartCounters (clear = 1) g
  else if group = 1 then
    match g.strappedZone object with
    | none => refuse .range g
    | some z => readZoneCounters z (clear = 1) g
  else
    match eventOfByte object with
    | none => refuse .range g
    | some e => readEventCounters e (clear = 1) g

/-- READ_COUNTERS (R175). -/
def execReadCounters (s : State) : Host.Outcome State Fault Refusal :=
  s.onGate (executeCommand 0x34 readCounters)

end Sys2Proof.Machine
end

