-- ==== Sys2Proof/Machine/Image.lean ====
section
/-! DEFINITION. The Start-up Loader (R169, R179–R181, Table 81): POWER_ON, IMAGE_LOAD_END, SAVE_IMAGE and
SAVE_IMAGE_END. -/

namespace Sys2Proof.Machine

/-! ## The image's fields (Table 81) -/

/-- Table 81: the share of a zone in an image. -/
def imageShare (image : List Byte) (z : ZoneIndex) : Half :=
  halfAt image (1 + 2 * z.val)

/-- Table 81: the dark flag of a zone in an image. -/
def imageDark (image : List Byte) (z : ZoneIndex) : Bool :=
  (byteAt image 9).getLsbD z.val

/-- Table 81: shares and dark byte within range. A dark byte with a bit of 4–7 set is taken as out of range, which R179 does
not say of bits that name no zone (DESIGN CHOICE, log 39). -/
def imageZonesGood (image : List Byte) : Bool :=
  allZones.all (fun z => 1 ≤ (imageShare image z).toNat && (imageShare image z).toNat ≤ 256)
    && (byteAt image 9).toNat < 16

/-- Table 81, R26: the cue map within range. Only its used entries are tested, and the minutes of EXTEND_PREVIEW alone:
that bytes laid out as zero beside them do not set an image aside is the model's choice (DESIGN CHOICE, log 39). -/
def imageCuesGood (image : List Byte) : Bool :=
  let n := (byteAt image 22).toNat
  n ≤ 16 && (cueCodesAt image 23 n).Nodup && (cueMapAt image 23 n).isSome

/-- Table 81: the seven timing values within range; none is clamped (R179, log 20). -/
def imageTimingGood (image : List Byte) : Bool :=
  (halfAt image 71).toNat ≤ 10000 && (halfAt image 73).toNat ≤ 30000
    && 1 ≤ (byteAt image 75).toNat && (byteAt image 75).toNat ≤ 30
    && 1 ≤ (byteAt image 76).toNat && (byteAt image 76).toNat ≤ 15
    && 2 ≤ (byteAt image 77).toNat && (byteAt image 77).toNat ≤ 15
    && 5 ≤ (byteAt image 78).toNat && (byteAt image 78).toNat ≤ 240
    && (byteAt image 79).toNat ≤ 1

/-- Table 81: the two slot rates within range. -/
def imageRatesGood (image : List Byte) : Bool :=
  1000 ≤ natAt image 80 4 && natAt image 80 4 ≤ 140625
    && 100 ≤ natAt image 84 2 && natAt image 84 2 ≤ 10000

/-- R179: every field lies within its range. -/
def imageInRange (image : List Byte) : Bool :=
  imageZonesGood image && profileInRange image 10 && imageCuesGood image && imageTimingGood image
    && imageRatesGood image

/-- 10.8: the sum of bytes 1–85 modulo 65,536. -/
def imageSum (image : List Byte) : Nat :=
  byteSum ((image.drop 1).take 85) % 65536

/-- R179, R180: the first failure of a load, from the image's bytes and the number of byte transfers acknowledged; none
where the image is taken (log 20). -/
def imageFailure (image : List Byte) (acknowledged : Nat) : Option Byte :=
  if acknowledged = 0 then some 0x01
  else if byteAt image 0 ≠ 0xA5 then some 0x02
  else if acknowledged < imageLength then some 0x01
  else if natAt image 86 2 ≠ imageSum image then some 0x03
  else if !imageInRange image then some 0x04
  else none

/-- Table 81: the settings of an image. -/
def imageSettings (image : List Byte) : Settings where
  profile := profileAt image 10
  cueMap := (cueMapAt image 23 (byteAt image 22).toNat).getD []
  openLead := halfAt image 71
  guard := halfAt image 73
  repeatInterval := byteAt image 75
  warnThreshold := byteAt image 76
  stallThreshold := byteAt image 77
  agingPeriod := byteAt image 78
  overrideHold := byteAt image 79 = 1

/-- Table 81: a zone takes the share and the dark flag of the image. -/
def loadZone (image : List Byte) (z : ZoneIndex) (g : Gate) : Gate :=
  modZone z (fun zone => { zone with share := imageShare image z, dark := imageDark image z }) g

/-- R179: every field is loaded as read. -/
def takeImage (image : List Byte) (g : Gate) : Gate :=
  let zoned := allZones.foldl (fun acc z => loadZone image z acc) g
  { zoned with
    settings := imageSettings image
    loader :=
      { zoned.loader with
        nominalRate := BitVec.ofNat 32 (natAt image 80 4)
        returnRate := BitVec.ofNat 16 (natAt image 84 2) } }

/-- Table 81: a zone takes the built-in share and dark flag. -/
def defaultZone (z : ZoneIndex) (g : Gate) : Gate :=
  modZone z (fun zone => { zone with share := Config.builtInShare, dark := false }) g

/-- R179: the whole image is set aside and every field takes its built-in default. -/
def takeDefaults (g : Gate) : Gate :=
  let zoned := allZones.foldl (fun acc z => defaultZone z acc) g
  { zoned with
    settings := Settings.builtIn
    loader :=
      { zoned.loader with nominalRate := Config.builtInNominalRate, returnRate := Config.builtInReturnRate } }

/-- R93, R179: the load is over, and the age instant is the aging period in force measured from site time 0. -/
def finishLoad (g : Gate) : Gate :=
  { g with
    loader := { g.loader with loading := false }
    upkeep := { g.upkeep with ageInstant := timeAddMinutes 0 g.settings.agingPeriod.toNat } }

/-- R179, R180: the load ends with the image taken or set aside, and the IMAGE item is posted. -/
def endLoad (acknowledged : Nat) (g : Gate) : Gate :=
  let image := Memory.readAll g.loader.eeprom 0 imageLength
  match imageFailure image acknowledged with
  | none => postImage 0x01 0x00 (finishLoad (takeImage image g))
  | some failure => postImage 0x02 failure (finishLoad (takeDefaults g))

/-- R179: the image load ends; with no load going on the step is not due. -/
def imageLoadEnd (acknowledged : Nat) (g : Gate) : Gate :=
  if g.loader.loading then endLoad acknowledged g else g

/-- IMAGE_LOAD_END (R179, R180). -/
def execImageLoadEnd (acknowledged : Nat) (s : State) : Host.Outcome State Fault Refusal :=
  s.onGate (imageLoadEnd acknowledged)

/-! ## Saving -/

/-- Table 81: the cue map's 16 entries as saved, minutes 0 where absent, unused entries zero. R26 gives the entries no order;
that they are saved in the order in which the map was given (the SET_CUE_MAP body, the image taken, or Table 25) is the model's
choice (DESIGN CHOICE, log 41). -/
def cueMapSaved (map : List CueEntry) : List Byte :=
  padTo 48 (map.flatMap (fun entry => [entry.code, entry.task.number, entry.minutes.getD 0]))

/-- R37: one row of the profile table as saved. -/
def profileRowSaved (row : PhaseProfile) : List Byte :=
  [if row.pass then 1 else 0, if row.accept then 1 else 0]

/-- R37: the profile table as the SET_PROFILE body. -/
def profileSaved (table : ProfileTable) : List Byte :=
  profileRowSaved table.onSale ++ profileRowSaved table.preview ++ profileRowSaved table.live
    ++ profileRowSaved table.extra ++ profileRowSaved table.windDown ++ profileRowSaved table.closed

/-- Table 81: the dark flags, bit z for zone z. -/
def darkSaved (g : Gate) : Byte :=
  BitVec.ofNat 8 ((allZones.map (fun z => if (g.zone z).dark then 2 ^ z.val else 0)).sum)

/-- Table 81: bytes 1–85, the fields in the order of the table. -/
def fieldsSaved (g : Gate) : List Byte :=
  allZones.flatMap (fun z => field 2 (g.zone z).share.toNat) ++ [darkSaved g] ++ profileSaved g.settings.profile
    ++ [BitVec.ofNat 8 g.settings.cueMap.length] ++ cueMapSaved g.settings.cueMap ++ timingRead g.settings
    ++ field 4 g.loader.nominalRate.toNat ++ field 2 g.loader.returnRate.toNat

/-- R181: bytes 1–87 of the image a save writes: the fields and their sum. -/
def imageSaved (g : Gate) : List Byte :=
  fieldsSaved g ++ field 2 (byteSum (fieldsSaved g) % 65536)

/-- The EEPROM's contents are replaced. -/
def setEeprom (eeprom : List Host.Cell) (g : Gate) : Gate :=
  { g with loader := { g.loader with eeprom := eeprom } }

/-- R181: a save begins: the settings are taken as they stand and the mark is written as not valid. -/
def beginSave (tag : Half) (g : Gate) : Gate :=
  setEeprom (Memory.write g.loader.eeprom 0 0x00)
    { g with command := { g.command with work := .saving tag (imageSaved g) } }

/-- R181: SAVE_IMAGE. -/
def saveImage (g : Gate) : Gate :=
  beginCommand 0x35 (fun request begun =>
    if request.length = 0 then beginSave request.tag begun
    else placeReply request.tag request.code .badForm [] begun) g

/-- SAVE_IMAGE (R181). -/
def execSaveImage (s : State) : Host.Outcome State Fault Refusal :=
  s.onGate saveImage

/-- R181: byte transfers of a save: the mark as not valid, bytes 1–87, the mark as valid. -/
abbrev saveTransfers : Nat := 89

/-- R181: byte n of the transfers of a save, with its address; transfer 88 writes the mark as valid. -/
def transferAt (image : List Byte) (n : Nat) : Nat × Byte :=
  if n = 88 then (0, 0xA5) else (n, byteAt image (n - 1))

/-- Log 8: the transfer the EEPROM did not acknowledge may have stored its byte. That of the first transfer, the mark
as not valid, has been written when the save began. -/
def unackedTransfer (image : List Byte) (acknowledged : Nat) (g : Gate) : Gate :=
  let drawn := { g with freeDraws := g.freeDraws + 1 }
  if acknowledged ≠ 0 ∧ Config.unackedStored g.freeDraws = true then
    setEeprom
      (Memory.write g.loader.eeprom (transferAt image acknowledged).1 (transferAt image acknowledged).2) drawn
  else drawn

/-- R176: image saves holds two halves, the upper for saves that ended OK and the lower for STORE_FAILED; each holds at
65,535. -/
def countSave (ok : Bool) (c : Counter) : Counter :=
  let upper := c.toNat / 65536
  let lower := c.toNat % 65536
  if ok then BitVec.ofNat 32 (min (upper + 1) 65535 * 65536 + lower)
  else BitVec.ofNat 32 (upper * 65536 + min (lower + 1) 65535)

/-- R176, R181: a save ends: its reply is placed, the IMAGE item posted, the save counted. -/
def endSave (tag : Half) (ok : Bool) (g : Gate) : Gate :=
  let saves := countSave ok g.counters[PartCounter.imageSaves.pos]
  let counted := { g with counters := g.counters.set PartCounter.imageSaves.pos saves }
  let ready := { counted with command := { counted.command with work := .ready } }
  if ok then postImage 0x03 0x00 (placeReply tag 0x35 .ok [] ready)
  else postImage 0x04 0x00 (placeReply tag 0x35 .storeFailed [] ready)

/-- R181: the bytes of a complete save. -/
def writeWhole (image : List Byte) (g : Gate) : Gate :=
  setEeprom (Memory.write (Memory.writeAll g.loader.eeprom 1 image) 0 0xA5) g

/-- R181: the bytes of a save that stopped at a transfer: those acknowledged before it, and perhaps its own. -/
def writePart (image : List Byte) (acknowledged : Nat) (g : Gate) : Gate :=
  unackedTransfer image acknowledged
    (setEeprom (Memory.writeAll g.loader.eeprom 1 (image.take (acknowledged - 1))) g)

/-- R181: the write of a save ends, complete or at the first transfer not acknowledged; with no save going on the step
is not due. -/
def saveImageEnd (acknowledged : Nat) (g : Gate) : Gate :=
  match g.command.work with
  | .saving tag image =>
    if saveTransfers ≤ acknowledged then endSave tag true (writeWhole image g)
    else endSave tag false (writePart image acknowledged g)
  | _ => g

/-- SAVE_IMAGE_END (R181). -/
def execSaveImageEnd (acknowledged : Nat) (s : State) : Host.Outcome State Fault Refusal :=
  s.onGate (saveImageEnd acknowledged)

/-- R183: a save cut short stops writing; how many of bytes 1–87 it had written is a free value (log 8). The mark stays
as the save's first transfer left it, not valid. -/
def cutSave (g : Gate) : Gate :=
  match g.command.work with
  | .saving _ image =>
    setEeprom (Memory.writeAll g.loader.eeprom 1 (image.take (Config.bytesBeforeCut g.freeDraws)))
      { g with freeDraws := g.freeDraws + 1 }
  | _ => g

/-! ## POWER_ON -/

/-- R169, R179: power is applied: the straps are sampled, every block takes its power-on state and the image load
begins. The EEPROM keeps its bytes unless one was fitted or programmed while power was off (log 2). -/
def powerOn (unitStraps : Byte) (zoneStraps : BitVec 2) (fitted : Option (List Byte)) (g : Gate) : Gate :=
  let cut := cutSave g
  let eeprom := match fitted with
    | some image => Memory.writeAll [] 0 image
    | none => cut.loader.eeprom
  Gate.atPowerOn unitStraps zoneStraps eeprom cut.freeDraws

/-- POWER_ON (R169). -/
def execPowerOn (unitStraps : Byte) (zoneStraps : BitVec 2) (fitted : Option (List Byte)) (s : State) :
    Host.Outcome State Fault Refusal :=
  s.onGate (powerOn unitStraps zoneStraps fitted)

end Sys2Proof.Machine
end

