-- ==== Sys2Proof/Machine/Restart.lean ====
section
/-! DEFINITION. Restart (10.9, Table 82): what each block does, the delivery that is re-formed (R58, R78, R136), and the
steps RESTART, RESTART_STEP and RESTART_LINE. -/

namespace Sys2Proof.Machine

/-! ## The blocks at a restart (Table 82) -/

/-- R2, R12: Intake at restart; a control cell already handed over stays with its unit (log 10). -/
def Intake.restarted (intake : Intake) : Intake :=
  { Intake.powerOn with handoff := intake.handoff }

/-- R149, R13, R159: a Zone Output Unit at restart. Its output port is left (log 16). A slot it has yet to take stays, and
is an idle opportunity from here on, since Intake is SEARCHING and no cell of the input is sent (R5, log 25). -/
def Zone.restarted (zone : Zone) : Zone :=
  { zone with
    credit := 0
    hold := 0
    turn := 0
    lateRisk := false
    noticeCount := 0
    substitutes := Vector.replicate 24 0
    fresh := []
    sweep := []
    slot := zone.slot.map (fun _ => .idle)
    counters := Vector.replicate 19 0 }

/-- R58: an event record at restart keeps everything but its counters. -/
def Event.restarted (ev : Event) : Event :=
  { ev with counters := Vector.replicate 27 0 }

/-- R114: a holder record's forced sets are emptied. -/
def Holder.withoutOverrides (h : Holder) : Holder :=
  { h with grants := 0, denies := 0 }

/-- R81, R114: the Holder Table at restart. -/
def holdersRestarted (hold : Bool) (holders : List (Nat × Holder)) : List (Nat × Holder) :=
  if hold then holders else holders.map (fun entry => (entry.1, entry.2.withoutOverrides))

/-- R136: the Sweep Walker at restart. -/
def Walker.restarted (walker : Walker) : Walker :=
  { walker with roster := Vector.replicate 24 Sweep.absent, parked := false }

/-- R171–R173, R177: the Command Unit at restart, before RESTARTED is posted. -/
def CommandUnit.restarted : CommandUnit where
  queue := []
  busy := false
  work := .ready
  replies := []
  status := []

/-- Table 82: every block takes its part of the restart. -/
def clearBlocks (g : Gate) : Gate :=
  { g with
    intake := g.intake.restarted
    events := g.events.map Event.restarted
    holders := holdersRestarted g.settings.overrideHold g.holders
    upkeep := { g.upkeep with tasks := [] }
    walker := g.walker.restarted
    zones := g.zones.map Zone.restarted
    command := CommandUnit.restarted
    output := { g.output with continuity := 0 }
    counters := Vector.replicate 37 0 }

/-! ## Delivery re-formed -/

/-- R58, R78, R136: the delivery that an event's phase calls for. A leg of the pending sheet holds its deadline. -/
def reformDelivery (e : EventIndex) (g : Gate) : Gate :=
  if (g.event e).phase.mode = .listedGrant then rejoinPending e (joinLeg e .current g)
  else if (g.event e).phase = .preview then setOpenRepeat e (reofferPending e (openOffer e .current g))
  else g

/-- R58, R92: the task queued for an event that is not VACANT, RETIRE(e) with a carried recount or RECOUNT(e), and its
recount flag. -/
def requeueTask (e : EventIndex) (g : Gate) : Gate :=
  if (g.event e).phase = .vacant then g
  else
    let task := if (g.event e).phase = .retiring then Task.retire e true else Task.recount e
    setTasks (g.upkeep.tasks ++ [task]) (modEvent e (fun ev => { ev with recountFlag := true }) g)

/-- R58: one event in index order. -/
def reformEvent (e : EventIndex) (g : Gate) : Gate :=
  requeueTask e (reformDelivery e g)

/-- R177, R183, Table 80: RESTARTED with its cause and the site time. -/
def postRestarted (cause : Byte) (g : Gate) : Gate :=
  post .restarted partObject (cause :: lowTime g 5) g

/-- R182, R183: a restart, for either cause: a save is cut short, every block takes its part, RESTARTED is posted, and
delivery is re-formed after it. R58 and R136 give index order for the tasks and the legs; that the open entries of several
events in PREVIEW are offered in index order too is the model's choice (DESIGN CHOICE, log 38). -/
def restartNow (cause : Byte) (g : Gate) : Gate :=
  allEvents.foldl (fun acc e => reformEvent e acc) (postRestarted cause (clearBlocks (cutSave g)))

/-! ## The steps -/

/-- R182: a RESTART that passes places its OK reply, and the Command Unit begins no further command. -/
def beginRestart (request : Request) (g : Gate) : Gate :=
  let placed := placeReply request.tag request.code .ok [] g
  { placed with command := { placed.command with work := .restarting } }

/-- R182: RESTART. -/
def restart (g : Gate) : Gate :=
  beginCommand 0x36 (fun request begun =>
    if request.length = 0 then beginRestart request begun
    else placeReply request.tag request.code .badForm [] begun) g

/-- RESTART (R182). -/
def execRestart (s : State) : Host.Outcome State Fault Refusal :=
  s.onGate restart

/-- R182: the restart of a RESTART command is taken when its reply has been sent, which leaves the reply queue empty;
otherwise the step is not due. -/
def restartStep (g : Gate) : Gate :=
  if g.command.work = .restarting ∧ g.command.replies = [] then restartNow 0x01 g else g

/-- RESTART_STEP (R182, R183). -/
def execRestartStep (s : State) : Host.Outcome State Fault Refusal :=
  s.onGate restartStep

/-- R183: the restart line takes a restart at once; during the image load it takes none. -/
def restartLine (g : Gate) : Gate :=
  if g.loader.loading then g else restartNow 0x02 g

/-- RESTART_LINE (R183). -/
def execRestartLine (s : State) : Host.Outcome State Fault Refusal :=
  s.onGate restartLine

end Sys2Proof.Machine
end

