-- ==== Sys2Proof/Machine/Dispatch.lean ====
section
/-! DEFINITION. The dispatch: one arm per command, each one call of its meaning. -/

namespace Sys2Proof.Machine

/-- The effect of a command on everything but the queue of waiting commands. -/
def exec (i : Instr) (s : State) : Host.Outcome State Fault Refusal :=
  match i with
  | .powerOn unitStraps zoneStraps fitted => Sys2Proof.Machine.execPowerOn unitStraps zoneStraps fitted s
  | .imageLoadEnd acknowledged => Sys2Proof.Machine.execImageLoadEnd acknowledged s
  | .inputCell step => Sys2Proof.Machine.execInputCell step s
  | .missingCell => Sys2Proof.Machine.execMissingCell s
  | .nominalSlot => Sys2Proof.Machine.execNominalSlot s
  | .holdMessage zone value => Sys2Proof.Machine.execHoldMessage zone value s
  | .siteClockTick => Sys2Proof.Machine.execSiteClockTick s
  | .timeCell => Sys2Proof.Machine.execTimeCell s
  | .windowClose => Sys2Proof.Machine.execWindowClose s
  | .cueCell => Sys2Proof.Machine.execCueCell s
  | .phaseDeadlineExpiry event => Sys2Proof.Machine.execPhaseDeadlineExpiry event s
  | .keyCell => Sys2Proof.Machine.execKeyCell s
  | .promotion event => Sys2Proof.Machine.execPromotion event s
  | .openLeadInstant event => Sys2Proof.Machine.execOpenLeadInstant event s
  | .openRepeat event => Sys2Proof.Machine.execOpenRepeat event s
  | .starvationInstant event => Sys2Proof.Machine.execStarvationInstant event s
  | .legLate event slot => Sys2Proof.Machine.execLegLate event slot s
  | .sweepVisit => Sys2Proof.Machine.execSweepVisit s
  | .maintenanceVisit => Sys2Proof.Machine.execMaintenanceVisit s
  | .ageInstant => Sys2Proof.Machine.execAgeInstant s
  | .managementCell => Sys2Proof.Machine.execManagementCell s
  | .returnSlot => Sys2Proof.Machine.execReturnSlot s
  | .unknownCommand => Sys2Proof.Machine.execUnknownCommand s
  | .loadEvent => Sys2Proof.Machine.execLoadEvent s
  | .amendEvent => Sys2Proof.Machine.execAmendEvent s
  | .steerEvent => Sys2Proof.Machine.execSteerEvent s
  | .retireEvent => Sys2Proof.Machine.execRetireEvent s
  | .readEvent => Sys2Proof.Machine.execReadEvent s
  | .purchase => Sys2Proof.Machine.execPurchase s
  | .purchaseItem => Sys2Proof.Machine.execPurchaseItem s
  | .cancel => Sys2Proof.Machine.execCancel s
  | .putHolder => Sys2Proof.Machine.execPutHolder s
  | .dropHolder => Sys2Proof.Machine.execDropHolder s
  | .force => Sys2Proof.Machine.execForce s
  | .release => Sys2Proof.Machine.execRelease s
  | .bar => Sys2Proof.Machine.execBar s
  | .unbar => Sys2Proof.Machine.execUnbar s
  | .readHolder => Sys2Proof.Machine.execReadHolder s
  | .dump => Sys2Proof.Machine.execDump s
  | .setZone => Sys2Proof.Machine.execSetZone s
  | .setProfile => Sys2Proof.Machine.execSetProfile s
  | .setCueMap => Sys2Proof.Machine.execSetCueMap s
  | .setTiming => Sys2Proof.Machine.execSetTiming s
  | .readCounters => Sys2Proof.Machine.execReadCounters s
  | .saveImage => Sys2Proof.Machine.execSaveImage s
  | .saveImageEnd acknowledged => Sys2Proof.Machine.execSaveImageEnd acknowledged s
  | .restart => Sys2Proof.Machine.execRestart s
  | .restartStep => Sys2Proof.Machine.execRestartStep s
  | .restartLine => Sys2Proof.Machine.execRestartLine s

end Sys2Proof.Machine
end

