-- ==== Sys2Proof/Safety.lean ====
section
/-! DEFINITION. What a claim may ask of the sender of the steps (log 1, log 11): which steps are due, and that due steps are
taken first. And the invariants of the part that claims speak of. Nothing in the model depends on this file. -/

namespace Sys2Proof.Safety

open Sys2Proof Sys2Proof.Machine

/-- R10: the step in which a control cell handed over is taken. -/
def dueHandoff (g : Gate) : List Instr :=
  match g.intake.handoff with
  | some (.time _) => [.timeCell]
  | some (.cue _) => [.cueCell]
  | some (.management _) => [.managementCell]
  | some (.key _ _) => [.keyCell]
  | none => []

/-- R43: is the event's phase deadline reached? -/
def phaseDue (g : Gate) (e : EventIndex) : Bool :=
  match (g.event e).deadline with
  | some t => g.reached t
  | none => false

/-- R134: is the lateness deadline of a slot's leg due? -/
def legDue (g : Gate) (r : EventIndex × SheetSlot) : Bool :=
  match g.leg r.1 r.2 with
  | none => false
  | some leg => match leg.deadline with
    | some t => g.reached t && g.noEarlierLeg t
    | none => false

/-- R23, R60: the deadline steps of one event that are due. -/
def dueOfEvent (g : Gate) (e : EventIndex) : List Instr :=
  (if phaseDue g e then [.phaseDeadlineExpiry e] else [])
    ++ (if g.instantDue e .lead then [.openLeadInstant e] else [])
    ++ (if g.instantDue e .promotion then [.promotion e] else [])
    ++ (if g.instantDue e .starvation then [.starvationInstant e] else [])
    ++ (if g.instantDue e .openRepeat then [.openRepeat e] else [])

/-- Every step that is due: hand-overs, window closes, reached deadlines, the restart of a RESTART command. A slot that a
zone is behind with is owed only before the zone's next slot, which takes it (R153, log 25), and is not counted here. -/
def due (g : Gate) : List Instr :=
  dueHandoff g
    ++ (if g.clock.closesDue = 0 then [] else [.windowClose])
    ++ allEvents.flatMap (dueOfEvent g)
    ++ (rosterOrder.filter (legDue g)).map (fun r => .legLate r.1 r.2)
    ++ (if g.reached g.upkeep.ageInstant then [.ageInstant] else [])
    ++ (if g.command.work = .restarting ∧ g.command.replies = [] then [.restartStep] else [])

/-- No step is due. -/
def Settled (s : State) : Prop :=
  due s.gate = []

/-- A prompt sender: while a step is due, the command at the front of the queue is one that is due. -/
def Prompt (s : State) : Prop :=
  due s.gate = [] ∨ ∃ c ∈ due s.gate, s.pending.head? = some c

/-- R85: how many grants after the last one the table comes to a kind of step, where all three wait. -/
def turnPlace : TableUser → TableUser → Nat
  | .command, .sweepWalker => 1
  | .command, .maintenanceWalker => 2
  | .command, .command => 3
  | .sweepWalker, .maintenanceWalker => 1
  | .sweepWalker, .command => 2
  | .sweepWalker, .sweepWalker => 3
  | .maintenanceWalker, .command => 1
  | .maintenanceWalker, .sweepWalker => 2
  | .maintenanceWalker, .maintenanceWalker => 3

/-! ## Invariants -/

/-- R177: no two items of the pending status set have one key. -/
def StatusOk (g : Gate) : Prop :=
  g.command.status.Pairwise (fun a b => a.sameKey b = false)

/-- R139, R140: a fresh queue holds at most 256 entries, no two alike. -/
def FreshOk (zone : Zone) : Prop :=
  zone.fresh.length ≤ Config.freshQueueSize ∧ zone.fresh.Nodup

/-- Is a reply still to be placed by a command that is executing? (R103, R181) -/
def owesReply : Work → Bool
  | .purchasing _ _ _ => true
  | .saving _ _ => true
  | .ready => false
  | .restarting => false

/-- R171–R173, R139, R159: the command queue, the busy flag's two levels, the reply queue, the fresh queues, the sweep
queues and the Notice Pool are within bounds. -/
structure QueuesOk (g : Gate) : Prop where
  commands : g.command.queue.length ≤ Config.commandQueueSize
  busy : g.command.busy = true → Config.clearLevel < g.command.queue.length
  clear : g.command.busy = false → g.command.queue.length < Config.busyLevel
  replies : g.command.replies.length ≤ Config.replyQueueSize
  owed : owesReply g.command.work = true → g.command.replies.length < Config.replyQueueSize
  fresh : ∀ z, FreshOk (g.zone z)
  sweep : ∀ z, (g.zone z).sweep.length ≤ Config.sweepQueueSize
  pool : g.buffersHeld ≤ Config.poolSize

/-- R26: an entry of the cue map as SET_CUE_MAP and the image leave it: minutes 1–30 for EXTEND_PREVIEW, absent for any
other task. -/
def cueEntryOk (entry : CueEntry) : Prop :=
  match entry.minutes with
  | some minutes => entry.task = .extendPreview ∧ 1 ≤ minutes.toNat ∧ minutes.toNat ≤ 30
  | none => entry.task ≠ .extendPreview

/-- Table 81, R26: every setting lies in its range. -/
structure SettingsOk (g : Gate) : Prop where
  share : ∀ z, 1 ≤ (g.zone z).share.toNat ∧ (g.zone z).share.toNat ≤ 256
  cues : g.settings.cueMap.length ≤ 16
  codes : (g.settings.cueMap.map CueEntry.code).Nodup
  entries : ∀ entry ∈ g.settings.cueMap, cueEntryOk entry
  openLead : g.settings.openLead.toNat ≤ 10000
  guard : g.settings.guard.toNat ≤ 30000
  again : 1 ≤ g.settings.repeatInterval.toNat ∧ g.settings.repeatInterval.toNat ≤ 30
  warn : 1 ≤ g.settings.warnThreshold.toNat ∧ g.settings.warnThreshold.toNat ≤ 15
  stall : 2 ≤ g.settings.stallThreshold.toNat ∧ g.settings.stallThreshold.toNat ≤ 15
  aging : 5 ≤ g.settings.agingPeriod.toNat ∧ g.settings.agingPeriod.toNat ≤ 240
  nominal : 1000 ≤ g.loader.nominalRate.toNat ∧ g.loader.nominalRate.toNat ≤ 140625
  returns : 100 ≤ g.loader.returnRate.toNat ∧ g.loader.returnRate.toNat ≤ 10000

/-- R82, R83, R111: the Holder Table: keys rising and below 32,768; every record in a way of its decoder's own bucket,
under a number it may carry, with no index both granted and denied; one record for a decoder. -/
structure HoldersOk (holders : List (Nat × Holder)) : Prop where
  sorted : Sparse.Sorted holders
  key : ∀ entry ∈ holders, entry.1 < Config.tableSize
  bucket : ∀ entry ∈ holders, (bucketOf entry.2.decoder).val = bucketOfKey entry.1
  number : ∀ entry ∈ holders, decoderInRange entry.2.decoder = true
  overrides : ∀ entry ∈ holders, entry.2.grants &&& entry.2.denies = 0
  one : ∀ a ∈ holders, ∀ b ∈ holders, a.2.decoder = b.2.decoder → a.1 = b.1

/-- R33: an event record that is not VACANT. -/
abbrev occupied (g : Gate) (e : EventIndex) : Prop :=
  (g.event e).phase ≠ .vacant

/-- R48–R50: a STALLED event has a resume phase, and no other event has one. -/
def resumeFits (ev : Event) : Prop :=
  match ev.resumePhase with
  | some p => ev.phase = .stalled ∧ p ∈ [Phase.onSale, .preview, .live, .extra, .windDown]
  | none => ev.phase ≠ .stalled

/-- R6–R8, R28, R33: the Event Table and the Lane Map: no two loaded records carry one event number; a lane is CONTENT,
KEY or ALTERNATE of exactly the loaded record that names it so; no reserved lane is listed; and resume phases fit. -/
structure EventsOk (g : Gate) : Prop where
  numbers : ∀ e f, occupied g e → occupied g f → (g.event e).number = (g.event f).number → e = f
  sorted : Sparse.Sorted g.lanes
  unreserved : ∀ entry ∈ g.lanes, entry.1 < 4080
  content : ∀ lane e,
    g.laneKind lane = .content e ↔ occupied g e ∧ lane ∈ (g.event e).firstLane :: (g.event e).moreLanes
  key : ∀ lane e, g.laneKind lane = .key e ↔ occupied g e ∧ (g.event e).keyLane = lane
  alternate : ∀ lane e, g.laneKind lane = .alternate e ↔ occupied g e ∧ (g.event e).alternateLane = some lane
  resume : ∀ e, resumeFits (g.event e)

/-- R87: what makes two tasks one: the event of a RETIRE or RECOUNT, or the scan. -/
def taskEvent : Task → Option EventIndex
  | .retire e _ => some e
  | .recount e => some e
  | .ageScan => none

/-- Is a task RETIRE(e)? -/
def retires (e : EventIndex) : Task → Bool
  | .retire f _ => f = e
  | .recount _ => false
  | .ageScan => false

/-- R55, R87, R88: the maintenance list names each event, and the scan, at most once; it holds RETIRE(e) exactly while e
is RETIRING, and RECOUNT(e) only for a loaded event; and its walk has a bucket left to visit. -/
structure TasksOk (g : Gate) : Prop where
  once : (g.upkeep.tasks.map taskEvent).Nodup
  retire : ∀ e, (g.event e).phase = .retiring ↔ g.upkeep.tasks.any (retires e) = true
  recount : ∀ e, Task.recount e ∈ g.upkeep.tasks → occupied g e
  cursor : g.upkeep.tasks ≠ [] → g.upkeep.cursor.val < 8192

/-- R119, R124: a leg belongs to a sheet that the event holds in that slot, in a LISTED phase; and while a first-lap leg
is in the roster no leg walks a later lap. -/
structure LegsOk (g : Gate) : Prop where
  sheet : ∀ e slot leg, g.leg e slot = some leg →
    (g.event e).phase.mode = .listedGrant ∧ ∃ sheet, g.sheet e slot = some sheet ∧ sheet.number = leg.sheet
  lap : ∀ e slot leg, g.leg e slot = some leg → leg.lap ≠ 0
  first : ∀ e slot leg f other walking, g.leg e slot = some leg → g.leg f other = some walking →
    leg.firstLap = true → walking.walking = true → walking.lap = 1

end Sys2Proof.Safety
end

