-- ==== Sys2Proof/Certificates/Slice0/Obligations.lean ====
section
/-! DEFINITION. The statements for the provers, one definition each: first what several of them say in common, then the
statements family by family. Log n is notes/assumptions/n.md. -/

namespace Sys2Proof.Claims

open Sys2Proof Sys2Proof.Machine Sys2Proof.Safety

/-! ## What several statements say in common -/

/-- The command at the head of the command queue may begin (R172), and it is q, whose body length is no more than 228
(R16). -/
structure Begins (g : Gate) (q : Request) : Prop where
  ready : g.command.work = .ready
  room : g.command.replies.length < Config.replyQueueSize
  head : ∃ cell rest, g.command.queue = cell :: rest ∧ requestOf cell = q
  length : q.length ≤ 228

/-- The state after command q has left the command queue (R171) and been refused with a body of length 0 (R173):
nothing else has changed. -/
def turnedAway (s : State) (q : Request) (r : Result) : State :=
  { s with gate := placeReply q.tag q.code r [] (leaveQueue s.gate) }

/-- R85: the part as a command's step at the table finds it: the command has left the queue, and the table is granted to
the command side. -/
def granting (g : Gate) : Gate :=
  { leaveQueue g with upkeep := { g.upkeep with lastGrant := .command } }

/-- The state after a command on holder records, the table being granted to it, has been refused with a body of length 0
or has found nothing to change: the reply is placed, and nothing else has changed but the grant (R85, log 24). -/
def turnedAwayAtTable (s : State) (q : Request) (r : Result) : State :=
  { s with gate := placeReply q.tag q.code r [] (granting s.gate) }

/-- R85: the table is granted next to a kind of step (log 24). What that takes is stated in
Obligations.StepsNotDueChangeNothing. -/
abbrev Turn (g : Gate) (user : TableUser) : Prop :=
  g.turn = some user

/-- A part-level counter. -/
def partCount (g : Gate) (k : PartCounter) : Counter :=
  g.counters[k.pos]

/-- A counter of a zone. -/
def zoneCounter (g : Gate) (z : ZoneIndex) (k : ZoneCounter) : Counter :=
  (g.zone z).counters[k.pos]

/-- A counter of an event record. -/
def eventCount (g : Gate) (e : EventIndex) (k : EventCounter) : Counter :=
  (g.event e).counters[k.pos]

/-- Some loaded event record carries an event number. -/
def Carried (g : Gate) (number : Half) : Prop :=
  ∃ e, occupied g e ∧ (g.event e).number = number

/-- Intake has handed a control cell to its unit, which has yet to take it (R10). -/
abbrev handed (s : State) (h : Handoff) : Prop :=
  s.gate.intake.handoff = some h

/-- Zone z is driven (R149) and not in the mask of event e. -/
abbrev unblacked (g : Gate) (e : EventIndex) (z : ZoneIndex) : Prop :=
  g.driven z = true ∧ (g.event e).mask.getLsbD z.val = false

/-- R70: the open entry of a sheet stands in the fresh queue of zone z, or that queue is full. -/
def Offered (h : Gate) (e : EventIndex) (number : SheetNumber) (z : ZoneIndex) : Prop :=
  ({ form := .openAll, decoder := 16777215, event := e, sheet := number } : FreshEntry) ∈ (h.zone z).fresh ∨
    256 ≤ (h.zone z).fresh.length

/-- R23: an instant is reached. -/
abbrev Reached (g : Gate) (t : Time) : Prop :=
  g.clock.isSet = true ∧ t ≤ g.clock.siteTime

/-- R70: a sheet has been offered openly. -/
abbrev OpenlyOffered (sheet : Sheet) : Prop :=
  sheet.cls = .openClass ∧ sheet.mark = true

/-- R127, R145, R146: an effective time and a blob are those of the sheet with a number, as an event record holds it. Of a
sheet that is not held nothing is said: those are free values (log 9). -/
def HeldMaterial (ev : Event) (number : SheetNumber) (effective : Time) (blob : List Byte) : Prop :=
  (∀ sheet, ev.current = some sheet → sheet.number = number → effective = sheet.effective ∧ blob = sheet.blob) ∧
  (∀ sheet, ev.pendingSheet = some sheet → sheet.number = number →
    (∀ current, ev.current = some current → current.number ≠ number) →
    effective = sheet.effective ∧ blob = sheet.blob)

/-- R70, R140: the fresh queue of a zone after an offer of an event's open entry for a sheet: as it was where it holds that
entry or is full, else with the entry at its tail. -/
def withOffer (e : EventIndex) (queue : List FreshEntry) (number : SheetNumber) : List FreshEntry :=
  let entry : FreshEntry := { form := .openAll, decoder := 16777215, event := e, sheet := number }
  if entry ∈ queue ∨ 256 ≤ queue.length then queue else queue ++ [entry]

/-- R68: an event and a sheet number are those of the sheet that a slot of event e holds. -/
def ownedBy (g : Gate) (e : EventIndex) (slot : SheetSlot) (f : EventIndex) (number : SheetNumber) : Bool :=
  decide (f = e ∧ (g.sheet e slot).map Sheet.number = some number)

/-- R68: the fresh queue of a zone without the entries of the sheet that a slot holds. -/
def freshWithout (g : Gate) (e : EventIndex) (slot : SheetSlot) (z : ZoneIndex) : List FreshEntry :=
  (g.zone z).fresh.filter (fun entry => !ownedBy g e slot entry.event entry.sheet)

/-- R68: the sweep queue of a zone without the cells of the sheet that a slot holds. -/
def sweepWithout (g : Gate) (e : EventIndex) (slot : SheetSlot) (z : ZoneIndex) : List Notice :=
  (g.zone z).sweep.filter (fun cell => !ownedBy g e slot cell.event cell.sheet)

/-- Table 59: a leg on its first lap that has just joined at the cursor. -/
def newLeg (g : Gate) (number : SheetNumber) (late : Bool) (deadline : Option Time) : Leg :=
  { sheet := number
    join := g.walker.cursor
    remaining := 8192
    lap := 1
    walking := true
    emitted := Vector.replicate 4 0
    late := late
    deadline := deadline
    owesFlush := false
    cells := Vector.replicate 4 [] }

/-- R123, R124: a leg on its next lap, joined at a cursor. -/
def onNextLap (cursor : Bucket) (leg : Leg) : Leg :=
  { leg with
    walking := true
    lap := BitVec.ofNat 16 (min (leg.lap.toNat + 1) 65535)
    join := cursor
    remaining := 8192 }

/-- R124: a WAITING leg resumes on its next lap at a cursor; a WALKING one goes on. -/
def resumed (cursor : Bucket) (leg : Leg) : Leg :=
  if leg.walking = true then leg else onNextLap cursor leg

/-- R123, R124: some leg but the one in place r is on its first lap. -/
def FirstLapLeft (g : Gate) (r : EventIndex × SheetSlot) : Prop :=
  ∃ f slot l, (f, slot) ≠ r ∧ g.leg f slot = some l ∧ l.walking = true ∧ l.lap = 1

/-- Table 33: the deadline of phase p of an event record, entered at a site time. -/
def table33 (ev : Event) (now : Time) : Phase → Option Time
  | .onSale => ev.scheduledStart
  | .preview => if ev.previewLength = 0 then none else some (timeAdd now (ev.previewLength.toNat * 60000))
  | .extra => if ev.extraLimit = 0 then none else some (timeAdd now (ev.extraLimit.toNat * 60000))
  | .windDown => some (timeAdd now (ev.grace.toNat * 60000))
  | .live => none
  | .closed => none
  | .stalled => none
  | .retiring => none
  | .vacant => none

end Sys2Proof.Claims

open Sys2Proof Sys2Proof.Machine Sys2Proof.Safety Sys2Proof.Claims

/-! ## The machine -/

/-- A step takes the command at the front of the queue of waiting commands and is exec of it on the state with the
queue's rest. With no command waiting the block idles: that clause is the model's choice (log 4). -/
def Obligations.StepRunsTheFrontCommand : Prop :=
  (∀ (s : State) (c : Instr) (rest : List Instr), s.pending = c :: rest →
    step s = exec c { s with pending := rest }) ∧
  (∀ s : State, s.pending = [] → step s = .next s)

/-- The state right after power-on holds what the manual says each block holds then, and meets every invariant stated
below. That the first state is the one right after POWER_ON, with the image load going on, is the model's choice
(log 3). -/
def Obligations.ResetIsThePowerOnState : Prop :=
  let g := State.reset.gate
  g.loader.loading = true ∧ g.loader.nominalRate = 100000 ∧ g.loader.returnRate = 1000 ∧
  g.intake.sync = .searching ∧ g.intake.goodRun = 0 ∧ g.intake.timeRef = none ∧ g.intake.cueRef = none ∧
  g.intake.managementRef = none ∧ (∀ e : EventIndex, g.intake.keyRefs[e] = none) ∧
  (∀ lane, g.laneKind lane = if 4080 ≤ lane.toNat then .reserved else .free) ∧
  g.clock.siteTime = 0 ∧ g.clock.isSet = false ∧ g.clock.withhold = 0 ∧ g.clock.largeRun = 0 ∧
  g.clock.fault = false ∧
  (∀ e, (g.event e).phase = .vacant ∧ (∀ z : ZoneIndex, (g.event e).counts[z] = 0) ∧ (g.event e).recountFlag = false ∧
    ∀ slot, g.sheet e slot = none ∧ g.leg e slot = none) ∧
  g.holders = [] ∧ g.upkeep.tasks = [] ∧ g.upkeep.cursor = 0 ∧ g.walker.cursor = 0 ∧
  (∀ z, (g.zone z).credit = 0 ∧ (g.zone z).hold = 0 ∧ (g.zone z).turn = 0 ∧ (g.zone z).lateRisk = false ∧
    (g.zone z).windowCount = 0 ∧ (g.zone z).idleRate = 0 ∧ (g.zone z).noticeCount = 0 ∧
    (g.zone z).fresh = [] ∧ (g.zone z).sweep = [] ∧ ∀ e : EventIndex, (g.zone z).substitutes[e] = 0) ∧
  g.command.queue = [] ∧ g.command.busy = false ∧ g.command.replies = [] ∧ g.output.continuity = 0 ∧
  (∀ k, partCount g k = 0) ∧ (∀ z k, zoneCounter g z k = 0) ∧ (∀ e k, eventCount g e k = 0) ∧
  Memory.wf g.loader.eeprom ∧ SettingsOk g ∧ HoldersOk g.holders ∧ QueuesOk g ∧ StatusOk g ∧ EventsOk g ∧ TasksOk g ∧ LegsOk g

/-- Nothing stops the part: every command answers a next state on every state, and the commands that wait behind it
stay. -/
def Obligations.EveryCommandAnswersANextState : Prop :=
  ∀ (c : Instr) (s : State), ∃ t, exec c s = .next t ∧ t.pending = s.pending

/-! ## Invariants that every step keeps -/

/-- The EEPROM's bytes stay in canonical form, and every setting stays in its range. -/
def Obligations.EveryStepKeepsTheEepromAndTheSettings : Prop :=
  (∀ s t : State, Memory.wf s.gate.loader.eeprom → step s = .next t → Memory.wf t.gate.loader.eeprom) ∧
  (∀ s t : State, SettingsOk s.gate → step s = .next t → SettingsOk t.gate)

/-- The Holder Table stays well formed: at most 32,768 records, each in a way of the bucket its number hashes to, one
record for a decoder, no record under a number none may carry, and no index both granted and denied. -/
def Obligations.EveryStepKeepsTheHolderTable : Prop :=
  ∀ s t : State, HoldersOk s.gate.holders → step s = .next t → HoldersOk t.gate.holders

/-- Command queue, busy flag, reply queue, fresh queues, sweep queues and Notice Pool stay within their bounds. -/
def Obligations.EveryStepKeepsTheQueuesInBounds : Prop :=
  ∀ s t : State, QueuesOk s.gate → step s = .next t → QueuesOk t.gate

/-- The pending status set holds at most one item per kind and object. -/
def Obligations.EveryStepKeepsTheStatusKeysApart : Prop :=
  ∀ s t : State, StatusOk s.gate → step s = .next t → StatusOk t.gate

/-- Event numbers stay different, every claimed lane names exactly the loaded record that names it, and only a STALLED
event has a resume phase. -/
def Obligations.EveryStepKeepsTheEventTable : Prop :=
  ∀ s t : State, EventsOk s.gate → step s = .next t → EventsOk t.gate

/-- The maintenance list keeps at most one task per event and one scan, with RETIRE(e) in it exactly while e is
RETIRING. -/
def Obligations.EveryStepKeepsTheMaintenanceList : Prop :=
  ∀ s t : State, EventsOk s.gate → TasksOk s.gate → step s = .next t → TasksOk t.gate

/-- Legs belong to held sheets of events in LISTED phases, and no leg walks a later lap beside a first-lap leg. -/
def Obligations.EveryStepKeepsTheLegs : Prop :=
  ∀ s t : State, EventsOk s.gate → TasksOk s.gate → LegsOk s.gate → step s = .next t → LegsOk t.gate

/-! ## Counters, status items and the Site Clock -/

/-- A counter rises by 1 and holds at its maximum, and no other counter and nothing else changes; a posted item
replaces the item held under its key, in its place, or enters as the newest. -/
def Obligations.CountersHoldAndItemsReplace : Prop :=
  (∀ (k : PartCounter) (g : Gate),
    (partCount (bump k g) k).toNat = min ((partCount g k).toNat + 1) 4294967295 ∧
    (∀ j, j ≠ k → partCount (bump k g) j = partCount g j) ∧
    bump k g = { g with counters := (bump k g).counters }) ∧
  (∀ (k : ZoneCounter) (n : Nat) (zone : Zone),
    ((Zone.countBy k n zone).counters[k.pos]).toNat = min ((zone.counters[k.pos]).toNat + n) 4294967295 ∧
    (∀ j, j ≠ k → (Zone.countBy k n zone).counters[ZoneCounter.pos j] = zone.counters[ZoneCounter.pos j]) ∧
    Zone.countBy k n zone = { zone with counters := (Zone.countBy k n zone).counters }) ∧
  (∀ (k : EventCounter) (n : Nat) (ev : Event),
    ((Event.countBy k n ev).counters[k.pos]).toNat = min ((ev.counters[k.pos]).toNat + n) 4294967295 ∧
    (∀ j, j ≠ k → (Event.countBy k n ev).counters[EventCounter.pos j] = ev.counters[EventCounter.pos j]) ∧
    Event.countBy k n ev = { ev with counters := (Event.countBy k n ev).counters }) ∧
  (∀ (item : Item) (items : List Item), (∀ held ∈ items, item.sameKey held = false) →
    insertItem item items = items ++ [item]) ∧
  (∀ (item held : Item) (older newer : List Item), (∀ other ∈ older, item.sameKey other = false) →
    item.sameKey held = true → insertItem item (older ++ held :: newer) = older ++ item :: newer)

/-- Site time never falls and a SET clock stays SET, whatever command is taken but POWER_ON. -/
def Obligations.SiteTimeNeverFalls : Prop :=
  ∀ (s t : State) (c : Instr), (∀ unit zones fitted, c ≠ .powerOn unit zones fitted) → exec c s = .next t →
    s.gate.clock.siteTime ≤ t.gate.clock.siteTime ∧
    (s.gate.clock.isSet = true → t.gate.clock.isSet = true)

/-- SITE_CLOCK_TICK: with a withhold count above 0 the tick is absorbed and the count falls by 1; with none site time
rises by 1, up to 281,474,976,710,655, and a window closes where it reaches a whole multiple of 1,000. Nothing else
changes. That a close waits to be taken by the zone outputs is the model's reading (log 14); that the window after a first
setting at an exact multiple closes at the next multiple, like any other, is its choice (log 35). -/
def Obligations.TickAdvancesOrIsAbsorbed : Prop :=
  ∀ s : State, ∃ t, exec .siteClockTick s = .next t ∧ t.pending = s.pending ∧
    t.gate = { s.gate with clock := t.gate.clock } ∧
    (s.gate.clock.withhold.val ≠ 0 →
      t.gate.clock = { s.gate.clock with withhold := t.gate.clock.withhold } ∧
      t.gate.clock.withhold.val + 1 = s.gate.clock.withhold.val) ∧
    (s.gate.clock.withhold.val = 0 →
      t.gate.clock = { s.gate.clock with siteTime := t.gate.clock.siteTime, closesDue := t.gate.clock.closesDue } ∧
      t.gate.clock.siteTime.toNat = min (s.gate.clock.siteTime.toNat + 1) 281474976710655 ∧
      t.gate.clock.closesDue = s.gate.clock.closesDue +
        if t.gate.clock.siteTime ≠ s.gate.clock.siteTime ∧ t.gate.clock.siteTime.toNat % 1000 = 0 then 1 else 0)

/-- TIME_CELL while UNSET (R19): the clock is set; site time takes the programme time unless that is less; withhold
count, large-offset run and fault flag are cleared; the window in progress closes; TIME SET is posted; the cell counts
as a time cell taken and as nothing else; and every deadline is compared against the new site time. That the close waits
to be taken by the zone outputs is the model's reading (log 14). -/
def Obligations.FirstTimeCellSetsTheClock : Prop :=
  ∀ (s : State) (cell : List Byte), handed s (.time cell) → s.gate.clock.isSet = false →
    let now : Time := if s.gate.clock.siteTime ≤ timeAt cell 5 then timeAt cell 5 else s.gate.clock.siteTime
    ∃ t, exec .timeCell s = .next t ∧
      t = { s with
        gate := post .time 0xFF (0x01 :: field 5 now.toNat)
          { bump .timeCellsTaken s.gate with
            intake := { s.gate.intake with handoff := none }
            clock :=
              { siteTime := now
                isSet := true
                withhold := 0
                largeRun := 0
                fault := false
                closesDue := s.gate.clock.closesDue + 1 } } } ∧
      ∀ deadline, t.gate.reached deadline = true ↔ deadline ≤ now

/-- TIME_CELL while SET (R20–R22), by the offset d: a forward step of at most 10 ms, or a raised withhold count;
the large-offset run and the fault flag, with TIME FAULT or TIME CLEAR where the flag changes; and the counters. -/
def Obligations.LaterTimeCellCorrectsTheClock : Prop :=
  ∀ (s : State) (cell : List Byte), handed s (.time cell) → s.gate.clock.isSet = true →
    let clock := s.gate.clock
    let d : Int := ((timeAt cell 5).toNat : Int) - clock.siteTime.toNat
    ∃ t, exec .timeCell s = .next t ∧ t.pending = s.pending ∧
      t.gate = { s.gate with
        intake := { s.gate.intake with handoff := none }
        clock := t.gate.clock
        counters := t.gate.counters
        command := { s.gate.command with status := t.gate.command.status } } ∧
      t.gate.clock.isSet = true ∧
      t.gate.clock.siteTime.toNat
        = (if 0 < d then min (clock.siteTime.toNat + min d.natAbs 10) 281474976710655 else clock.siteTime.toNat) ∧
      t.gate.clock.withhold.val = (if d < 0 then max clock.withhold.val (min d.natAbs 10) else 0) ∧
      t.gate.clock.largeRun.val = (if 10 < d.natAbs then min (clock.largeRun.val + 1) 8 else 0) ∧
      t.gate.clock.fault = (if 10 < d.natAbs then clock.fault || decide (8 ≤ clock.largeRun.val + 1) else false) ∧
      t.gate.command.status
        = (if t.gate.clock.fault = clock.fault then s.gate.command.status
          else insertItem
            { kind := .time
              object := 0xFF
              detail := (if t.gate.clock.fault then 0x02 else 0x03) :: field 5 t.gate.clock.siteTime.toNat }
            s.gate.command.status) ∧
      (∀ k, partCount t.gate k
        = if k = .timeCellsTaken ∨ (k = .forwardCorrections ∧ 0 < d) ∨ (k = .backwardCorrections ∧ d < 0) ∨
            (k = .largeOffsets ∧ 10 < d.natAbs)
          then countUp (partCount s.gate k) 1 else partCount s.gate k)

/-- A correction of the clock that carries site time into another second closes the window, and one that does not
leaves it open. WINDOW_CLOSE: every driven zone takes one close; its window count becomes its idle rate and starts again
at 0. A close while UNSET changes nothing else of a zone, and an undriven zone takes none. That a close waits until it is
taken is the model's reading (log 14); that a correction across the first multiple after a first setting at an exact multiple
closes the window, like any other, is its choice (log 35). -/
def Obligations.WindowCloseTakesTheIdleRate : Prop :=
  (∀ (s t : State) (cell : List Byte), handed s (.time cell) → s.gate.clock.isSet = true → exec .timeCell s = .next t →
    t.gate.clock.closesDue = s.gate.clock.closesDue +
      (if t.gate.clock.siteTime.toNat / 1000 = s.gate.clock.siteTime.toNat / 1000 then 0 else 1)) ∧
  ∀ s : State, s.gate.clock.closesDue ≠ 0 → ∃ t, exec .windowClose s = .next t ∧ t.pending = s.pending ∧
    t.gate = { s.gate with
      clock := { s.gate.clock with closesDue := s.gate.clock.closesDue - 1 }
      zones := t.gate.zones
      command := { s.gate.command with status := t.gate.command.status } } ∧
    (∀ z, s.gate.driven z = false → t.gate.zone z = s.gate.zone z) ∧
    (∀ z, s.gate.driven z = true →
      t.gate.zone z = { s.gate.zone z with
        idleRate := (s.gate.zone z).windowCount
        windowCount := 0
        lateRisk := (t.gate.zone z).lateRisk
        counters := (t.gate.zone z).counters }) ∧
    (s.gate.clock.isSet = false → t.gate.command.status = s.gate.command.status ∧
      ∀ z, (t.gate.zone z).lateRisk = (s.gate.zone z).lateRisk ∧ (t.gate.zone z).counters = (s.gate.zone z).counters)

namespace Sys2Proof.Claims

open Sys2Proof Sys2Proof.Machine Sys2Proof.Safety

/-- R162: a counted leg of zone z: a first-lap leg of an event whose mask does not name z. -/
def Counted (g : Gate) (z : ZoneIndex) (r : EventIndex × SheetSlot) (leg : Leg) : Prop :=
  g.leg r.1 r.2 = some leg ∧ leg.walking = true ∧ leg.lap = 1 ∧ (g.event r.1).mask.getLsbD z.val = false

/-- R163: the notices a leg still needs on zone z, 0 where it is no counted leg. -/
def legNeed (g : Gate) (z : ZoneIndex) (r : EventIndex × SheetSlot) : Nat :=
  match g.leg r.1 r.2 with
  | some leg =>
    if leg.walking = true ∧ leg.lap = 1 ∧ (g.event r.1).mask.getLsbD z.val = false then
      (((g.event r.1).counts[z]).val - leg.emitted[z] + 47) / 48
    else 0
  | none => 0

/-- R163: the need N. -/
def needed (g : Gate) (z : ZoneIndex) : Nat :=
  (g.zone z).sweep.length + ((g.zone z).fresh.length + 47) / 48 + (rosterOrder.map (legNeed g z)).sum

/-- R164: a counted leg of zone z and its sheet, which has not been offered openly and so gives the zone a deadline. -/
def Timed (g : Gate) (z : ZoneIndex) (r : EventIndex × SheetSlot) (sheet : Sheet) : Prop :=
  ∃ leg, Counted g z r leg ∧ g.sheet r.1 r.2 = some sheet ∧ ¬ OpenlyOffered sheet

/-- R164: some counted leg's sheet, other than one offered openly, comes due before need N can be met at supply S. The
earliest of them comes due first, so this is R164's comparison with D. -/
def Risky (g : Gate) (z : ZoneIndex) (n s : Nat) : Prop :=
  ∃ r sheet, Timed g z r sheet ∧
    ((n ≠ 0 ∧ s = 0) ∨
      (sheet.effective.toNat : Int) - g.clock.siteTime.toNat - g.settings.guard.toNat
        < (((n + s - 1) / s * 1000 : Nat) : Int))

/-- R165: the event that a LATE_RISK item of zone z names: the one whose counted leg gives the earliest effective time, the
lowest index at equal times, and 0xFF where the zone has no deadline. -/
def NamesEarliest (g : Gate) (z : ZoneIndex) (event : Byte) : Prop :=
  (event = 0xFF ∧ ∀ r sheet, ¬ Timed g z r sheet) ∨
  ∃ r sheet, Timed g z r sheet ∧ event = BitVec.ofNat 8 r.1.val ∧
    ∀ other later, Timed g z other later →
      sheet.effective < later.effective ∨ (sheet.effective = later.effective ∧ r.1 ≤ other.1)

/-- R177: the items of the pending status set under a kind and an object. -/
def itemsUnder (kind : StatusKind) (object : Byte) (g : Gate) : List Item :=
  g.command.status.filter (fun item => decide (item.kind = kind ∧ item.object = object))

end Sys2Proof.Claims

/-- WINDOW_CLOSE while SET: the LATE_RISK flag of a driven zone is set exactly where its need cannot be met by its
supply, the closing window's count times the share over 256, before the earliest effective time of its counted legs less
the guard. A change of the flag posts the zone's LATE_RISK item with the event of that leg, need and supply, and a SET is
counted; a flag left as it was posts and counts nothing. That N = 0 gives the time needed 0 even where S is 0 is the model's
reading (log 19). -/
def Obligations.LateRiskFollowsTheProjection : Prop :=
  ∀ (s : State) (z : ZoneIndex), s.gate.clock.closesDue ≠ 0 → s.gate.clock.isSet = true → s.gate.driven z = true →
    let n := needed s.gate z
    let supply := (s.gate.zone z).windowCount.toNat * (s.gate.zone z).share.toNat / 256
    let object : Byte := BitVec.ofNat 8 z.val
    ∃ t, exec .windowClose s = .next t ∧
      ((t.gate.zone z).lateRisk = true ↔ Risky s.gate z n supply) ∧
      ((t.gate.zone z).lateRisk = (s.gate.zone z).lateRisk →
        (t.gate.zone z).counters = (s.gate.zone z).counters ∧
        itemsUnder .lateRisk object t.gate = itemsUnder .lateRisk object s.gate) ∧
      ((t.gate.zone z).lateRisk ≠ (s.gate.zone z).lateRisk →
        (t.gate.zone z).counters
          = (if (t.gate.zone z).lateRisk = true then (Zone.countBy .riskSets 1 (s.gate.zone z)).counters
            else (s.gate.zone z).counters) ∧
        ∃ event, NamesEarliest s.gate z event ∧
          ({ kind := .lateRisk
             object := object
             detail := [if (t.gate.zone z).lateRisk = true then 0x01 else 0x02, event]
               ++ field 2 (min n 65535) ++ field 2 (min supply 65535) } : Item) ∈ t.gate.command.status)

/-! ## Cues, phases and deadlines -/

/-- CUE_CELL: a stray cue, an unmapped cue, a repeat, and a cue whose task is applied or rejected; each counts once. -/
def Obligations.CueCellOutcomes : Prop :=
  (∀ (g : Gate) (number : Half), (g.findEvent number = none ↔ ¬ Carried g number) ∧
    ∀ e, g.findEvent number = some e → occupied g e ∧ (g.event e).number = number) ∧
  (∀ (g : Gate) (code : Byte), (g.cueEntry code = none ↔ ∀ entry ∈ g.settings.cueMap, entry.code ≠ code) ∧
    ∀ entry, g.cueEntry code = some entry → entry ∈ g.settings.cueMap ∧ entry.code = code) ∧
  ∀ (s : State) (cell : List Byte), handed s (.cue cell) →
    let g : Gate := { s.gate with intake := { s.gate.intake with handoff := none } }
    (s.gate.findEvent (halfAt cell 5) = none →
      exec .cueCell s = .next { s with gate := bump .strayCues g }) ∧
    (∀ e, s.gate.findEvent (halfAt cell 5) = some e →
      (s.gate.cueEntry (byteAt cell 8) = none →
        exec .cueCell s = .next { s with gate := bumpEvent e .unmappedCues g }) ∧
      (∀ entry, s.gate.cueEntry (byteAt cell 8) = some entry →
        ((s.gate.event e).lastCue = some (byteAt cell 7) →
          exec .cueCell s = .next { s with gate := bumpEvent e .repeatCues g }) ∧
        ((s.gate.event e).lastCue ≠ some (byteAt cell 7) →
          let marked := modEvent e (fun ev => { ev with lastCue := some (byteAt cell 7) }) g
          (∀ applied, applyTask e entry.task ((entry.minutes.getD 0).toNat) marked = some applied →
            exec .cueCell s = .next { s with gate := bumpEvent e .appliedCues applied }) ∧
          (applyTask e entry.task ((entry.minutes.getD 0).toNat) marked = none →
            exec .cueCell s = .next { s with
              gate := post .cueRejected (eventObject e)
                [byteAt cell 8, byteAt cell 7, entry.task.number,
                  ((s.gate.event e).judgedPhase entry.task).number, 0, 0]
                (bumpEvent e .rejectedCues marked) }))))

namespace Sys2Proof.Claims

open Sys2Proof Sys2Proof.Machine Sys2Proof.Safety

/-- R49: the resume phase p of a STALLED event has become q, the scheduled start being the given one: the phase, the
current-entry stamp and all delivery stay, and a PHASE item with the resume flag is posted. -/
structure ResumeChanged (e : EventIndex) (p q : Phase) (start : Option Time) (g h : Gate) : Prop where
  gate : h = { g with
    events := h.events
    command := { g.command with
      status := insertItem
        { kind := .phase
          object := eventObject e
          detail := [0x80 + p.number, 0x80 + q.number] ++ field 4 g.clock.siteTime.toNat }
        g.command.status } }
  others : ∀ f, f ≠ e → h.event f = g.event f
  record : h.event e = { g.event e with
    scheduledStart := start
    resumePhase := some q
    previousEntry := some g.clock.siteTime
    previousPhase := some q
    deadline := table33 { g.event e with scheduledStart := start } g.clock.siteTime q
    liveStamp :=
      if q = .live ∧ (g.event e).liveStamp = none then some g.clock.siteTime else (g.event e).liveStamp }

end Sys2Proof.Claims

/-- Table 31: which task is allowed from which phase and where it leads; and an event's task is judged against its phase, or
against its resume phase while STALLED unless it is GO_CLOSED. A task that is allowed is applied: the event changes into the
phase it leads to (R38), BACK_TO_SALE having removed the scheduled start; while STALLED the resume phase changes, unless the
result is CLOSED (R49, R50); and EXTEND_PREVIEW moves a deadline that is present later and changes nothing else (R44). -/
def Obligations.TasksAreAllowedAsTheTableSays : Prop :=
  (∀ (task : PhaseTask) (p : Phase), task.allowedFrom p = true ↔
    (task, p) ∈ [(PhaseTask.goPreview, Phase.onSale), (.goLive, .onSale), (.goLive, .preview), (.goExtra, .live),
      (.goWindDown, .live), (.goWindDown, .extra), (.goClosed, .onSale), (.goClosed, .preview), (.goClosed, .live),
      (.goClosed, .extra), (.goClosed, .windDown), (.goClosed, .stalled), (.extendPreview, .preview),
      (.backToSale, .preview)]) ∧
  (∀ task : PhaseTask, task ≠ .extendPreview →
    (task, task.leadsTo) ∈ [(PhaseTask.goPreview, Phase.preview), (.goLive, .live), (.goExtra, .extra),
      (.goWindDown, .windDown), (.goClosed, .closed), (.backToSale, .onSale)]) ∧
  (∀ (g : Gate) (e : EventIndex) (task : PhaseTask) (minutes : Nat), (g.event e).phase ≠ .stalled →
    (applyTask e task minutes g).isSome = task.allowedFrom (g.event e).phase) ∧
  (∀ (g : Gate) (e : EventIndex) (task : PhaseTask) (minutes : Nat) (resume : Phase),
    (g.event e).phase = .stalled → (g.event e).resumePhase = some resume →
    (applyTask e task minutes g).isSome = task.allowedFrom (if task = .goClosed then .stalled else resume)) ∧
  (∀ (g h : Gate) (e : EventIndex) (task : PhaseTask) (minutes : Nat), applyTask e task minutes g = some h →
    let ev := g.event e
    let start := if task = .backToSale then none else ev.scheduledStart
    (task = .extendPreview →
      h = modEvent e (fun ev => { ev with deadline := ev.deadline.map (fun t => timeAdd t (minutes * 60000)) }) g) ∧
    (task ≠ .extendPreview → ev.phase ≠ .stalled ∨ task.leadsTo = .closed →
      h = changePhase e task.leadsTo (modEvent e (fun ev => { ev with scheduledStart := start }) g)) ∧
    (∀ resume, task ≠ .extendPreview → task.leadsTo ≠ .closed → ev.phase = .stalled → ev.resumePhase = some resume →
      ResumeChanged e resume task.leadsTo start g h))

/-- A phase change: the two-deep stamps, the live stamp, the resume phase and the phase deadline; the starvation base at the
first entry into a granting phase; the open lead and repeat instants gone with PREVIEW; the entry actions by grant mode (none
between phases of one mode; the event's delivery work gone at an entry into a NONE phase; at an entry into PREVIEW from a NONE
phase the open offers and repeats; at an entry into a LISTED phase a leg for each sheet, and the pending sheet judged); the
PHASE item last; and no other event record changes. -/
def Obligations.PhaseChangeStampsDatesAndDelivers : Prop :=
  ∀ (g : Gate) (e : EventIndex) (p : Phase),
    let before := g.event e
    let now := g.clock.siteTime
    let h := changePhase e p g
    (h.event e).phase = p ∧
    (h.event e).previousEntry = some before.currentEntry ∧
    (h.event e).previousPhase = some before.phase ∧
    (h.event e).currentEntry = now ∧
    (h.event e).liveStamp = (if p = .live ∧ before.liveStamp = none then some now else before.liveStamp) ∧
    (h.event e).resumePhase = (if p = .stalled then some before.phase else none) ∧
    (h.event e).deadline
      = (if p = .stalled ∨ (before.phase = .stalled ∧ p ≠ .closed) then before.deadline else table33 before now p) ∧
    (∀ f, f ≠ e → h.event f = g.event f) ∧
    (∃ earlier, h.command.status = insertItem
      { kind := .phase
        object := eventObject e
        detail := [before.phase.number, p.number] ++ field 4 now.toNat } earlier) ∧
    (before.phase.mode = p.mode → h.zones = g.zones ∧ h.walker = g.walker) ∧
    (before.phase.mode ≠ .noGrant → p.mode = .noGrant →
      (∀ slot, h.leg e slot = none) ∧
      ∀ z, (∀ entry ∈ (h.zone z).fresh, entry.event ≠ e) ∧ ∀ cell ∈ (h.zone z).sweep, cell.event ≠ e) ∧
    (before.phase.mode ≠ .listedGrant → p.mode = .listedGrant →
      (∀ slot sheet, g.sheet e slot = some sheet → ∃ leg, h.leg e slot = some leg ∧
        (g.leg e slot = none → leg.sheet = sheet.number)) ∧
      (h.event e).current = before.current ∧
      (before.pendingSheet = none →
        (h.event e).pendingSheet = none ∧ eventCount h e .previewTails = eventCount g e .previewTails) ∧
      ∀ sheet, before.pendingSheet = some sheet →
        (OpenlyOffered sheet → (h.event e).pendingSheet = some sheet ∧
          eventCount h e .previewTails = countUp (eventCount g e .previewTails) 1 ∧
          ({ kind := .previewTail
             object := eventObject e
             detail := field 4 sheet.number.toNat ++ [0, 0] } : Item) ∈ h.command.status) ∧
        (¬ OpenlyOffered sheet → (h.event e).pendingSheet = some { sheet with cls := .listedClass } ∧
          (sheet.cls ≠ .listedClass → (h.event e).openLead = none) ∧
          eventCount h e .previewTails = eventCount g e .previewTails)) ∧
    (before.phase.mode = .noGrant → p = .preview →
      (h.event e).openRepeat = some (timeAdd now (g.settings.repeatInterval.toNat * 1000)) ∧
      h.walker = g.walker ∧
      (h.event e).current = before.current.map (fun sheet => { sheet with mark := true }) ∧
      (∀ sheet z, before.current = some sheet → unblacked g e z → Offered h e sheet.number z) ∧
      (∀ z, ¬ unblacked g e z → h.zone z = g.zone z) ∧
      (before.pendingSheet = none → (h.event e).pendingSheet = none ∧ (h.event e).openLead = before.openLead) ∧
      ∀ sheet, before.pendingSheet = some sheet →
        let lead : Time := BitVec.ofNat 48 (sheet.effective.toNat - g.settings.openLead.toNat)
        (¬ Reached g lead → (h.event e).openLead = some lead ∧
          (h.event e).pendingSheet = some { sheet with cls := .openClass }) ∧
        (Reached g lead → (h.event e).openLead = none ∧
          (h.event e).pendingSheet = some { sheet with cls := .openClass, mark := true } ∧
          ∀ z, unblacked g e z → Offered h e sheet.number z)) ∧
    (before.phase.mode = p.mode ∨ p.mode = .noGrant →
      (h.event e).current = before.current ∧ (h.event e).pendingSheet = before.pendingSheet) ∧
    (before.phase = .preview → (h.event e).openLead = none ∧ (h.event e).openRepeat = none) ∧
    (h.event e).starvation = before.starvation ∧
    (p.mode ≠ .noGrant → before.base = none →
      (h.event e).base = some now ∧ (h.event e).nextStarvation = some (timeAdd now (before.epoch.toNat * 1000))) ∧
    (p.mode = .noGrant ∨ before.base ≠ none →
      (h.event e).base = before.base ∧ (h.event e).nextStarvation = before.nextStarvation)

/-- PHASE_DEADLINE_EXPIRY of a reached deadline: the deadline is removed, the expiry counted and the task of Table 33 applied:
the event changes into its phase, or, while STALLED, the resume phase changes as R49 says; a grace that ends takes even a
STALLED event to CLOSED. -/
def Obligations.PhaseDeadlineExpiryAppliesItsTask : Prop :=
  let target : Event → Phase → Phase := fun ev p =>
    if p = .onSale then (if ev.previewLength = 0 then .live else .preview)
    else if p = .preview then .live
    else if p = .extra then .windDown
    else .closed
  let expired : Gate → EventIndex → Gate := fun g e =>
    bumpEvent e .deadlineExpiries (modEvent e (fun ev => { ev with deadline := none }) g)
  ∀ (s : State) (e : EventIndex) (deadline : Time), (s.gate.event e).deadline = some deadline →
    s.gate.clock.isSet = true → deadline ≤ s.gate.clock.siteTime →
    (∀ p ∈ [Phase.onSale, .preview, .extra, .windDown], (s.gate.event e).phase = p →
      ∃ t, exec (.phaseDeadlineExpiry e) s = .next t ∧
        t.gate = changePhase e (target (s.gate.event e) p) (expired s.gate e) ∧
        (t.gate.event e).phase = target (s.gate.event e) p ∧ (t.gate.event e).resumePhase = none ∧
        (t.gate.event e).previousPhase = some p ∧
        (t.gate.event e).deadline
          = table33 (s.gate.event e) s.gate.clock.siteTime (target (s.gate.event e) p) ∧
        eventCount t.gate e .deadlineExpiries = countUp (eventCount s.gate e .deadlineExpiries) 1) ∧
    (∀ p ∈ [Phase.onSale, .preview, .extra, .windDown], (s.gate.event e).phase = .stalled →
      (s.gate.event e).resumePhase = some p →
      ∃ t, exec (.phaseDeadlineExpiry e) s = .next t ∧
        eventCount t.gate e .deadlineExpiries = countUp (eventCount s.gate e .deadlineExpiries) 1 ∧
        (t.gate.event e).phase = (if p = .windDown then .closed else .stalled) ∧
        (t.gate.event e).resumePhase = (if p = .windDown then none else some (target (s.gate.event e) p)) ∧
        (p = .windDown → t.gate = changePhase e .closed (expired s.gate e)) ∧
        (p ≠ .windDown →
          ResumeChanged e p (target (s.gate.event e) p) (s.gate.event e).scheduledStart (expired s.gate e) t.gate))

namespace Sys2Proof.Claims

open Sys2Proof Sys2Proof.Machine Sys2Proof.Safety

/-- R60: the instants that the Key Unit holds for an event, by their place at equal times: open lead, promotion, starvation,
open repeat. -/
def instantAt (ev : Event) : Fin 4 → Option Time
  | 0 => ev.openLead
  | 1 => ev.pendingSheet.map Sheet.effective
  | 2 => ev.nextStarvation
  | 3 => ev.openRepeat

/-- R23, R60: an instant of event e is absent, is not reached, or is behind an earlier one of the event (log 13). -/
def InstantWaits (g : Gate) (e : EventIndex) (place : Fin 4) : Prop :=
  ∀ t, instantAt (g.event e) place = some t → ¬ Reached g t ∨
    ∃ other u, instantAt (g.event e) other = some u ∧ (u < t ∨ (u = t ∧ other < place))

/-- R85: a command of one step on holder records heads the queue and may begin, or an item of a PURCHASE is next. -/
def CommandAtTable (g : Gate) : Prop :=
  (∃ tag item left results, g.command.work = .purchasing tag (item :: left) results) ∨
  (g.command.work = .ready ∧ g.command.replies.length < 16 ∧ ∃ cell rest, g.command.queue = cell :: rest ∧
    (requestOf cell).length ≤ 228 ∧
    (requestOf cell).code ∈ [(0x21 : Byte), 0x22, 0x23, 0x24, 0x25, 0x26, 0x27, 0x28, 0x29])

/-- R121, R128: some leg is WALKING. -/
def Walks (g : Gate) : Prop :=
  ∃ e slot leg, g.leg e slot = some leg ∧ leg.walking = true

/-- R128: with the visit made, every sweep queue holds at most 160 cells and all of them at most 384 buffers. -/
def BuffersFit (g : Gate) : Prop :=
  let v := visitBucket g
  (∀ z, (v.zone z).sweep.length ≤ 160) ∧
    (v.zone 0).sweep.length + (v.zone 1).sweep.length + (v.zone 2).sweep.length + (v.zone 3).sweep.length ≤ 384

end Sys2Proof.Claims

/-- A step that is not due changes nothing: no cell of its kind handed over, no close marked, no slot held, no instant or one
that is absent, not reached or behind an earlier one, no deadline reached, no leg to be late, no walk to make, another kind's
turn at the table, no command to begin, no write or restart awaited, or a reply still to leave before the restart. The model's
choice (log 1); which instant is earlier is R60's (log 13), and the rotation of the table is R85's, its order and what waits
for it the model's choice (log 24). -/
def Obligations.StepsNotDueChangeNothing : Prop :=
  (∀ s : State,
    ((∀ cell, ¬ handed s (.time cell)) → exec .timeCell s = .next s) ∧
    ((∀ cell, ¬ handed s (.cue cell)) → exec .cueCell s = .next s) ∧
    ((∀ e cell, ¬ handed s (.key e cell)) → exec .keyCell s = .next s) ∧
    ((∀ cell, ¬ handed s (.management cell)) → exec .managementCell s = .next s) ∧
    (s.gate.clock.closesDue = 0 → exec .windowClose s = .next s) ∧
    (∀ z, s.gate.driven z = false ∨ (s.gate.zone z).slot = none → exec (.inputCell (.taken z)) s = .next s) ∧
    (s.gate.loader.loading = false → ∀ n, exec (.imageLoadEnd n) s = .next s) ∧
    ((∀ tag image, s.gate.command.work ≠ .saving tag image) → ∀ n, exec (.saveImageEnd n) s = .next s) ∧
    ((∀ tag item left results, s.gate.command.work ≠ .purchasing tag (item :: left) results) →
      exec .purchaseItem s = .next s) ∧
    (s.gate.command.work ≠ .restarting ∨ s.gate.command.replies ≠ [] → exec .restartStep s = .next s) ∧
    (s.gate.loader.loading = true → exec .restartLine s = .next s) ∧
    (s.gate.command.queue = [] → ∀ c ∈ [Instr.unknownCommand, .loadEvent, .amendEvent, .steerEvent, .retireEvent,
      .readEvent, .purchase, .cancel, .putHolder, .dropHolder, .force, .release, .bar, .unbar, .readHolder, .dump,
      .setZone, .setProfile, .setCueMap, .setTiming, .readCounters, .saveImage, .restart], exec c s = .next s)) ∧
  (∀ s : State,
    (¬ Reached s.gate s.gate.upkeep.ageInstant → exec .ageInstant s = .next s) ∧
    ∀ e,
      ((∀ deadline, (s.gate.event e).deadline = some deadline → ¬ Reached s.gate deadline) →
        exec (.phaseDeadlineExpiry e) s = .next s) ∧
      (InstantWaits s.gate e 0 → exec (.openLeadInstant e) s = .next s) ∧
      (InstantWaits s.gate e 1 → exec (.promotion e) s = .next s) ∧
      (InstantWaits s.gate e 2 → exec (.starvationInstant e) s = .next s) ∧
      (InstantWaits s.gate e 3 → exec (.openRepeat e) s = .next s) ∧
      ∀ slot,
        (∀ leg deadline, s.gate.leg e slot = some leg → leg.deadline = some deadline → ¬ Reached s.gate deadline ∨
          ∃ f other l u, s.gate.leg f other = some l ∧ l.deadline = some u ∧ u < deadline) →
        exec (.legLate e slot) s = .next s) ∧
  (∀ s : State,
    (s.gate.upkeep.tasks = [] ∨ ¬ Turn s.gate .maintenanceWalker → exec .maintenanceVisit s = .next s) ∧
    (¬ Walks s.gate ∨ (BuffersFit s.gate ∧ ¬ Turn s.gate .sweepWalker) → exec .sweepVisit s = .next s) ∧
    (¬ Turn s.gate .command → exec .purchaseItem s = .next s ∧
      ((∀ cell rest, s.gate.command.queue = cell :: rest → (requestOf cell).length ≤ 228) →
        ∀ c ∈ [Instr.cancel, .putHolder, .dropHolder, .force, .release, .bar, .unbar, .readHolder, .dump],
          exec c s = .next s))) ∧
  (∀ g : Gate,
    (g.waits .command = true ↔ CommandAtTable g) ∧
    (g.waits .sweepWalker = true ↔ Walks g ∧ BuffersFit g) ∧
    (g.waits .maintenanceWalker = true ↔ g.upkeep.tasks ≠ []) ∧
    ∀ user, Turn g user ↔ g.waits user = true ∧
      ∀ other, g.waits other = true → turnPlace g.upkeep.lastGrant user ≤ turnPlace g.upkeep.lastGrant other)

/-! ## Key sheets -/

namespace Sys2Proof.Claims

open Sys2Proof Sys2Proof.Machine Sys2Proof.Safety

/-- Table 38, note 1: the newest accepted sheet: the pending sheet if there is one, else the current sheet. -/
def newestSheet (ev : Event) : Option Sheet :=
  ev.pendingSheet.or ev.current

/-- R64–R66: the slot that an accepted sheet takes. -/
def slotFor (g : Gate) (e : EventIndex) (effective : Time) : SheetSlot :=
  if (g.event e).pendingSheet ≠ none then .pending
  else if g.clock.isSet = true then (if g.clock.siteTime < effective then .pending else .current)
  else if (g.event e).current ≠ none then .pending
  else .current

/-- The number, effective time and blob of a sheet. -/
def material (sheet : Sheet) : SheetNumber × Time × List Byte :=
  (sheet.number, sheet.effective, sheet.blob)

end Sys2Proof.Claims

/-- KEY_CELL turned away: a stray key, a repeat, a stale sheet or an ORDER refusal is counted, and nothing else changes but
the hand-over, which ends. The event number is tested first: that a cell with sheet number 0 for another event, or for a
RETIRING one, counts as stray, as R61 and Table 38 say, and not as stale, as R16 says, is the model's choice (log 37). A
record that has become VACANT since the look-up counts nothing: the model's reading (log 10). That a record taken again by
LOAD_EVENT since the look-up judges the cell like any other is its choice (log 44). -/
def Obligations.KeyCellTurnedAway : Prop :=
  ∀ (s : State) (e : EventIndex) (cell : List Byte), handed s (.key e cell) →
    let g : Gate := { s.gate with intake := { s.gate.intake with handoff := none } }
    let ev := s.gate.event e
    let number : SheetNumber := BitVec.ofNat 32 (natAt cell 7 4)
    (ev.phase = .vacant → exec .keyCell s = .next { s with gate := g }) ∧
    (ev.phase ≠ .vacant → halfAt cell 5 ≠ ev.number ∨ ev.phase = .retiring →
      exec .keyCell s = .next { s with gate := bumpEvent e .strayKeys g }) ∧
    (ev.phase ≠ .vacant → ev.phase ≠ .retiring → halfAt cell 5 = ev.number →
      (newestSheet ev = none → number = 0 → exec .keyCell s = .next { s with gate := bumpEvent e .staleSheets g }) ∧
      ∀ newest, newestSheet ev = some newest →
        (number = newest.number → exec .keyCell s = .next { s with gate := bumpEvent e .repeatSheets g }) ∧
        (number < newest.number → exec .keyCell s = .next { s with gate := bumpEvent e .staleSheets g }) ∧
        (newest.number < number → timeAt cell 11 ≤ newest.effective →
          exec .keyCell s = .next { s with gate := bumpEvent e .orderRefusals g }))

/-- KEY_CELL accepted: the sheet takes its slot, the other slot keeps its sheet, the starvation items start again from
its effective time, and a STALLED event returns to its resume phase. The sheet is classed and delivered by the phase that the
event then has: in a LISTED phase a leg on its first lap at the cursor, late from its join where the effective time has passed
(R65, R120); in PREVIEW its open entries on every driven zone outside the event's mask, at once for a current sheet and for a
pending one whose open lead is reached, else an open lead instant; in a NONE phase nothing. The sheet it displaces takes its
fresh entries, sweep-queue cells, leg and open lead instant with it. A STALLED event that returns to PREVIEW has its current
sheet offered first: that this is the order is the model's reading (log 18). That a record taken again by LOAD_EVENT since the
look-up judges the cell like any other is its choice (log 44). -/
def Obligations.KeyCellAcceptedTakesItsSlot : Prop :=
  ∀ (s : State) (e : EventIndex) (cell : List Byte), handed s (.key e cell) →
    let ev := s.gate.event e
    let number : SheetNumber := BitVec.ofNat 32 (natAt cell 7 4)
    let effective := timeAt cell 11
    let slot := slotFor s.gate e effective
    let returns := ev.phase = .stalled
    let phase := if returns then ev.resumePhase.getD .stalled else ev.phase
    let lead : Time := BitVec.ofNat 48 (effective.toNat - s.gate.settings.openLead.toNat)
    let offered := phase = .preview ∧ (slot = .current ∨ Reached s.gate lead)
    let offers : List SheetNumber :=
      (if returns ∧ phase = .preview ∧ slot = .pending then (ev.current.map Sheet.number).toList else [])
        ++ (if offered then [number] else [])
    ev.phase ≠ .vacant → ev.phase ≠ .retiring → halfAt cell 5 = ev.number → number ≠ 0 →
    (∀ newest, newestSheet ev = some newest → newest.number < number ∧ newest.effective < effective) →
    ∃ t, exec .keyCell s = .next t ∧ t.gate.intake.handoff = none ∧
      t.gate.sheet e slot = some
        { number := number
          effective := effective
          blob := (cell.drop 17).take 72
          cls := if returns ∧ slot = .current then .noClass else phase.mode.sheetClass
          mark := decide offered } ∧
      (∀ other, other ≠ slot → (t.gate.sheet e other).map material = (s.gate.sheet e other).map material) ∧
      (t.gate.event e).starvation = 0 ∧ (t.gate.event e).base = some effective ∧
      (t.gate.event e).nextStarvation = some (timeAdd effective (ev.epoch.toNat * 1000)) ∧
      (t.gate.event e).phase = phase ∧
      eventCount t.gate e .sheetsAccepted = countUp (eventCount s.gate e .sheetsAccepted) 1 ∧
      eventCount t.gate e .supersedes
        = (if ev.pendingSheet = none then eventCount s.gate e .supersedes
          else countUp (eventCount s.gate e .supersedes) 1) ∧
      eventCount t.gate e .lateSheets
        = (if ev.pendingSheet = none ∧ s.gate.clock.isSet = true ∧ effective ≤ s.gate.clock.siteTime
          then countUp (eventCount s.gate e .lateSheets) 1 else eventCount s.gate e .lateSheets) ∧
      (LegsOk s.gate → t.gate.leg e slot =
        if phase.mode = .listedGrant then
          if Reached s.gate effective then some (newLeg s.gate number true none)
          else some (newLeg s.gate number false (some effective))
        else none) ∧
      (slot = .current → (t.gate.event e).openLead = ev.openLead) ∧
      (slot = .pending → phase = .preview →
        (t.gate.event e).openLead = if Reached s.gate lead then none else some lead) ∧
      (slot = .pending → phase ≠ .preview → ev.pendingSheet ≠ none → (t.gate.event e).openLead = none) ∧
      ∀ z, (t.gate.zone z).sweep = sweepWithout s.gate e slot z ∧
        (unblacked s.gate e z →
          (t.gate.zone z).fresh = offers.foldl (withOffer e) (freshWithout s.gate e slot z)) ∧
        (¬ unblacked s.gate e z → (t.gate.zone z).fresh = freshWithout s.gate e slot z)

/-- A discarded sheet takes with it its slot's contents, its leg, and every fresh entry and sweep-queue cell made for
it; the other slot's sheet and every other event record stay. -/
def Obligations.DiscardTakesTheSheetsWork : Prop :=
  ∀ (g : Gate) (e : EventIndex) (slot : SheetSlot) (sheet : Sheet), g.sheet e slot = some sheet →
    let h := discardSheet e slot g
    h.sheet e slot = none ∧ h.leg e slot = none ∧
    (∀ other, other ≠ slot → h.sheet e other = g.sheet e other) ∧
    (∀ f, f ≠ e → h.event f = g.event f) ∧
    (∀ z, (h.zone z).fresh
      = (g.zone z).fresh.filter (fun entry => !(entry.event = e && entry.sheet = sheet.number))) ∧
    (∀ z, (h.zone z).sweep
      = (g.zone z).sweep.filter (fun cell => !(cell.event = e && cell.sheet = sheet.number)))

/-- PROMOTION of a pending sheet whose effective time is reached, none of the event's instants coming before it: the
pending sheet becomes the current one, the pending slot and the open lead instant are empty, the promotion is counted, and the
starvation items and the phase stay. Its leg becomes the current sheet's leg and goes on unchanged, with join bucket, remaining
count, lap, state, entries emitted, lateness, deadline, owed flush and cells; only where the displaced sheet's leg was the
roster's last on a first lap do the WAITING legs, this one among them, resume. The displaced sheet takes its fresh entries and
sweep-queue cells with it, and no other work is touched. That an OPEN sheet not yet offered is offered at its promotion only in
PREVIEW is the model's reading (log 17). -/
def Obligations.PromotionMovesThePendingSheet : Prop :=
  ∀ (s : State) (e : EventIndex) (sheet : Sheet),
    let ev := s.gate.event e
    let offered := sheet.cls = .openClass ∧ sheet.mark = false ∧ ev.phase = .preview
    let lastFirstLap := ev.current ≠ none ∧ ∃ leg, s.gate.leg e .current = some leg ∧ leg.walking = true ∧ leg.lap = 1 ∧
      ¬ FirstLapLeft s.gate (e, .current)
    ev.pendingSheet = some sheet → Reached s.gate sheet.effective →
    (∀ lead, ev.openLead = some lead → sheet.effective < lead) →
    (∀ next, ev.nextStarvation = some next → sheet.effective ≤ next) →
    (∀ again, ev.openRepeat = some again → sheet.effective ≤ again) →
    ∃ t, exec (.promotion e) s = .next t ∧
      (t.gate.event e).current = some { sheet with mark := sheet.mark || decide offered } ∧
      (t.gate.event e).pendingSheet = none ∧ (t.gate.event e).openLead = none ∧
      (t.gate.event e).phase = ev.phase ∧ (t.gate.event e).starvation = ev.starvation ∧
      (t.gate.event e).base = ev.base ∧ (t.gate.event e).nextStarvation = ev.nextStarvation ∧
      eventCount t.gate e .promotions = countUp (eventCount s.gate e .promotions) 1 ∧
      t.gate.leg e .pending = none ∧
      (¬ lastFirstLap → t.gate.leg e .current = s.gate.leg e .pending ∧
        ∀ f slot, f ≠ e → t.gate.leg f slot = s.gate.leg f slot) ∧
      (lastFirstLap → t.gate.leg e .current = (s.gate.leg e .pending).map (resumed s.gate.walker.cursor) ∧
        ∀ f slot, f ≠ e → t.gate.leg f slot = (s.gate.leg f slot).map (resumed s.gate.walker.cursor)) ∧
      ∀ z, (t.gate.zone z).sweep = sweepWithout s.gate e .current z ∧
        (offered → unblacked s.gate e z →
          (t.gate.zone z).fresh = withOffer e (freshWithout s.gate e .current z) sheet.number) ∧
        (¬ (offered ∧ unblacked s.gate e z) → (t.gate.zone z).fresh = freshWithout s.gate e .current z)

/-- OPEN_LEAD_INSTANT and OPEN_REPEAT, reached and next in order: the open entries of the sheets concerned are offered
to every driven zone outside the event's mask, their open marks are set, and no other zone changes; the lead instant is
removed, and the next repeat is one interval after site time. -/
def Obligations.OpenInstantsOfferEveryUnblackedZone : Prop :=
  ∀ (s : State) (e : EventIndex) (instant : Time),
    let ev := s.gate.event e
    Reached s.gate instant →
    (ev.openLead = some instant → (∀ next, ev.nextStarvation = some next → instant ≤ next) →
      (∀ again, ev.openRepeat = some again → instant ≤ again) →
      (ev.pendingSheet = none → exec (.openLeadInstant e) s
        = .next { s with gate := modEvent e (fun ev => { ev with openLead := none }) s.gate }) ∧
      (∀ sheet, ev.pendingSheet = some sheet → instant ≤ sheet.effective →
        ∃ t, exec (.openLeadInstant e) s = .next t ∧ t.pending = s.pending ∧
          t.gate = { s.gate with events := t.gate.events, zones := t.gate.zones } ∧
          t.gate.event e = { ev with openLead := none, pendingSheet := some { sheet with mark := true } } ∧
          (∀ f, f ≠ e → t.gate.event f = s.gate.event f) ∧
          (∀ z, unblacked s.gate e z → Offered t.gate e sheet.number z) ∧
          (∀ z, ¬ unblacked s.gate e z → t.gate.zone z = s.gate.zone z))) ∧
    (ev.openRepeat = some instant → (∀ lead, ev.openLead = some lead → instant < lead) →
      (∀ next, ev.nextStarvation = some next → instant < next) →
      (∀ sheet, ev.pendingSheet = some sheet → instant < sheet.effective) →
      ∃ t, exec (.openRepeat e) s = .next t ∧ t.pending = s.pending ∧
        t.gate = { s.gate with events := t.gate.events, zones := t.gate.zones } ∧
        t.gate.event e = { ev with
          openRepeat := some (timeAdd s.gate.clock.siteTime (s.gate.settings.repeatInterval.toNat * 1000))
          current := ev.current.map (fun sheet => { sheet with mark := true }) } ∧
        (∀ f, f ≠ e → t.gate.event f = s.gate.event f) ∧
        (∀ sheet z, ev.current = some sheet → unblacked s.gate e z → Offered t.gate e sheet.number z) ∧
        (∀ sheet z, ev.pendingSheet = some sheet → sheet.cls = .openClass → sheet.mark = true →
          unblacked s.gate e z → Offered t.gate e sheet.number z) ∧
        (∀ z, ¬ unblacked s.gate e z → t.gate.zone z = s.gate.zone z))

/-- STARVATION_INSTANT, reached and next in order: the instant moves on by one epoch. In PREVIEW, LIVE, EXTRA, WIND_DOWN
and STALLED the count rises by 1, KEY_LATE is posted from the warn threshold on, and a granting event stalls from the
stall threshold on; in every other phase nothing else changes. -/
def Obligations.StarvationInstantCountsAndStalls : Prop :=
  ∀ (s : State) (e : EventIndex) (instant : Time),
    let ev := s.gate.event e
    let next := timeAdd instant (ev.epoch.toNat * 1000)
    let count := min (ev.starvation.toNat + 1) 65535
    let stall := max s.gate.settings.stallThreshold.toNat (s.gate.settings.warnThreshold.toNat + 1)
    ev.nextStarvation = some instant → Reached s.gate instant →
    (∀ lead, ev.openLead = some lead → instant < lead) →
    (∀ sheet, ev.pendingSheet = some sheet → instant < sheet.effective) →
    (∀ again, ev.openRepeat = some again → instant ≤ again) →
    (ev.phase ∈ [Phase.vacant, .onSale, .closed, .retiring] →
      exec (.starvationInstant e) s
        = .next { s with gate := modEvent e (fun ev => { ev with nextStarvation := some next }) s.gate }) ∧
    (ev.phase ∈ [Phase.preview, .live, .extra, .windDown, .stalled] →
      ∃ t, exec (.starvationInstant e) s = .next t ∧
        (t.gate.event e).nextStarvation = some next ∧ (t.gate.event e).base = ev.base ∧
        (t.gate.event e).starvation.toNat = count ∧
        (t.gate.event e).phase = (if ev.phase ≠ .stalled ∧ stall ≤ count then .stalled else ev.phase) ∧
        (t.gate.event e).resumePhase = (if ev.phase ≠ .stalled ∧ stall ≤ count then some ev.phase else ev.resumePhase) ∧
        (s.gate.settings.warnThreshold.toNat ≤ count →
          ({ kind := .keyLate
             object := eventObject e
             detail := field 2 count ++ field 4 s.gate.clock.siteTime.toNat } : Item) ∈ t.gate.command.status) ∧
        (count < s.gate.settings.warnThreshold.toNat → t.gate.command = s.gate.command))

namespace Sys2Proof.Claims

open Sys2Proof Sys2Proof.Machine Sys2Proof.Safety

/-- What a step on one event leaves alone: every other event record; of its own record what LOAD_EVENT and AMEND_EVENT write,
the last cue sequence, the live counts and the recount flag; of each zone everything but queues and counters; of the Sweep
Walker everything but the legs; of the Command Unit everything but the status items; and every other block. -/
structure LeavesTheRest (e : EventIndex) (g h : Gate) : Prop where
  gate : h = { g with
    events := h.events
    walker := { g.walker with roster := h.walker.roster }
    zones := h.zones
    command := { g.command with status := h.command.status } }
  others : ∀ f, f ≠ e → h.event f = g.event f
  record : h.event e = { h.event e with
    number := (g.event e).number
    firstLane := (g.event e).firstLane
    moreLanes := (g.event e).moreLanes
    keyLane := (g.event e).keyLane
    alternateLane := (g.event e).alternateLane
    mask := (g.event e).mask
    ranges := (g.event e).ranges
    epoch := (g.event e).epoch
    previewLength := (g.event e).previewLength
    cutoff := (g.event e).cutoff
    extraLimit := (g.event e).extraLimit
    grace := (g.event e).grace
    lastCue := (g.event e).lastCue
    counts := (g.event e).counts
    recountFlag := (g.event e).recountFlag }
  zone : ∀ z, h.zone z = { g.zone z with
    fresh := (h.zone z).fresh, sweep := (h.zone z).sweep, counters := (h.zone z).counters }

end Sys2Proof.Claims

/-- The frame of what happens to one event: its instants, a key cell of its lane, and a task applied to it leave
every other event record and every other block alone, and of its own record what LOAD_EVENT and AMEND_EVENT write. The
scheduled start, which BACK_TO_SALE removes (R42), stays under every other task and step. -/
def Obligations.EventStepsLeaveTheRest : Prop :=
  (∀ (s : State) (e : EventIndex) (c : Instr),
    c ∈ [Instr.phaseDeadlineExpiry e, .promotion e, .openLeadInstant e, .openRepeat e, .starvationInstant e,
      .legLate e .current, .legLate e .pending] →
    ∃ t, exec c s = .next t ∧ t.pending = s.pending ∧ LeavesTheRest e s.gate t.gate ∧
      (t.gate.event e).scheduledStart = (s.gate.event e).scheduledStart) ∧
  (∀ (s : State) (e : EventIndex) (cell : List Byte), handed s (.key e cell) →
    ∃ t, exec .keyCell s = .next t ∧ t.pending = s.pending ∧
      LeavesTheRest e { s.gate with intake := { s.gate.intake with handoff := none } } t.gate ∧
      (t.gate.event e).scheduledStart = (s.gate.event e).scheduledStart) ∧
  (∀ (g h : Gate) (e : EventIndex) (task : PhaseTask) (minutes : Nat), applyTask e task minutes g = some h →
    LeavesTheRest e g h ∧
    (h.event e).scheduledStart = if task = .backToSale then none else (g.event e).scheduledStart)

/-! ## The Sweep Walker -/

/-- SWEEP_VISIT with a WALKING leg: where every sweep queue would then hold at most 160 cells and all of them at most 384
buffers, the visit is made at the walker's turn at the table (log 24), and the cursor moves on; otherwise the walker parks,
counted once, and nothing else changes. A visit changes legs, sweep queues and counters alone. -/
def Obligations.SweepVisitGoesAheadOrParks : Prop :=
  ∀ s : State, Walks s.gate →
    let v := visitBucket s.gate
    (BuffersFit s.gate → Turn s.gate .sweepWalker → ∃ t, exec .sweepVisit s = .next t ∧ t.pending = s.pending ∧
      t.gate = { s.gate with
        walker := { v.walker with parked := false }
        zones := v.zones
        events := v.events
        upkeep := { s.gate.upkeep with lastGrant := .sweepWalker } } ∧
      t.gate.walker.cursor.val = (s.gate.walker.cursor.val + 1) % 8192 ∧
      (∀ z, t.gate.zone z = { s.gate.zone z with
        sweep := (t.gate.zone z).sweep, counters := (t.gate.zone z).counters }) ∧
      ∀ e, t.gate.event e = { s.gate.event e with counters := (t.gate.event e).counters }) ∧
    (¬ BuffersFit s.gate →
      (s.gate.walker.parked = true → exec .sweepVisit s = .next s) ∧
      (s.gate.walker.parked = false → exec .sweepVisit s = .next { s with
        gate := bump .walkerParks { s.gate with walker := { s.gate.walker with parked := true } } }))

namespace Sys2Proof.Claims

open Sys2Proof Sys2Proof.Machine Sys2Proof.Safety

/-- R129: all the open cells of a leg have moved, zone by zone: the leg has become after, and nothing else has changed but the
zones, each as the move of that zone's cell leaves it. -/
structure Flushed (g h : Gate) (r : EventIndex × SheetSlot) (after : Leg) : Prop where
  gate : h = { g with zones := h.zones, walker := { g.walker with roster := h.walker.roster } }
  leg : h.leg r.1 r.2 = some after
  others : ∀ f slot, (f, slot) ≠ r → h.leg f slot = g.leg f slot
  zone : ∀ z, h.zone z = (moveCell r.1 r.2 z g).zone z

/-- R127: a leg with every cell moved: each cell is empty, and a first-lap leg counts its entries. -/
def emptied (leg : Leg) : Leg :=
  { leg with
    cells := Vector.replicate 4 []
    emitted :=
      if leg.walking = true ∧ leg.lap = 1 then Vector.ofFn (fun z : Fin 4 => leg.emitted[z] + leg.cells[z].length)
      else leg.emitted }

/-- R124: a leg WALKING on a later lap becomes WAITING and owes a flush; any other stays. -/
def suspended (leg : Leg) : Leg :=
  if leg.walking = true ∧ leg.lap ≠ 1 then { leg with walking := false, owesFlush := true } else leg

end Sys2Proof.Claims

/-- A visit places, in way order, the decoder of every record of the cursor's bucket that is grant-eligible for the
leg's event at the end of the leg's cell for the record's zone, and the leg's remaining count falls by 1: said of a
WALKING leg that owes no flush, whose lap does not end here and whose cells have room, at the walker's turn at the table
(log 24). And of every leg, one by one: a cell that moves goes to the tail of its zone's sweep queue as a notice of the sheet
held, and is empty; owed flushes and lap-end flushes move every cell; a placement by a late first-lap leg counts a late grant,
and a cell that reaches 48 moves at once; a lap that ends is counted, and the leg waits, resumes alone, or resumes with every
WAITING leg; a leg that joins suspends every later-lap leg, and the last first-lap leg that is dropped has every WAITING leg
resume. A visit takes these in R129's order. -/
def Obligations.SweepVisitPlacesGrantEligibleDecoders : Prop :=
  (∀ (s : State) (e : EventIndex) (slot : SheetSlot) (leg : Leg), s.gate.leg e slot = some leg →
    leg.walking = true → leg.owesFlush = false → 1 < leg.remaining.val →
    (∀ z : ZoneIndex, (leg.cells[z]).length + 4 < 48) → BuffersFit s.gate → Turn s.gate .sweepWalker →
    ∃ t after, exec .sweepVisit s = .next t ∧ t.gate.leg e slot = some after ∧
      after.walking = true ∧ after.lap = leg.lap ∧ after.remaining.val + 1 = leg.remaining.val ∧
      ∀ z : ZoneIndex, after.cells[z] = leg.cells[z] ++
        (bucketRecords s.gate.walker.cursor s.gate).filterMap (fun entry =>
          if grantEligible entry.2 e (s.gate.event e) = true ∧ entry.2.zone = z then some entry.2.decoder else none)) ∧
  (∀ (g : Gate) (e : EventIndex) (slot : SheetSlot) (z : ZoneIndex) (leg : Leg), g.leg e slot = some leg →
    (leg.cells[z] = [] → moveCell e slot z g = g) ∧
    (leg.cells[z] ≠ [] → ∃ effective blob, HeldMaterial (g.event e) leg.sheet effective blob ∧
      moveCell e slot z g = setLeg e slot
        (some { leg with
          cells := leg.cells.set z []
          emitted := if leg.walking = true ∧ leg.lap = 1 then leg.emitted.set z (leg.emitted[z] + leg.cells[z].length)
            else leg.emitted })
        (modZone z (fun zone => Zone.countBy .sweepCellsBuilt 1 { zone with
          sweep := zone.sweep ++
            [{ event := e
               eventNumber := (g.event e).number
               sheet := leg.sheet
               effective := effective
               blob := blob
               entries := leg.cells[z] }] }) g))) ∧
  (∀ (g : Gate) (r : EventIndex × SheetSlot) (leg : Leg), g.leg r.1 r.2 = some leg →
    (leg.owesFlush = false → flushOwed r g = g) ∧
    (leg.owesFlush = true → Flushed g (flushOwed r g) r { emptied leg with owesFlush := false }) ∧
    (¬ (leg.walking = true ∧ leg.remaining = 0) → flushLapEnd r g = g) ∧
    (leg.walking = true → leg.remaining = 0 → Flushed g (flushLapEnd r g) r (emptied leg))) ∧
  (∀ (g : Gate) (r : EventIndex × SheetSlot) (h : Holder) (leg : Leg), g.leg r.1 r.2 = some leg →
    let placed := setLeg r.1 r.2
      (some { leg with cells := leg.cells.set h.zone (leg.cells[h.zone] ++ [h.decoder]) })
      (if leg.lap = 1 ∧ leg.late = true then modZone h.zone (Zone.countBy .lateGrants 1) g else g)
    (¬ (leg.walking = true ∧ grantEligible h r.1 (g.event r.1) = true) → placeFor h r g = g) ∧
    (leg.walking = true → grantEligible h r.1 (g.event r.1) = true →
      placeFor h r g = if leg.cells[h.zone].length + 1 = 48 then moveCell r.1 r.2 h.zone placed else placed)) ∧
  (∀ (g : Gate) (r : EventIndex × SheetSlot) (leg : Leg), g.leg r.1 r.2 = some leg →
    let h := endLap r g
    let ended : Leg := { leg with walking := false, deadline := none }
    (¬ (leg.walking = true ∧ leg.remaining = 0) → h = g) ∧
    (leg.walking = true → leg.remaining = 0 →
      h = { bumpEvent r.1 .lapsCompleted g with walker := { g.walker with roster := h.walker.roster } } ∧
      (FirstLapLeft g r → h.leg r.1 r.2 = some ended ∧ ∀ f slot, (f, slot) ≠ r → h.leg f slot = g.leg f slot) ∧
      (¬ FirstLapLeft g r → h.leg r.1 r.2 = some (onNextLap g.walker.cursor ended)) ∧
      (¬ FirstLapLeft g r → leg.lap = 1 → ∀ f slot, (f, slot) ≠ r → h.leg f slot
        = (g.leg f slot).map (resumed g.walker.cursor)) ∧
      (¬ FirstLapLeft g r → leg.lap ≠ 1 → ∀ f slot, (f, slot) ≠ r → h.leg f slot = g.leg f slot))) ∧
  (∀ (g : Gate) (r : EventIndex × SheetSlot) (sheet : Sheet), g.sheet r.1 r.2 = some sheet → g.leg r.1 r.2 = none →
    ∀ f slot, (f, slot) ≠ r → (joinLeg r.1 r.2 g).leg f slot = (g.leg f slot).map suspended) ∧
  (∀ (g : Gate) (r : EventIndex × SheetSlot) (leg : Leg), g.leg r.1 r.2 = some leg →
    let h := dropLeg r.1 r.2 g
    let last := leg.walking = true ∧ leg.lap = 1 ∧ ¬ FirstLapLeft g r
    h = { g with walker := { g.walker with roster := h.walker.roster } } ∧ h.leg r.1 r.2 = none ∧
    (last → ∀ f slot, (f, slot) ≠ r → h.leg f slot = (g.leg f slot).map (resumed g.walker.cursor)) ∧
    (¬ last → ∀ f slot, (f, slot) ≠ r → h.leg f slot = g.leg f slot)) ∧
  (∀ g : Gate,
    let flushed := rosterOrder.foldl (fun acc r => flushOwed r acc) g
    let placed := (bucketRecords g.walker.cursor g).foldl
      (fun acc entry => rosterOrder.foldl (fun acc r => placeFor entry.2 r acc) acc) flushed
    let stepped := mapLegs (fun leg =>
      if leg.walking = true then { leg with remaining := Fin.ofNat 8193 (leg.remaining.val - 1) } else leg) placed
    let moved := rosterOrder.foldl (fun acc r => flushLapEnd r acc) stepped
    visitBucket g = rosterOrder.foldl (fun acc r => endLap r acc)
      { moved with walker := { moved.walker with cursor := Fin.ofNat 8192 (g.walker.cursor.val + 1) } })

/-! ## Eligibility, the Holder Table and the maintenance walker -/

/-- R100–R102: eligibility and grant-eligibility of a holder record for an event. A fresh queue takes an offer: merged
into an identical entry, refused when full, or joined at the tail; and the fresh rule offers a sheet's listed entry unless
the sheet's leg is WALKING and has yet to visit the record's bucket in its lap, and offers nothing outside the LISTED
phases. -/
def Obligations.EligibilityAndFreshRule : Prop :=
  (∀ (h : Holder) (e : EventIndex) (ev : Event),
      (eligible h e ev = true ↔
        h.barred = false ∧
        (h.exempt = true ∨ ∀ range ∈ ev.ranges, ¬ (range.low ≤ h.region ∧ h.region ≤ range.high)) ∧
        (h.grants.getLsbD e.val = true ∨ (h.bought.getLsbD e.val = true ∧ h.denies.getLsbD e.val = false))) ∧
      (grantEligible h e ev = true ↔ eligible h e ev = true ∧ ev.mask.getLsbD h.zone.val = false)) ∧
  (∀ (entry : FreshEntry) (z : ZoneIndex) (g : Gate),
    (entry ∈ (g.zone z).fresh → offerFresh entry z g = modZone z (Zone.countBy .mergedEntries 1) g) ∧
    (entry ∉ (g.zone z).fresh → 256 ≤ (g.zone z).fresh.length →
      offerFresh entry z g = modZone z (Zone.countBy .freshOverflows 1) g) ∧
    (entry ∉ (g.zone z).fresh → (g.zone z).fresh.length < 256 →
      offerFresh entry z g
        = modZone z (fun zone => Zone.countBy .entriesQueued 1 { zone with fresh := zone.fresh ++ [entry] }) g)) ∧
  (∀ (h : Holder) (e : EventIndex) (g : Gate), (g.event e).phase ∉ [Phase.live, .extra, .windDown] →
    freshRule h e g = g) ∧
  (∀ (h : Holder) (e : EventIndex) (g : Gate), (g.event e).phase ∈ [Phase.live, .extra, .windDown] →
    freshRule h e g = freshForSheet h e .pending (freshForSheet h e .current g)) ∧
  (∀ (h : Holder) (e : EventIndex) (slot : SheetSlot) (g : Gate), g.sheet e slot = none →
    freshForSheet h e slot g = g) ∧
  (∀ (h : Holder) (e : EventIndex) (slot : SheetSlot) (g : Gate) (sheet : Sheet), g.sheet e slot = some sheet →
    let b := (bucketOf h.decoder).val
    let ahead := ∃ leg, g.leg e slot = some leg ∧ leg.walking = true ∧
      ¬ ((b + 8192 - leg.join.val) % 8192 < 8192 - leg.remaining.val)
    (ahead → freshForSheet h e slot g = g) ∧
    (¬ ahead → freshForSheet h e slot g
      = offerFresh { form := .listed, decoder := h.decoder, event := e, sheet := sheet.number } h.zone g))

/-- R82: the bucket of a decoder number is its low 13 bits exclusive-or its high 11 bits; a record of a well-formed table
stands in its number's bucket; and a lookup depends on the four ways of that bucket alone. -/
def Obligations.BucketRule : Prop :=
  (∀ d : Decoder, (bucketOf d).val = (d.toNat % 8192) ^^^ (d.toNat / 8192) ∧ d.toNat / 8192 < 2048) ∧
  (∀ (holders : List (Nat × Holder)) (key : Nat) (h : Holder), HoldersOk holders →
    Sparse.get holders key = some h → key / 4 = (bucketOf h.decoder).val) ∧
  (∀ (s t : State) (key : Nat) (h : Holder), HoldersOk s.gate.holders → step s = .next t →
    Sparse.get t.gate.holders key = some h → key / 4 = (bucketOf h.decoder).val) ∧
  (∀ (d : Decoder) (g h : Gate),
    (∀ way, way < 4 → Sparse.get g.holders ((bucketOf d).val * 4 + way) = Sparse.get h.holders ((bucketOf d).val * 4 + way)) →
    findHolder d g = findHolder d h) ∧
  (∀ (d : Decoder) (g : Gate) (key : Nat) (h : Holder), findHolder d g = some (key, h) →
    Sparse.get g.holders key = some h ∧ h.decoder = d ∧ key / 4 = (bucketOf d).val)

namespace Sys2Proof.Claims

open Sys2Proof Sys2Proof.Machine Sys2Proof.Safety

/-- R90, R92: a recount of event e is running, on its own or carried by a RETIRE, and has visited the bucket of a key. -/
def Shadowed (g : Gate) (e : EventIndex) (key : Nat) : Prop :=
  key / 4 < g.upkeep.cursor.val ∧
    (g.upkeep.tasks.head? = some (.recount e) ∨ g.upkeep.tasks.head? = some (.retire e true))

/-- R86, R117: a change makes a record grant-eligible for event e on its zone. -/
def NewlyGranted (g : Gate) (before : Option Holder) (after : Holder) (e : EventIndex) : Prop :=
  grantEligible after e (g.event e) = true ∧
    ¬ ∃ r, before = some r ∧ grantEligible r e (g.event e) = true ∧ r.zone = after.zone

/-- R141: the leg of a sheet slot is WALKING and has yet to visit a decoder's bucket in its lap. -/
def LegAhead (g : Gate) (e : EventIndex) (slot : SheetSlot) (d : Decoder) : Prop :=
  ∃ leg, g.leg e slot = some leg ∧ leg.walking = true ∧
    ¬ (((bucketOf d).val + 8192 - leg.join.val) % 8192 < 8192 - leg.remaining.val)

/-- R141: the fresh rule offers an entry on zone z for a record as it stands after a change. -/
def HandsOn (g : Gate) (before : Option Holder) (after : Holder) (entry : FreshEntry) (z : ZoneIndex) : Prop :=
  z = after.zone ∧ ∃ e slot sheet, NewlyGranted g before after e ∧
    (g.event e).phase ∈ [Phase.live, .extra, .windDown] ∧ g.sheet e slot = some sheet ∧
    ¬ LegAhead g e slot after.decoder ∧
    entry = { form := .listed, decoder := after.decoder, event := e, sheet := sheet.number }

/-- R94: what an AGE_SCAN leaves of a record. -/
def aged (h : Holder) : Option Holder :=
  if h.isStatic = true ∨ h.barred = true then some h
  else if h.bought = 0 ∧ h.grants = 0 ∧ h.denies = 0 then
    (if h.ageMark = true then some { h with ageMark := false } else none)
  else some { h with ageMark := true }

/-- How many of a record that may not be there is eligible for event e on zone z: 0 or 1. -/
def eligibleOn (g : Gate) (e : EventIndex) (z : ZoneIndex) (h : Option Holder) : Nat :=
  if h.any (fun r => eligible r e (g.event e) && decide (r.zone = z)) then 1 else 0

/-- R90: how many records of a bucket are eligible for event e on zone z. -/
def eligibleIn (g : Gate) (b : Bucket) (e : EventIndex) (z : ZoneIndex) : Nat :=
  ((bucketRecords b g).filter (fun entry => eligible entry.2 e (g.event e) && decide (entry.2.zone = z))).length

/-- R94: how many records of a bucket an AGE_SCAN removes. -/
def agedOut (g : Gate) (b : Bucket) : Nat :=
  ((bucketRecords b g).filter (fun entry => (aged entry.2).isNone)).length

/-- R86, R89: a decoder whose record, in bucket b, loses event e on zone z, where it was grant-eligible for it. -/
def losesOn (g : Gate) (b : Bucket) (e : EventIndex) (z : ZoneIndex) (d : Decoder) : Bool :=
  (bucketRecords b g).any (fun entry =>
    grantEligible entry.2 e (g.event e) && decide (entry.2.zone = z) && decide (entry.2.decoder = d))

/-- R86, R89: a RETIRE visit has cleared index e from the records of bucket b: no other event record and no other event's leg
has changed; and the decoders that were grant-eligible for e have lost their listed entries and their places in e's cells, each
on its own zone. -/
structure IndexCleared (b : Bucket) (e : EventIndex) (g h : Gate) : Prop where
  holders : ∀ key, Sparse.get h.holders key
    = if key / 4 = b.val then (Sparse.get g.holders key).map (Holder.forget e) else Sparse.get g.holders key
  others : ∀ f, f ≠ e → h.event f = g.event f
  otherLegs : ∀ f slot, f ≠ e → h.leg f slot = g.leg f slot
  legs : ∀ slot, h.leg e slot = (g.leg e slot).map (fun leg =>
    { leg with cells := Vector.ofFn (fun z : Fin 4 => leg.cells[z].filter (fun d => !losesOn g b e z d)) })
  zone : ∀ z, h.zone z = { g.zone z with
    fresh := (g.zone z).fresh.filter (fun entry =>
      !(decide (entry.form = .listed) && decide (entry.event = e) && losesOn g b e z entry.decoder)) }

end Sys2Proof.Claims

/-- A record change: the live count of the old zone falls where the record was eligible and that of the new zone rises
where it now is, for every event (while no count leaves 0–32,768), and the shadow counts of a recount that has visited the
bucket move with them; where grant-eligibility for an event ends on a zone, the decoder's listed entries and placements for it
are gone from that zone; where it begins, in a LISTED phase, a listed entry for each sheet whose leg will not come by joins the
zone's fresh queue unless that is full, and no other entry joins a queue; and the table's entry is written. -/
def Obligations.RecordChangeMovesCountsAndPurges : Prop :=
  ∀ (g : Gate) (key : Nat) (before after : Option Holder),
    let h := changeRecord key before after g
    h.holders = (writeHolder key after g).holders ∧
    (∀ (e : EventIndex) (z : ZoneIndex),
      (∀ r, before = some r → eligible r e (g.event e) = true → 0 < ((g.event e).counts[r.zone]).val) →
      (∀ r, after = some r → eligible r e (g.event e) = true → ((g.event e).counts[r.zone]).val < 32768) →
      ((h.event e).counts[z]).val
          + eligibleOn g e z before
        = ((g.event e).counts[z]).val
          + eligibleOn g e z after) ∧
    (∀ (e : EventIndex) (z : ZoneIndex), Shadowed g e key →
      (∀ r, before = some r → eligible r e (g.event e) = true → 0 < (g.upkeep.shadow[r.zone]).val) →
      (∀ r, after = some r → eligible r e (g.event e) = true → (g.upkeep.shadow[r.zone]).val < 32768) →
      (h.upkeep.shadow[z]).val + eligibleOn g e z before = (g.upkeep.shadow[z]).val + eligibleOn g e z after) ∧
    ((∀ e, ¬ Shadowed g e key) → h.upkeep = g.upkeep) ∧
    h.upkeep = { g.upkeep with shadow := h.upkeep.shadow } ∧
    (∀ r entry z, after = some r → HandsOn g before r entry z →
      entry ∈ (h.zone z).fresh ∨ 256 ≤ (h.zone z).fresh.length) ∧
    (∀ z, ∀ entry ∈ (h.zone z).fresh,
      entry ∈ (g.zone z).fresh ∨ ∃ r, after = some r ∧ HandsOn g before r entry z) ∧
    (∀ (e : EventIndex) (r : Holder), before = some r → grantEligible r e (g.event e) = true →
      ¬ after.any (fun r' => grantEligible r' e (g.event e) && decide (r'.zone = r.zone)) = true →
      (∀ entry ∈ (h.zone r.zone).fresh, ¬ (entry.form = .listed ∧ entry.decoder = r.decoder ∧ entry.event = e)) ∧
      ∀ slot leg, h.leg e slot = some leg → r.decoder ∉ leg.cells[r.zone])

/-- MAINTENANCE_VISIT of a bucket that is not the last, at the maintenance walker's turn at the table (log 24): the cursor
moves on by one; a RECOUNT adds the bucket's eligible records to the shadow counts and changes nothing else; a RETIRE clears
the event's index from the bucket's records, with the live counts and the delivery work that go with their eligibility, and
changes nothing else; an AGE_SCAN marks, unmarks or removes the bucket's LEARNED records that are not barred, counts the
records removed, and changes nothing else. -/
def Obligations.MaintenanceVisitAppliesItsTask : Prop :=
  ∀ (s : State) (task : Task) (rest : List Task), s.gate.upkeep.tasks = task :: rest →
    s.gate.upkeep.cursor.val < 8191 → Turn s.gate .maintenanceWalker →
    let b : Bucket := Fin.ofNat 8192 s.gate.upkeep.cursor.val
    ∃ t, exec .maintenanceVisit s = .next t ∧ t.pending = s.pending ∧
      t.gate.upkeep = { s.gate.upkeep with
        cursor := Fin.ofNat 8193 (s.gate.upkeep.cursor.val + 1)
        shadow := t.gate.upkeep.shadow
        lastGrant := .maintenanceWalker } ∧
      (∀ e, task = .recount e →
        t.gate = { s.gate with upkeep := t.gate.upkeep, freeDraws := t.gate.freeDraws } ∧
        ∀ z : ZoneIndex, (s.gate.upkeep.shadow[z]).val + eligibleIn s.gate b e z ≤ 32768 →
          (t.gate.upkeep.shadow[z]).val = (s.gate.upkeep.shadow[z]).val + eligibleIn s.gate b e z) ∧
      (∀ e carried, task = .retire e carried →
        t.gate = { s.gate with
          freeDraws := t.gate.freeDraws
          events := t.gate.events
          holders := t.gate.holders
          upkeep := { t.gate.upkeep with shadow := s.gate.upkeep.shadow }
          walker := { s.gate.walker with roster := t.gate.walker.roster }
          zones := t.gate.zones } ∧
        IndexCleared b e s.gate t.gate ∧
        t.gate.event e = { s.gate.event e with counts := (t.gate.event e).counts } ∧
        ∀ z : ZoneIndex, eligibleIn s.gate b e z ≤ ((s.gate.event e).counts[z]).val →
          ((t.gate.event e).counts[z]).val + eligibleIn s.gate b e z = ((s.gate.event e).counts[z]).val) ∧
      (task = .ageScan →
        t.gate = { s.gate with
          holders := t.gate.holders
          upkeep := { t.gate.upkeep with shadow := s.gate.upkeep.shadow }
          counters := t.gate.counters } ∧
        (∀ k, partCount t.gate k
          = if k = .recordsAgedOut then countUp (partCount s.gate k) (agedOut s.gate b) else partCount s.gate k) ∧
        ∀ key, Sparse.get t.gate.holders key
          = if key / 4 = b.val then (Sparse.get s.gate.holders key).bind aged else Sparse.get s.gate.holders key)

/-- MAINTENANCE_VISIT of bucket 8,191, at the maintenance walker's turn at the table (log 24), ends the walk and the next task
begins at bucket 0. After a RETIRE walk the event is VACANT, its lanes are free, its key reference is absent and PHASE is
posted; after a RECOUNT the shadow counts with the last bucket's records are the live counts, the recount flag is clear and
RECOUNT_DONE, with their sum and the site time, is posted and counted; an AGE_SCAN marks, unmarks or removes the last bucket's
LEARNED records that are not barred and counts those it removes. Each changes nothing else. That the shadow counts are 0
where the next task carries no recount is the model's choice (log 43). -/
def Obligations.WalkEndFinishesItsTask : Prop :=
  ∀ (s : State) (task : Task) (rest : List Task), s.gate.upkeep.tasks = task :: rest →
    s.gate.upkeep.cursor.val = 8191 → Turn s.gate .maintenanceWalker →
    ∃ t, exec .maintenanceVisit s = .next t ∧ t.pending = s.pending ∧
      t.gate.upkeep = { s.gate.upkeep with
        tasks := rest
        cursor := if rest = [] then 8192 else 0
        shadow := t.gate.upkeep.shadow
        lastGrant := .maintenanceWalker } ∧
      (rest ≠ [] → ∀ z : ZoneIndex, t.gate.upkeep.shadow[z] = 0) ∧
      (∀ e carried, task = .retire e carried →
        t.gate = { s.gate with
          freeDraws := t.gate.freeDraws
          intake := { s.gate.intake with keyRefs := s.gate.intake.keyRefs.set e none }
          lanes := s.gate.lanes.filter (fun entry => !decide (entry.2.owner = e))
          events := s.gate.events.set e Event.vacant
          holders := t.gate.holders
          upkeep := t.gate.upkeep
          walker := { s.gate.walker with roster := t.gate.walker.roster }
          zones := t.gate.zones
          command := { s.gate.command with
            status := insertItem
              { kind := .phase
                object := eventObject e
                detail := [(s.gate.event e).phase.number, 0] ++ field 4 s.gate.clock.siteTime.toNat }
              s.gate.command.status } } ∧
        IndexCleared 8191 e s.gate t.gate) ∧
      (∀ e, task = .recount e →
        let counts := (t.gate.event e).counts
        t.gate = { s.gate with
          freeDraws := t.gate.freeDraws
          events := s.gate.events.set e { s.gate.event e with counts := counts, recountFlag := false }
          upkeep := t.gate.upkeep
          command := { s.gate.command with
            status := insertItem
              { kind := .recountDone
                object := eventObject e
                detail := field 2 ((counts[0]).val + (counts[1]).val + (counts[2]).val + (counts[3]).val)
                  ++ field 4 s.gate.clock.siteTime.toNat }
              s.gate.command.status }
          counters := (bump .recountsCompleted s.gate).counters } ∧
        ∀ z : ZoneIndex, (s.gate.upkeep.shadow[z]).val + eligibleIn s.gate 8191 e z ≤ 32768 →
          (counts[z]).val = (s.gate.upkeep.shadow[z]).val + eligibleIn s.gate 8191 e z) ∧
      (task = .ageScan →
        t.gate = { s.gate with
          holders := t.gate.holders
          upkeep := t.gate.upkeep
          counters := t.gate.counters } ∧
        (∀ k, partCount t.gate k
          = if k = .recordsAgedOut then countUp (partCount s.gate k) (agedOut s.gate 8191) else partCount s.gate k) ∧
        ∀ key, Sparse.get t.gate.holders key
          = if key / 4 = 8191 then (Sparse.get s.gate.holders key).bind aged else Sparse.get s.gate.holders key)

/-- LEG_LATE: a leg whose lateness deadline is reached, none of the roster's being earlier, becomes late if it is a
first-lap leg, and is counted and posted; otherwise only the deadline is removed. AGE_INSTANT, reached: an AGE_SCAN joins
the maintenance list unless one is in it, a list that was empty begins its walk, and the next instant is one aging period
after site time. That the shadow counts become 0 as the scan begins is the model's choice (log 43). -/
def Obligations.LatenessAndAgeInstants : Prop :=
  (∀ (s : State) (e : EventIndex) (slot : SheetSlot) (leg : Leg) (deadline : Time),
      s.gate.leg e slot = some leg → leg.deadline = some deadline → Reached s.gate deadline →
      (∀ f other l u, s.gate.leg f other = some l → l.deadline = some u → deadline ≤ u) →
      (leg.walking = true → leg.lap = 1 →
        exec (.legLate e slot) s = .next { s with
          gate := post .legLate (eventObject e) (field 4 leg.sheet.toNat ++ field 2 leg.remaining.val)
            (bumpEvent e .lateLegs (setLeg e slot (some { leg with late := true, deadline := none }) s.gate)) }) ∧
      (¬ (leg.walking = true ∧ leg.lap = 1) →
        exec (.legLate e slot) s
          = .next { s with gate := setLeg e slot (some { leg with deadline := none }) s.gate })) ∧
  (∀ s : State, Reached s.gate s.gate.upkeep.ageInstant →
      let next := timeAdd s.gate.clock.siteTime (s.gate.settings.agingPeriod.toNat * 60000)
      (Task.ageScan ∈ s.gate.upkeep.tasks →
        exec .ageInstant s = .next { s with
          gate := { s.gate with upkeep := { s.gate.upkeep with ageInstant := next } } }) ∧
      (s.gate.upkeep.tasks = [] →
        exec .ageInstant s = .next { s with
          gate := { s.gate with
            upkeep := { s.gate.upkeep with
              tasks := [.ageScan], cursor := 0, shadow := Vector.replicate 4 0, ageInstant := next } } }) ∧
      (Task.ageScan ∉ s.gate.upkeep.tasks → s.gate.upkeep.tasks ≠ [] →
        exec .ageInstant s = .next { s with
          gate := { s.gate with
            upkeep := { s.gate.upkeep with tasks := s.gate.upkeep.tasks ++ [.ageScan], ageInstant := next } } }))

/-! ## Command queue, replies and status cells -/

namespace Sys2Proof.Claims

open Sys2Proof Sys2Proof.Machine Sys2Proof.Safety

/-- R169: the unit address. -/
def unitOf (g : Gate) : Byte :=
  if g.loader.unitStraps = 255 then 0 else g.loader.unitStraps

/-- Table 77: the command codes, each with the row that executes it. -/
def codeTable : List (Byte × Instr) :=
  [(0x10, .loadEvent), (0x11, .amendEvent), (0x12, .steerEvent), (0x13, .retireEvent), (0x14, .readEvent),
    (0x20, .purchase), (0x21, .cancel), (0x22, .putHolder), (0x23, .dropHolder), (0x24, .force), (0x25, .release)]
  ++ [(0x26, .bar), (0x27, .unbar), (0x28, .readHolder), (0x29, .dump), (0x30, .setZone), (0x31, .setProfile),
    (0x32, .setCueMap), (0x33, .setTiming), (0x34, .readCounters), (0x35, .saveImage), (0x36, .restart)]

end Sys2Proof.Claims

/-- MANAGEMENT_CELL: a cell for another unit and a cell that finds 32 in the queue are counted and change nothing else;
any other joins the queue, and sets the busy flag with QUEUE BUSY where it brings a clear flag's queue to 24. A leaving
that brings a busy queue to 8 clears the flag with QUEUE CLEAR. -/
def Obligations.ManagementCellJoinsTheQueue : Prop :=
  (∀ (s : State) (cell : List Byte), handed s (.management cell) →
    let g : Gate := { s.gate with intake := { s.gate.intake with handoff := none } }
    let addressed := byteAt cell 5 = unitOf s.gate ∨ byteAt cell 5 = 255
    (¬ addressed → exec .managementCell s = .next { s with gate := bump .commandsForOthers g }) ∧
    (addressed → 32 ≤ s.gate.command.queue.length →
      exec .managementCell s = .next { s with gate := bump .commandsDropped g }) ∧
    (addressed → s.gate.command.queue.length < 32 →
      (s.gate.command.queue.length = 23 → s.gate.command.busy = false →
        exec .managementCell s = .next { s with
          gate := { bump .commandsAccepted g with
            command := { s.gate.command with
              queue := s.gate.command.queue ++ [cell]
              busy := true
              status := insertItem { kind := .queue, object := 0xFF, detail := [0x01, 24, 0, 0, 0, 0] }
                s.gate.command.status } } }) ∧
      (¬ (s.gate.command.queue.length = 23 ∧ s.gate.command.busy = false) →
        exec .managementCell s = .next { s with
          gate := { bump .commandsAccepted g with
            command := { s.gate.command with queue := s.gate.command.queue ++ [cell] } } }))) ∧
  (∀ (g : Gate) (cell : List Byte) (rest : List (List Byte)), g.command.queue = cell :: rest →
    (rest.length = 8 → g.command.busy = true →
      leaveQueue g = { g with
        command := { g.command with
          queue := rest
          busy := false
          status := insertItem { kind := .queue, object := 0xFF, detail := [0x02, 8, 0, 0, 0, 0] }
            g.command.status } }) ∧
    (¬ (rest.length = 8 ∧ g.command.busy = true) →
      leaveQueue g = { g with command := { g.command with queue := rest } }))

/-- RETURN_SLOT: the head reply leaves, else a status cell with the items of up to 28 oldest keys, else an idle cell; and
an idle cell during the image load. Reply and status cells carry the reply-lane continuity, which advances. The output
holding the cell of its latest slot is the model's choice (log 16). -/
def Obligations.ReturnSlotSendsInOrder : Prop :=
  ∀ s : State,
    let g := s.gate
    let idle : State := { s with gate := { g with output := { g.output with port := some idleCell } } }
    let busyBit : Byte := if g.command.busy = true then 1 else 0
    (g.loader.loading = true → exec .returnSlot s = .next idle) ∧
    (g.loader.loading = false →
      (g.command.replies = [] → g.command.status = [] → exec .returnSlot s = .next idle) ∧
      (∀ reply rest, g.command.replies = reply :: rest →
        exec .returnSlot s = .next { s with
          gate := bump .repliesSent { g with
            command := { g.command with replies := rest }
            output :=
              { continuity := g.output.continuity + 1
                port := some (controlCell 4090 g.output.continuity
                  ([unitOf g] ++ field 2 reply.tag.toNat ++ [reply.code, reply.result.code, busyBit,
                    BitVec.ofNat 8 reply.body.length] ++ reply.body)) } } }) ∧
      (g.command.replies = [] → g.command.status ≠ [] →
        let items := g.command.status.take 28
        exec .returnSlot s = .next { s with
          gate := bump .statusCellsSent { g with
            command := { g.command with status := g.command.status.drop 28 }
            output :=
              { continuity := g.output.continuity + 1
                port := some (controlCell 4090 g.output.continuity
                  ([unitOf g, 0, 0, 0, 0, busyBit, BitVec.ofNat 8 (1 + 8 * items.length), BitVec.ofNat 8 items.length]
                    ++ items.flatMap (fun item => [item.kind.number, item.object] ++ padTo 6 item.detail))) } } }))

/-- A command of no known code is answered UNKNOWN_COMMAND whatever its length, and a known one with a body length above
228 BAD_FORM; either way nothing changes but the queue, the reply and the count of commands executed. A reply joins the
reply queue at its tail. A row whose command is not at the head, or may not yet begin, changes nothing: the model's
choice (log 1). -/
def Obligations.CommandsTurnedAwayUnread : Prop :=
  (∀ (s : State) (cell : List Byte) (rest : List (List Byte)), s.gate.command.queue = cell :: rest →
    s.gate.command.work = .ready → s.gate.command.replies.length < 16 →
    let q := requestOf cell
    (q.code ∉ codeTable.map Prod.fst → exec .unknownCommand s = .next (turnedAway s q .unknownCommand)) ∧
    (∀ c, (q.code, c) ∈ codeTable → 228 < q.length → exec c s = .next (turnedAway s q .badForm)) ∧
    (∀ code c, (code, c) ∈ codeTable → q.code ≠ code → exec c s = .next s)) ∧
  (∀ (s : State) (code : Byte) (c : Instr), (code, c) ∈ codeTable ∨ c = .unknownCommand →
    s.gate.command.work ≠ .ready ∨ 16 ≤ s.gate.command.replies.length → exec c s = .next s) ∧
  (∀ (tag : Half) (code : Byte) (r : Result) (body : List Byte) (g : Gate),
    placeReply tag code r body g = { g with
      command := { g.command with
        replies := g.command.replies ++ [{ tag := tag, code := code, result := r, body := body }] }
      counters := (bump .commandsExecuted g).counters })

/-! ## Commands on event records -/

namespace Sys2Proof.Claims

open Sys2Proof Sys2Proof.Machine Sys2Proof.Safety

/-- R34: the content lanes of a LOAD_EVENT body. -/
def loadLanes (body : List Byte) : List Half :=
  (List.range (byteAt body 2).toNat).map (fun i => halfAt body (4 + 2 * i))

/-- R34: where the key lane stands. -/
def keyAt (body : List Byte) : Nat :=
  4 + 2 * (byteAt body 2).toNat

/-- R34: the blackout ranges of a LOAD_EVENT body. -/
def loadRanges (body : List Byte) : List Range :=
  (List.range (byteAt body 3).toNat).map (fun i =>
    { low := halfAt body (keyAt body + 5 + 4 * i), high := halfAt body (keyAt body + 7 + 4 * i) })

/-- R34: where the epoch length stands. -/
def epochAt (body : List Byte) : Nat :=
  keyAt body + 5 + 4 * (byteAt body 3).toNat

/-- R34: every lane the body names: content lanes, key lane, and the alternate lane unless it is 0xFFFF. -/
def loadNamed (body : List Byte) : List Half :=
  loadLanes body ++ [halfAt body (keyAt body)]
    ++ (if halfAt body (keyAt body + 2) = 0xFFFF then [] else [halfAt body (keyAt body + 2)])

/-- R34, first step. -/
abbrev LoadForm (q : Request) : Prop :=
  4 ≤ q.length ∧ q.length = 21 + 2 * (byteAt q.body 2).toNat + 4 * (byteAt q.body 3).toNat

/-- R34, second step: every field in its range, with the strapped zone count taken from the straps (R169). -/
abbrev LoadRange (g : Gate) (body : List Byte) : Prop :=
  1 ≤ (byteAt body 2).toNat ∧ (byteAt body 2).toNat ≤ 6 ∧ (byteAt body 3).toNat ≤ 8 ∧
    (∀ lane ∈ loadNamed body, lane.toNat ≤ 4095) ∧
    (byteAt body (keyAt body + 4)).toNat < 2 ^ (g.loader.zoneStraps.toNat + 1) ∧
    (∀ range ∈ loadRanges body, range.low ≤ range.high) ∧
    (byteAt body (epochAt body + 2)).toNat ≤ 120 ∧
    ((byteAt body (epochAt body + 9)).toNat ≤ 240 ∨ byteAt body (epochAt body + 9) = 255) ∧
    (byteAt body (epochAt body + 10)).toNat ≤ 120

/-- R34, R35: the scheduled start of a LOAD_EVENT body, absent where all ones. -/
def loadStart (body : List Byte) : Option Time :=
  if timeAt body (epochAt body + 3) = BitVec.allOnes 48 then none else some (timeAt body (epochAt body + 3))

/-- R7: a named lane may be claimed. -/
abbrev LanesFree (g : Gate) (body : List Byte) : Prop :=
  (∀ lane ∈ loadNamed body, g.laneKind (BitVec.ofNat 12 lane.toNat) = .free) ∧ (loadNamed body).Nodup

end Sys2Proof.Claims

/-- LOAD_EVENT: refused at the first of form, range, identity, room and lanes that fails, with nothing changed; else the
lowest VACANT record takes the fields, clamped, the lanes named and nothing else change kind, the key reference is absent
and the substitute counters for the index are 0, PHASE from VACANT to ON_SALE is posted, and the reply is OK with the
index. -/
def Obligations.LoadEventTakesTheLowestVacantRecord : Prop :=
  ∀ (s : State) (q : Request), Begins s.gate q → q.code = 0x10 →
    let g := s.gate
    let body := q.body
    let number := halfAt body 0
    (¬ LoadForm q → exec .loadEvent s = .next (turnedAway s q .badForm)) ∧
    (LoadForm q → ¬ LoadRange g body → exec .loadEvent s = .next (turnedAway s q .range)) ∧
    (LoadForm q → LoadRange g body →
      (∀ e, g.findEvent number = some e → (g.event e).phase = .retiring →
        exec .loadEvent s = .next (turnedAway s q .busy)) ∧
      (∀ e, g.findEvent number = some e → (g.event e).phase ≠ .retiring →
        exec .loadEvent s = .next (turnedAway s q .duplicateEvent)) ∧
      (g.findEvent number = none → (∀ e, occupied g e) → exec .loadEvent s = .next (turnedAway s q .noRoom)) ∧
      (∀ e, g.findEvent number = none → ¬ occupied g e → (∀ f, f < e → occupied g f) →
        (¬ LanesFree g body → exec .loadEvent s = .next (turnedAway s q .laneTaken)) ∧
        (LanesFree g body → ∃ t, exec .loadEvent s = .next t ∧
          t.pending = s.pending ∧
          t.gate = { g with
            intake := { g.intake with keyRefs := g.intake.keyRefs.set e none }
            lanes := t.gate.lanes
            events := g.events.set e (t.gate.event e)
            zones := t.gate.zones
            command := { (leaveQueue g).command with
              replies := g.command.replies
                ++ [{ tag := q.tag, code := 0x10, result := .ok, body := [BitVec.ofNat 8 e.val] }]
              status := insertItem
                { kind := .phase
                  object := eventObject e
                  detail := [0, 1] ++ field 4 g.clock.siteTime.toNat }
                (leaveQueue g).command.status }
            counters := (bump .commandsExecuted g).counters } ∧
          (∀ z, t.gate.zone z = { g.zone z with substitutes := (g.zone z).substitutes.set e 0 }) ∧
          (∀ lane : Lane, t.gate.laneKind lane
            = if lane.toNat ∈ (loadLanes body).map BitVec.toNat then .content e
              else if lane.toNat = (halfAt body (keyAt body)).toNat then .key e
              else if lane.toNat = (halfAt body (keyAt body + 2)).toNat then .alternate e
              else g.laneKind lane) ∧
          t.gate.event e = { Event.vacant with
            number := number
            phase := .onSale
            firstLane := BitVec.ofNat 12 (halfAt body 4).toNat
            moreLanes := (loadLanes body).tail.map (fun lane => BitVec.ofNat 12 lane.toNat)
            keyLane := BitVec.ofNat 12 (halfAt body (keyAt body)).toNat
            alternateLane :=
              if halfAt body (keyAt body + 2) = 0xFFFF then none
              else some (BitVec.ofNat 12 (halfAt body (keyAt body + 2)).toNat)
            mask := (byteAt body (keyAt body + 4)).setWidth 4
            ranges := loadRanges body
            epoch := BitVec.ofNat 16 (max 10 (min (halfAt body (epochAt body)).toNat 600))
            previewLength := byteAt body (epochAt body + 2)
            scheduledStart := loadStart body
            cutoff := byteAt body (epochAt body + 9)
            extraLimit := byteAt body (epochAt body + 10)
            grace := BitVec.ofNat 8 (max 1 (min (byteAt body (epochAt body + 11)).toNat 240))
            currentEntry := g.clock.siteTime
            previousPhase := some .vacant
            deadline := loadStart body })))

/-- AMEND_EVENT: refused at the first check that fails, with nothing changed; else every field given is written: the mask
with the newly blacked zones losing the event's fresh entries and placements, the ranges with a RECOUNT (queued at the tail,
merged into a queued one, or restarting a running one) and its flag, the start with the deadline, the cutoff, and the extra
limit and grace with the deadline they govern. No other leg, entry, task or event changes. -/
def Obligations.AmendEventWritesItsFields : Prop :=
  ∀ (s : State) (q : Request), Begins s.gate q → q.code = 0x11 →
    let g := s.gate
    let f := amendFields q.body
    let inRange :=
      (∀ mask, f.mask = some mask → mask.toNat < 2 ^ (g.loader.zoneStraps.toNat + 1)) ∧
      (∀ ranges, f.ranges = some ranges → ranges.length ≤ 8 ∧ ∀ range ∈ ranges, range.low ≤ range.high) ∧
      (∀ cutoff, f.cutoff = some cutoff → cutoff.toNat ≤ 240 ∨ cutoff = 255) ∧
      (∀ limit, f.extraLimit = some limit → limit.toNat ≤ 120)
    (amendFormGood q = false → exec .amendEvent s = .next (turnedAway s q .badForm)) ∧
    (amendFormGood q = true → ¬ inRange → exec .amendEvent s = .next (turnedAway s q .range)) ∧
    (amendFormGood q = true → inRange →
      (g.findEvent f.number = none → exec .amendEvent s = .next (turnedAway s q .noEvent)) ∧
      (∀ e, g.findEvent f.number = some e →
        let ev := g.event e
        let entry := if ev.phase = .stalled then ev.previousEntry.getD ev.currentEntry else ev.currentEntry
        let limited := if ev.phase = .stalled then ev.resumePhase.getD .stalled else ev.phase
        (ev.phase = .retiring → exec .amendEvent s = .next (turnedAway s q .busy)) ∧
        (ev.phase ≠ .retiring → f.start ≠ none → ev.phase ≠ .onSale →
          exec .amendEvent s = .next (turnedAway s q .wrongPhase)) ∧
        (ev.phase ≠ .retiring → (f.start ≠ none → ev.phase = .onSale) →
          ∃ t, exec .amendEvent s = .next t ∧ t.pending = s.pending ∧
            t.gate = { g with
              events := t.gate.events
              upkeep := t.gate.upkeep
              walker := { g.walker with roster := t.gate.walker.roster }
              zones := t.gate.zones
              command := { (leaveQueue g).command with
                replies := g.command.replies ++ [{ tag := q.tag, code := 0x11, result := .ok, body := [] }] }
              counters := (bump .commandsExecuted g).counters } ∧
            t.gate.event e = { ev with
              mask := (f.mask.map (fun mask => mask.setWidth 4)).getD ev.mask
              ranges := f.ranges.getD ev.ranges
              recountFlag := ev.recountFlag || f.ranges.isSome
              scheduledStart := f.start.getD ev.scheduledStart
              cutoff := f.cutoff.getD ev.cutoff
              extraLimit := f.extraLimit.getD ev.extraLimit
              grace := (f.grace.map (fun grace => BitVec.ofNat 8 (max 1 (min grace.toNat 240)))).getD ev.grace
              deadline := (t.gate.event e).deadline } ∧
            (t.gate.event e).deadline
              = (if f.start ≠ none then f.start.getD none
                else if f.extraLimit ≠ none ∧ limited = .extra then table33 (t.gate.event e) entry .extra
                else if f.grace ≠ none ∧ limited = .windDown then table33 (t.gate.event e) entry .windDown
                else ev.deadline) ∧
            (∀ other, other ≠ e → t.gate.event other = g.event other) ∧
            (f.ranges = none → t.gate.upkeep = g.upkeep) ∧
            (f.ranges ≠ none →
              (g.upkeep.tasks.head? = some (.recount e) →
                t.gate.upkeep = { g.upkeep with cursor := 0, shadow := Vector.replicate 4 0 }) ∧
              (g.upkeep.tasks.head? ≠ some (.recount e) → Task.recount e ∈ g.upkeep.tasks →
                t.gate.upkeep = g.upkeep) ∧
              (g.upkeep.tasks = [] →
                t.gate.upkeep = { g.upkeep with
                  tasks := [.recount e], cursor := 0, shadow := Vector.replicate 4 0 }) ∧
              (g.upkeep.tasks ≠ [] → Task.recount e ∉ g.upkeep.tasks →
                t.gate.upkeep = { g.upkeep with tasks := g.upkeep.tasks ++ [.recount e] })) ∧
            let newlyBlacked := fun z : Fin 4 => (t.gate.event e).mask.getLsbD z.val && !ev.mask.getLsbD z.val
            (∀ z, t.gate.zone z = { g.zone z with
              fresh := (g.zone z).fresh.filter (fun entry => !(newlyBlacked z && decide (entry.event = e))) }) ∧
            (∀ other slot, other ≠ e → t.gate.leg other slot = g.leg other slot) ∧
            ∀ slot, t.gate.leg e slot = (g.leg e slot).map (fun leg =>
              { leg with cells := Vector.ofFn (fun z : Fin 4 => if newlyBlacked z then [] else leg.cells[z]) }))))

/-- STEER_EVENT and RETIRE_EVENT: refused at the first check that fails, with nothing changed but the reply, which
carries phase and resume phase where R51 says so; else the task is applied and counted, or the event enters RETIRING
with RETIRE(e) in the maintenance list and its lanes still claimed. -/
def Obligations.SteerAndRetireEvents : Prop :=
  (∀ (s : State) (q : Request), Begins s.gate q → q.code = 0x12 →
    let g := s.gate
    let number := halfAt q.body 0
    let minutes := (byteAt q.body 3).toNat
    let phases : Gate → EventIndex → List Byte := fun h e =>
      [(h.event e).phase.number, ((h.event e).resumePhase.map Phase.number).getD 0xFF]
    (q.length ≠ 4 → exec .steerEvent s = .next (turnedAway s q .badForm)) ∧
    (q.length = 4 → (byteAt q.body 2).toNat ∉ [1, 2, 3, 4, 5, 6, 7] →
      exec .steerEvent s = .next (turnedAway s q .range)) ∧
    (∀ task : PhaseTask, q.length = 4 → byteAt q.body 2 = task.number →
      (task = .extendPreview → ¬ (1 ≤ minutes ∧ minutes ≤ 30) →
        exec .steerEvent s = .next (turnedAway s q .range)) ∧
      ((task = .extendPreview → 1 ≤ minutes ∧ minutes ≤ 30) →
        (g.findEvent number = none → exec .steerEvent s = .next (turnedAway s q .noEvent)) ∧
        (∀ e, g.findEvent number = some e → (g.event e).phase = .retiring →
          exec .steerEvent s = .next { s with
            gate := placeReply q.tag 0x12 .busy (phases g e) (leaveQueue g) }) ∧
        (∀ e, g.findEvent number = some e → (g.event e).phase ≠ .retiring →
          (applyTask e task minutes (leaveQueue g) = none →
            exec .steerEvent s = .next { s with
              gate := placeReply q.tag 0x12 .wrongPhase (phases g e) (leaveQueue g) }) ∧
          (∀ applied, applyTask e task minutes (leaveQueue g) = some applied →
            (applied.event e).lastCue = (g.event e).lastCue ∧ exec .steerEvent s = .next { s with
              gate := placeReply q.tag 0x12 .ok (phases applied e) (bumpEvent e .appliedSteers applied) }))))) ∧
  (∀ (s : State) (q : Request), Begins s.gate q → q.code = 0x13 →
    let g := s.gate
    let number := halfAt q.body 0
    (q.length ≠ 2 → exec .retireEvent s = .next (turnedAway s q .badForm)) ∧
    (q.length = 2 →
      (g.findEvent number = none → exec .retireEvent s = .next (turnedAway s q .noEvent)) ∧
      (∀ e, g.findEvent number = some e →
        ((g.event e).phase = .retiring → exec .retireEvent s = .next (turnedAway s q .busy)) ∧
        ((g.event e).phase ≠ .retiring → (g.event e).phase ≠ .closed →
          exec .retireEvent s = .next (turnedAway s q .wrongPhase)) ∧
        ((g.event e).phase = .closed → ∃ t, exec .retireEvent s = .next t ∧ t.pending = s.pending ∧
          t.gate = { g with
            events := g.events.set e { g.event e with
              phase := .retiring
              resumePhase := none
              currentEntry := g.clock.siteTime
              previousEntry := some (g.event e).currentEntry
              previousPhase := some .closed
              deadline := none }
            upkeep := t.gate.upkeep
            command := { (leaveQueue g).command with
              replies := g.command.replies ++ [{ tag := q.tag, code := 0x13, result := .ok, body := [] }]
              status := insertItem
                { kind := .phase
                  object := eventObject e
                  detail := [6, 8] ++ field 4 g.clock.siteTime.toNat }
                (leaveQueue g).command.status }
            counters := (bump .commandsExecuted g).counters } ∧
          (Task.recount e ∉ g.upkeep.tasks →
            (g.upkeep.tasks = [] → t.gate.upkeep = { g.upkeep with
              tasks := [.retire e false], cursor := 0, shadow := t.gate.upkeep.shadow }) ∧
            (g.upkeep.tasks ≠ [] → t.gate.upkeep = { g.upkeep with
              tasks := g.upkeep.tasks ++ [.retire e false] })) ∧
          (Task.recount e ∈ g.upkeep.tasks →
            let carrying := g.upkeep.tasks.map (fun task => if task = .recount e then .retire e true else task)
            (g.upkeep.tasks.head? = some (.recount e) → t.gate.upkeep = { g.upkeep with
              tasks := carrying, cursor := 0, shadow := Vector.replicate 4 0 }) ∧
            (g.upkeep.tasks.head? ≠ some (.recount e) → t.gate.upkeep = { g.upkeep with tasks := carrying }))))))

namespace Sys2Proof.Claims

open Sys2Proof Sys2Proof.Machine Sys2Proof.Safety

/-- Table 28: a site time that may be absent: six bytes of ones where it is. -/
def timeRead (t : Option Time) : List Byte :=
  (t.map (fun time => field 6 time.toNat)).getD (List.replicate 6 0xFF)

/-- Table 28: a phase that may be absent: 0xFF where it is. -/
def phaseRead (p : Option Phase) : Byte :=
  (p.map Phase.number).getD 0xFF

/-- Table 28, note 2: class, number and effective time of a sheet, the class byte 0xFF and zeros where there is none. -/
def slotRead (sheet : Option Sheet) : List Byte :=
  (sheet.map (fun held => [match held.cls with
      | .noClass => (0 : Byte)
      | .openClass => 1
      | .listedClass => 2]
    ++ field 4 held.number.toNat ++ field 6 held.effective.toNat)).getD (0xFF :: List.replicate 10 0)

/-- R57, Table 28: the fields of an event record, in table order, byte 124 being the last before the counts. -/
def table28 (e : EventIndex) (ev : Event) : List Byte :=
  [BitVec.ofNat 8 e.val] ++ field 2 ev.number.toNat ++ [ev.phase.number]
  ++ [BitVec.ofNat 8 (1 + ev.moreLanes.length)] ++ (ev.firstLane :: ev.moreLanes).flatMap (fun lane => field 2 lane.toNat)
    ++ List.replicate (2 * (5 - ev.moreLanes.length)) 0xFF
  ++ field 2 ev.keyLane.toNat ++ (ev.alternateLane.map (fun lane => field 2 lane.toNat)).getD [0xFF, 0xFF]
  ++ [ev.mask.setWidth 8]
  ++ [BitVec.ofNat 8 ev.ranges.length] ++ ev.ranges.flatMap (fun range => field 2 range.low.toNat ++ field 2 range.high.toNat)
    ++ List.replicate (4 * (8 - ev.ranges.length)) 0
  ++ field 2 ev.epoch.toNat ++ [ev.previewLength] ++ timeRead ev.scheduledStart ++ [ev.cutoff, ev.extraLimit, ev.grace]
  ++ timeRead ev.liveStamp ++ field 6 ev.currentEntry.toNat ++ timeRead ev.previousEntry
  ++ [phaseRead ev.previousPhase, phaseRead ev.resumePhase] ++ timeRead ev.deadline
  ++ (ev.lastCue.map (fun sequence => [0x00, sequence])).getD [0xFF, 0xFF]
  ++ slotRead ev.current ++ slotRead ev.pendingSheet ++ field 2 ev.starvation.toNat ++ timeRead ev.base

end Sys2Proof.Claims

/-- READ_EVENT changes nothing but the queue and the reply, and DUMP nothing but these and the grant of the table, whose turn
it waits for (R85, log 24). READ_EVENT gives the 134 bytes of Table 28 of the loaded record; that its last byte is 1 where the
recount flag is set is the model's choice (log 36). DUMP gives whole buckets from the start bucket on, at most 512 of them and
at most 12 records, stopping only at one of these bounds or at the last bucket. -/
def Obligations.ReadEventAndDumpChangeNothing : Prop :=
  (∀ (e : EventIndex) (ev : Event), (recordRead e ev).length = 134 ∧
    (recordRead e ev).take 4 = [BitVec.ofNat 8 e.val] ++ field 2 ev.number.toNat ++ [ev.phase.number] ∧
    (ev.moreLanes.length ≤ 5 → ev.ranges.length ≤ 8 → (recordRead e ev).take 125 = table28 e ev) ∧
    (recordRead e ev).drop 125 = (allZones.flatMap (fun z => field 2 (ev.counts[z]).val))
      ++ [if ev.recountFlag = true then 1 else 0]) ∧
  (∀ (s : State) (q : Request), Begins s.gate q → q.code = 0x14 →
    (q.length ≠ 2 → exec .readEvent s = .next (turnedAway s q .badForm)) ∧
    (q.length = 2 →
      (s.gate.findEvent (halfAt q.body 0) = none → exec .readEvent s = .next (turnedAway s q .noEvent)) ∧
      (∀ e, s.gate.findEvent (halfAt q.body 0) = some e →
        exec .readEvent s = .next { s with
          gate := placeReply q.tag 0x14 .ok (recordRead e (s.gate.event e)) (leaveQueue s.gate) }))) ∧
  (∀ (s : State) (q : Request), Begins s.gate q → Turn s.gate .command → q.code = 0x29 →
    let start := (halfAt q.body 0).toNat
    (q.length ≠ 2 → exec .dump s = .next (turnedAwayAtTable s q .badForm)) ∧
    (q.length = 2 → 8191 < start → exec .dump s = .next (turnedAwayAtTable s q .range)) ∧
    (q.length = 2 → start ≤ 8191 → ∃ next records,
      start < next ∧ next ≤ 8192 ∧ next ≤ start + 512 ∧ records.length ≤ 12 ∧
      records = (List.range' start (next - start)).flatMap (fun b =>
        (bucketRecords (Fin.ofNat 8192 b) s.gate).map Prod.snd) ∧
      (next = 8192 ∨ next = start + 512 ∨
        12 < records.length + (bucketRecords (Fin.ofNat 8192 next) s.gate).length) ∧
      exec .dump s = .next { s with
        gate := placeReply q.tag 0x29 .ok
          (field 2 next ++ [BitVec.ofNat 8 records.length] ++ records.flatMap holderRead) (granting s.gate) }))

/-- READ_HOLDER (R97), at its turn at the table (R85, log 24): refused with body length 0 for a wrong body length, a number out
of range or no record; else the 16 bytes of Table 14 of the decoder's record, with nothing changed but the queue, the reply
and the grant of the table. -/
def Obligations.ReadHolderReturnsTheRecord : Prop :=
  (∀ h : Holder, (holderRead h).length = 16 ∧
    holderRead h = field 3 h.decoder.toNat ++ [BitVec.ofNat 8 h.zone.val] ++ field 2 h.region.toNat
      ++ [(if h.isStatic = true then 1 else 0) + (if h.ageMark = true then 2 else 0)
        + (if h.barred = true then 4 else 0) + (if h.exempt = true then 8 else 0)]
      ++ field 3 h.bought.toNat ++ field 3 h.grants.toNat ++ field 3 h.denies.toNat) ∧
  (∀ (s : State) (q : Request), Begins s.gate q → Turn s.gate .command → q.code = 0x28 →
    let d := decoderAt q.body 0
    (q.length ≠ 3 → exec .readHolder s = .next (turnedAwayAtTable s q .badForm)) ∧
    (q.length = 3 → d = 0 ∨ d = 16777215 → exec .readHolder s = .next (turnedAwayAtTable s q .range)) ∧
    (q.length = 3 → d ≠ 0 → d ≠ 16777215 →
      (findHolder d s.gate = none → exec .readHolder s = .next (turnedAwayAtTable s q .noHolder)) ∧
      (∀ key h, findHolder d s.gate = some (key, h) →
        exec .readHolder s = .next { s with
          gate := placeReply q.tag 0x28 .ok (holderRead h) (granting s.gate) })))

/-! ## Purchases and commands on holder records -/

namespace Sys2Proof.Claims

open Sys2Proof Sys2Proof.Machine Sys2Proof.Safety

/-- R36, R105: purchases are accepted in a phase; STALLED, RETIRING and VACANT accept none. -/
def Accepts (table : ProfileTable) : Phase → Prop
  | .onSale => table.onSale.accept = true
  | .preview => table.preview.accept = true
  | .live => table.live.accept = true
  | .extra => table.extra.accept = true
  | .windDown => table.windDown.accept = true
  | .closed => table.closed.accept = true
  | .stalled => False
  | .retiring => False
  | .vacant => False

/-- R105: the item comes too late in LIVE. -/
def PastCutoff (g : Gate) (ev : Event) : Prop :=
  ev.phase = .live ∧ ev.cutoff ≠ 255 ∧
    ¬ ∃ start, ev.liveStamp = some start ∧ g.clock.siteTime.toNat < start.toNat + ev.cutoff.toNat * 60000

/-- R106: blackout turns the item away on zone z. -/
def BlackedOut (g : Gate) (ev : Event) (z : ZoneIndex) (item : PurchaseItem) : Prop :=
  ev.mask.getLsbD z.val = true ∨
    ((∃ range ∈ ev.ranges, range.low ≤ item.region ∧ item.region ≤ range.high) ∧
      ¬ ∃ key h, findHolder item.decoder g = some (key, h) ∧ h.exempt = true)

/-- R82: the key of a way of a decoder's bucket. -/
def wayKey (d : Decoder) (way : Nat) : Nat :=
  (bucketOf d).val * 4 + way

/-- R83: way is the lowest free way of a decoder's bucket. -/
def LowestFree (g : Gate) (d : Decoder) (way : Nat) : Prop :=
  way < 4 ∧ Sparse.get g.holders (wayKey d way) = none ∧ ∀ v, v < way → Sparse.get g.holders (wayKey d v) ≠ none

/-- R83: all four ways of a decoder's bucket hold records. -/
def BucketFull (g : Gate) (d : Decoder) : Prop :=
  ∀ way, way < 4 → Sparse.get g.holders (wayKey d way) ≠ none

/-- The set with event e's index alone. -/
def single (e : EventIndex) : EventSet :=
  1#24 <<< e.val

/-- The event numbers of a body: k of them, two bytes each, from byte i. -/
def numbersAt (body : List Byte) (i k : Nat) : List Half :=
  (List.range k).map (fun n => halfAt body (i + 2 * n))

/-- Every number is carried by a loaded event that is not RETIRING. -/
def AllLoaded (g : Gate) (numbers : List Half) : Prop :=
  ∀ number ∈ numbers, ∃ e, g.findEvent number = some e ∧ (g.event e).phase ≠ .retiring

/-- In body order, the first number that is not: NO_EVENT where no loaded event carries it, BUSY where a RETIRING one
does. -/
def FirstBad (g : Gate) (numbers : List Half) (r : Result) : Prop :=
  ∃ before number after, numbers = before ++ number :: after ∧ AllLoaded g before ∧
    ((g.findEvent number = none ∧ r = .noEvent) ∨
      ∃ e, g.findEvent number = some e ∧ (g.event e).phase = .retiring ∧ r = .busy)

/-- Index e is that of a named event. -/
def Named (g : Gate) (numbers : List Half) (e : EventIndex) : Prop :=
  ∃ number ∈ numbers, g.findEvent number = some e

/-- A decoder number that no record may carry. -/
def BadDecoder (d : Decoder) : Prop :=
  d = 0 ∨ d = 16777215

/-- The command placed a reply and changed one record, and nothing else changed but counters and what the record change
itself does (R86). -/
structure ChangedRecord (s t : State) (q : Request) (r : Result) (body : List Byte) (key : Nat)
    (before after : Option Holder) : Prop where
  pending : t.pending = s.pending
  gate : t.gate = { changeRecord key before after (granting s.gate) with
    events := t.gate.events
    counters := t.gate.counters
    command := { (leaveQueue s.gate).command with
      replies := s.gate.command.replies ++ [{ tag := q.tag, code := q.code, result := r, body := body }] } }
  event : ∀ e, t.gate.event e
    = { (changeRecord key before after (granting s.gate)).event e with counters := (t.gate.event e).counters }
  table : ∀ k, Sparse.get t.gate.holders k = if k = key then after else Sparse.get s.gate.holders k

end Sys2Proof.Claims

/-- PURCHASE and PURCHASE_ITEM: a bad form is refused whole; else the items are taken one at a time in body order, each at the
command side's turn at the table (R85, log 24) and leaving its own result, and with the last the OK reply holds one result code
per item. -/
def Obligations.PurchaseIsTakenItemByItem : Prop :=
  (∀ (s : State) (q : Request), Begins s.gate q → q.code = 0x20 →
    (q.length = 0 ∨ 224 < q.length ∨ q.length % 8 ≠ 0 → exec .purchase s = .next (turnedAway s q .badForm)) ∧
    (q.length ≠ 0 → q.length ≤ 224 → q.length % 8 = 0 →
      let items := (List.range (q.length / 8)).map (fun i =>
        ({ decoder := decoderAt q.body (8 * i)
           event := halfAt q.body (8 * i + 3)
           zone := byteAt q.body (8 * i + 5)
           region := halfAt q.body (8 * i + 6) } : PurchaseItem))
      exec .purchase s = .next { s with
        gate := { leaveQueue s.gate with
          command := { (leaveQueue s.gate).command with work := .purchasing q.tag items [] } } })) ∧
  (∀ (s : State) (tag : Half) (item : PurchaseItem) (left : List PurchaseItem) (results : List Result),
    s.gate.command.work = .purchasing tag (item :: left) results → Turn s.gate .command →
    let taken := buyItem item { s.gate with upkeep := { s.gate.upkeep with lastGrant := .command } }
    (left ≠ [] → exec .purchaseItem s = .next { s with
      gate := { taken.2 with
        command := { taken.2.command with work := .purchasing tag left (results ++ [taken.1]) } } }) ∧
    (left = [] → exec .purchaseItem s = .next { s with
      gate := placeReply tag 0x20 .ok ((results ++ [taken.1]).map Result.code)
        { taken.2 with command := { taken.2.command with work := .ready } } }))

/-- A purchase item is judged by range, event, phase, cutoff, blackout and record, stops at the first check that fails
with that check's result and counter, and otherwise is a record change that adds the event to the bought set of the
decoder's record or of a new LEARNED record in the lowest free way of its bucket. -/
def Obligations.PurchaseItemIsJudgedInOrder : Prop :=
  ∀ (g : Gate) (item : PurchaseItem),
    let badRange := g.loader.zoneStraps.toNat < item.zone.toNat ∨ BadDecoder item.decoder
    (badRange → buyItem item g = (.range, bump .itemsUnplaced g)) ∧
    (¬ badRange → g.findEvent item.event = none → buyItem item g = (.noEvent, bump .itemsUnplaced g)) ∧
    (∀ (e : EventIndex) (z : ZoneIndex), ¬ badRange → g.findEvent item.event = some e → z.val = item.zone.toNat →
      let ev := g.event e
      let open_ := Accepts g.settings.profile ev.phase
      (¬ open_ → buyItem item g = (.refusedPhase, bumpEvent e .refusedByPhase g)) ∧
      (open_ → PastCutoff g ev → buyItem item g = (.cutoff, bumpEvent e .refusedByCutoff g)) ∧
      (open_ → ¬ PastCutoff g ev → BlackedOut g ev z item →
        buyItem item g = (.blackedOut, bumpEvent e .refusedByBlackout g)) ∧
      (open_ → ¬ PastCutoff g ev → ¬ BlackedOut g ev z item →
        (∀ key h, findHolder item.decoder g = some (key, h) →
          (h.zone ≠ z ∨ h.region ≠ item.region → buyItem item g = (.mismatch, bumpEvent e .refusedByRecord g)) ∧
          (h.zone = z → h.region = item.region →
            (h.barred = true → buyItem item g = (.barred, bumpEvent e .refusedByRecord g)) ∧
            (h.barred = false → h.bought.getLsbD e.val = true →
              buyItem item g = (.okAlready, bumpEvent e .purchasesHeld g)) ∧
            (h.barred = false → h.bought.getLsbD e.val = false →
              buyItem item g = (.ok, bumpEvent e .purchasesAccepted
                (changeRecord key (some h)
                  (some { h with
                    bought := h.bought ||| single e
                    ageMark := if h.isStatic = true then h.ageMark else true }) g))))) ∧
        (findHolder item.decoder g = none →
          (32768 ≤ g.holders.length →
            buyItem item g = (.tableFull, bumpEvent e .refusedByRecord (bump .tableFullRefusals g))) ∧
          (g.holders.length < 32768 → BucketFull g item.decoder →
            buyItem item g = (.bucketFull, bumpEvent e .refusedByRecord (bump .bucketFullRefusals g))) ∧
          (∀ way, g.holders.length < 32768 → LowestFree g item.decoder way →
            buyItem item g = (.ok, bumpEvent e .purchasesAccepted (bump .createdByPurchase
              (changeRecord (wayKey item.decoder way) none
                (some
                  { decoder := item.decoder
                    zone := z
                    region := item.region
                    isStatic := false
                    ageMark := true
                    barred := false
                    exempt := false
                    bought := single e
                    grants := 0
                    denies := 0 }) g)))))))

/-- The commands on holder records are refused at the first check that fails, in the order of form, range, record and
event numbers (PUT_HOLDER needs no record), each at its turn at the table (R85, log 24), and a refused command changes nothing
but the queue, the reply and the grant of the table. -/
def Obligations.HolderCommandsAreRefusedInOrder : Prop :=
  ∀ (s : State) (q : Request), Begins s.gate q → Turn s.gate .command →
    let d := decoderAt q.body 0
    let away := fun (c : Instr) (r : Result) => exec c s = .next (turnedAwayAtTable s q r)
    (∀ code c, (code, c) ∈ [((0x23 : Byte), Instr.dropHolder), (0x26, .bar), (0x27, .unbar)] → q.code = code →
      (q.length ≠ 3 → away c .badForm) ∧
      (q.length = 3 → BadDecoder d → away c .range) ∧
      (q.length = 3 → ¬ BadDecoder d → findHolder d s.gate = none → away c .noHolder)) ∧
    (q.code = 0x21 →
      let k := (byteAt q.body 3).toNat
      let form := 4 ≤ q.length ∧ q.length = 4 + 2 * k
      let range := ¬ BadDecoder d ∧ 1 ≤ k ∧ k ≤ 24
      (¬ form → away .cancel .badForm) ∧
      (form → ¬ range → away .cancel .range) ∧
      (form → range → findHolder d s.gate = none → away .cancel .noHolder) ∧
      (∀ r, form → range → findHolder d s.gate ≠ none → FirstBad s.gate (numbersAt q.body 4 k) r → away .cancel r)) ∧
    (∀ code c, (code, c) ∈ [((0x24 : Byte), Instr.force), (0x25, .release)] → q.code = code →
      let k := (byteAt q.body 4).toNat
      let form := 5 ≤ q.length ∧ q.length = 5 + 2 * k
      let range := ¬ BadDecoder d ∧ (byteAt q.body 3 = 1 ∨ byteAt q.body 3 = 2) ∧ 1 ≤ k ∧ k ≤ 8
      (¬ form → away c .badForm) ∧
      (form → ¬ range → away c .range) ∧
      (form → range → findHolder d s.gate = none → away c .noHolder) ∧
      (∀ r, form → range → findHolder d s.gate ≠ none → FirstBad s.gate (numbersAt q.body 5 k) r → away c r)) ∧
    (q.code = 0x22 →
      let k := (byteAt q.body 7).toNat
      let form := 8 ≤ q.length ∧ q.length = 8 + 2 * k
      let range := ¬ BadDecoder d ∧ (byteAt q.body 3).toNat ≤ s.gate.loader.zoneStraps.toNat ∧
        (byteAt q.body 6).toNat ≤ 1 ∧ k ≤ 24
      (¬ form → away .putHolder .badForm) ∧
      (form → ¬ range → away .putHolder .range) ∧
      (∀ r, form → range → FirstBad s.gate (numbersAt q.body 8 k) r → away .putHolder r))

/-- CANCEL, FORCE and RELEASE that pass their checks, at their turn at the table (R85, log 24), change the sets of one
record, index by index, answer OK where something named was there to change and OK_ALREADY where nothing was, and count each
event concerned once. -/
def Obligations.CancelForceReleaseChangeTheSets : Prop :=
  ∀ (s : State) (q : Request) (key : Nat) (h : Holder), Begins s.gate q → Turn s.gate .command →
    ¬ BadDecoder (decoderAt q.body 0) → findHolder (decoderAt q.body 0) s.gate = some (key, h) →
    (q.code = 0x21 → ∀ k, k = (byteAt q.body 3).toNat → q.length = 4 + 2 * k → 1 ≤ k → k ≤ 24 →
      AllLoaded s.gate (numbersAt q.body 4 k) →
      let hit := fun e : EventIndex => Named s.gate (numbersAt q.body 4 k) e ∧ h.bought.getLsbD e.val = true
      ∃ t after r, exec .cancel s = .next t ∧ ChangedRecord s t q r [] key (some h) (some after) ∧
        after = { h with bought := after.bought } ∧
        (∀ e : EventIndex, after.bought.getLsbD e.val = true ↔
          h.bought.getLsbD e.val = true ∧ ¬ Named s.gate (numbersAt q.body 4 k) e) ∧
        (r = .ok ∧ (∃ e, hit e) ∨ r = .okAlready ∧ ¬ ∃ e, hit e) ∧
        (∀ e, (hit e → eventCount t.gate e .cancellations = countUp (eventCount s.gate e .cancellations) 1) ∧
          (¬ hit e → eventCount t.gate e .cancellations = eventCount s.gate e .cancellations))) ∧
    (q.code = 0x24 → ∀ k, k = (byteAt q.body 4).toNat → q.length = 5 + 2 * k → 1 ≤ k → k ≤ 8 →
      (byteAt q.body 3 = 1 ∨ byteAt q.body 3 = 2) → AllLoaded s.gate (numbersAt q.body 5 k) →
      let named := Named s.gate (numbersAt q.body 5 k)
      let grant := byteAt q.body 3 = 1
      let hit := fun e : EventIndex => named e ∧ (if grant then h.grants else h.denies).getLsbD e.val = false
      ∃ t after r, exec .force s = .next t ∧ ChangedRecord s t q r [] key (some h) (some after) ∧
        after = { h with grants := after.grants, denies := after.denies } ∧
        (∀ e : EventIndex,
          (after.grants.getLsbD e.val = true ↔
            (grant ∧ named e) ∨ (h.grants.getLsbD e.val = true ∧ (grant ∨ ¬ named e))) ∧
          (after.denies.getLsbD e.val = true ↔
            (¬ grant ∧ named e) ∨ (h.denies.getLsbD e.val = true ∧ (¬ grant ∨ ¬ named e)))) ∧
        (r = .ok ∧ after ≠ h ∨ r = .okAlready ∧ after = h) ∧
        (∀ e, (hit e → eventCount t.gate e .overridesSet = countUp (eventCount s.gate e .overridesSet) 1) ∧
          (¬ hit e → eventCount t.gate e .overridesSet = eventCount s.gate e .overridesSet))) ∧
    (q.code = 0x25 → ∀ k, k = (byteAt q.body 4).toNat → q.length = 5 + 2 * k → 1 ≤ k → k ≤ 8 →
      (byteAt q.body 3 = 1 ∨ byteAt q.body 3 = 2) → AllLoaded s.gate (numbersAt q.body 5 k) →
      let named := Named s.gate (numbersAt q.body 5 k)
      let keep := byteAt q.body 3 = 1
      let hit := fun e : EventIndex =>
        named e ∧ (h.grants.getLsbD e.val = true ∨ h.denies.getLsbD e.val = true)
      ∃ t after r, exec .release s = .next t ∧ ChangedRecord s t q r [] key (some h) (some after) ∧
        after = { h with bought := after.bought, grants := after.grants, denies := after.denies } ∧
        (∀ e : EventIndex,
          (after.grants.getLsbD e.val = true ↔ h.grants.getLsbD e.val = true ∧ ¬ named e) ∧
          (after.denies.getLsbD e.val = true ↔ h.denies.getLsbD e.val = true ∧ ¬ named e) ∧
          (¬ keep ∨ ¬ named e → after.bought.getLsbD e.val = h.bought.getLsbD e.val) ∧
          (keep → named e → h.grants.getLsbD e.val = true → h.denies.getLsbD e.val = false →
            after.bought.getLsbD e.val = true) ∧
          (keep → named e → h.denies.getLsbD e.val = true → after.bought.getLsbD e.val = false) ∧
          (keep → named e → h.grants.getLsbD e.val = false → h.denies.getLsbD e.val = false →
            after.bought.getLsbD e.val = h.bought.getLsbD e.val)) ∧
        (r = .ok ∧ (∃ e, hit e) ∨ r = .okAlready ∧ ¬ ∃ e, hit e) ∧
        (∀ e, (hit e → eventCount t.gate e .overridesReleased
            = countUp (eventCount s.gate e .overridesReleased) 1) ∧
          (¬ hit e → eventCount t.gate e .overridesReleased = eventCount s.gate e .overridesReleased)))

/-- PUT_HOLDER, DROP_HOLDER, BAR and UNBAR that pass their checks, at their turn at the table (R85, log 24): a record
rewritten, made in the lowest free way, refused by a full table or bucket, removed, barred with the decoder gone from every
fresh queue and every open assembly cell, or unbarred; OK_ALREADY where nothing needed changing. -/
def Obligations.PutDropBarAndUnbar : Prop :=
  ∀ (s : State) (q : Request), Begins s.gate q → Turn s.gate .command → ¬ BadDecoder (decoderAt q.body 0) →
    let d := decoderAt q.body 0
    (q.code = 0x22 → ∀ (k : Nat) (z : ZoneIndex), k = (byteAt q.body 7).toNat → q.length = 8 + 2 * k → k ≤ 24 →
      z.val = (byteAt q.body 3).toNat → z.val ≤ s.gate.loader.zoneStraps.toNat → (byteAt q.body 6).toNat ≤ 1 →
      AllLoaded s.gate (numbersAt q.body 8 k) →
      ∃ bought : EventSet,
        (∀ e : EventIndex, bought.getLsbD e.val = true ↔ Named s.gate (numbersAt q.body 8 k) e) ∧
        (∀ key h, findHolder d s.gate = some (key, h) →
          let after : Holder := { h with
            zone := z, region := halfAt q.body 4, exempt := decide (byteAt q.body 6 = 1), bought := bought,
            isStatic := true, ageMark := false }
          ∃ t, exec .putHolder s = .next t ∧
            ChangedRecord s t q (if after = h then .okAlready else .ok)
              (field 2 (bucketOf d).val ++ [BitVec.ofNat 8 (key % 4)]) key (some h) (some after)) ∧
        (findHolder d s.gate = none →
          (32768 ≤ s.gate.holders.length → exec .putHolder s = .next { s with
            gate := placeReply q.tag 0x22 .tableFull [] (bump .tableFullRefusals (granting s.gate)) }) ∧
          (s.gate.holders.length < 32768 → BucketFull s.gate d → exec .putHolder s = .next { s with
            gate := placeReply q.tag 0x22 .bucketFull [] (bump .bucketFullRefusals (granting s.gate)) }) ∧
          (∀ way, s.gate.holders.length < 32768 → LowestFree s.gate d way →
            ∃ t, exec .putHolder s = .next t ∧
              ChangedRecord s t q .ok (field 2 (bucketOf d).val ++ [BitVec.ofNat 8 way]) (wayKey d way) none
                (some
                  { decoder := d
                    zone := z
                    region := halfAt q.body 4
                    isStatic := true
                    ageMark := false
                    barred := false
                    exempt := decide (byteAt q.body 6 = 1)
                    bought := bought
                    grants := 0
                    denies := 0 }) ∧
              partCount t.gate .createdByPut = countUp (partCount s.gate .createdByPut) 1))) ∧
    (∀ key h, q.length = 3 → findHolder d s.gate = some (key, h) →
      (q.code = 0x23 → ∃ t, exec .dropHolder s = .next t ∧ ChangedRecord s t q .ok [] key (some h) none ∧
        partCount t.gate .recordsDropped = countUp (partCount s.gate .recordsDropped) 1) ∧
      (q.code = 0x26 → h.barred = true → exec .bar s = .next (turnedAwayAtTable s q .okAlready)) ∧
      (q.code = 0x26 → h.barred = false → ∃ t, exec .bar s = .next t ∧ t.pending = s.pending ∧
        t.gate = { granting s.gate with
          freeDraws := t.gate.freeDraws
          events := t.gate.events
          holders := t.gate.holders
          upkeep := { (granting s.gate).upkeep with shadow := t.gate.upkeep.shadow }
          walker := { s.gate.walker with roster := t.gate.walker.roster }
          zones := t.gate.zones
          command := { (granting s.gate).command with replies := t.gate.command.replies }
          counters := t.gate.counters } ∧
        (∀ e, t.gate.event e = { s.gate.event e with counts := (t.gate.event e).counts }) ∧
        t.gate.holders = Sparse.set s.gate.holders key { h with barred := true } ∧
        (∀ z, t.gate.zone z = { s.gate.zone z with
          fresh := (s.gate.zone z).fresh.filter (fun entry =>
            !decide (entry.form = .listed ∧ entry.decoder = d)) }) ∧
        (∀ e slot leg, t.gate.leg e slot = some leg → ∀ z : ZoneIndex, d ∉ leg.cells[z]) ∧
        partCount t.gate .bars = countUp (partCount s.gate .bars) 1 ∧
        t.gate.command.replies = s.gate.command.replies
          ++ [{ tag := q.tag, code := 0x26, result := .ok, body := [] }]) ∧
      (q.code = 0x27 → h.barred = false → exec .unbar s = .next (turnedAwayAtTable s q .okAlready)) ∧
      (q.code = 0x27 → h.barred = true → ∃ t, exec .unbar s = .next t ∧
        ChangedRecord s t q .ok [] key (some h) (some { h with barred := false }) ∧
        partCount t.gate .unbars = countUp (partCount s.gate .unbars) 1))

/-! ## Settings, counters, image -/

namespace Sys2Proof.Claims

open Sys2Proof Sys2Proof.Machine Sys2Proof.Safety

/-- R77: an event holds an open lead instant for its pending sheet, and with a new open lead that instant is reached. -/
def OffersNow (g : Gate) (lead : Half) (e : EventIndex) (sheet : Sheet) : Prop :=
  (g.event e).openLead ≠ none ∧ (g.event e).pendingSheet = some sheet ∧
    Reached g (BitVec.ofNat 48 (sheet.effective.toNat - lead.toNat))

end Sys2Proof.Claims

/-- SET_ZONE, SET_PROFILE, SET_CUE_MAP and SET_TIMING: refused at the first check that fails, with nothing changed but
the queue and the reply; else the settings they name are replaced, clamped where the manual clamps them, and the reply
is OK with the values as stored where the manual gives it a body. With SET_TIMING every held open lead instant moves with its
sheet's effective time and the new lead; where the new instant is reached, the sheet's open entries are offered at once on every
driven zone outside the event's mask, and no other zone changes. In what order several events are offered is the model's choice,
and nothing is said of it (log 38); that the list which holds the cue map keeps the body's order is its choice too (log 41). -/
def Obligations.SettingCommandsReplaceTheirSettings : Prop :=
  ∀ (s : State) (q : Request), Begins s.gate q →
    let left := leaveQueue s.gate
    (q.code = 0x30 →
      let share : Half := BitVec.ofNat 16 (max 1 (min (halfAt q.body 1).toNat 256))
      let inRange := (byteAt q.body 0).toNat ≤ s.gate.loader.zoneStraps.toNat ∧ (byteAt q.body 3).toNat ≤ 1
      (q.length ≠ 4 → exec .setZone s = .next (turnedAway s q .badForm)) ∧
      (q.length = 4 → ¬ inRange → exec .setZone s = .next (turnedAway s q .range)) ∧
      (∀ z : ZoneIndex, q.length = 4 → inRange → z.val = (byteAt q.body 0).toNat →
        exec .setZone s = .next { s with
          gate := placeReply q.tag 0x30 .ok (field 2 share.toNat ++ [byteAt q.body 3])
            (modZone z (fun zone => { zone with share := share, dark := decide (byteAt q.body 3 = 1) }) left) })) ∧
    (q.code = 0x31 →
      let inRange := ∀ i, i < 12 → (byteAt q.body i).toNat ≤ 1
      let row : Nat → PhaseProfile := fun i =>
        { pass := decide (byteAt q.body i = 1), accept := decide (byteAt q.body (i + 1) = 1) }
      (q.length ≠ 12 → exec .setProfile s = .next (turnedAway s q .badForm)) ∧
      (q.length = 12 → ¬ inRange → exec .setProfile s = .next (turnedAway s q .range)) ∧
      (q.length = 12 → inRange → exec .setProfile s = .next { s with
        gate := placeReply q.tag 0x31 .ok [] { left with
          settings := { left.settings with
            profile :=
              { onSale := row 0, preview := row 2, live := row 4, extra := row 6, windDown := row 8,
                closed := row 10 } } } })) ∧
    (q.code = 0x32 →
      let n := (byteAt q.body 0).toNat
      let form := q.length ≠ 0 ∧ q.length = 1 + 3 * n
      let codes := (List.range n).map (fun i => byteAt q.body (1 + 3 * i))
      let inRange := ∀ i, i < n → 1 ≤ (byteAt q.body (2 + 3 * i)).toNat ∧ (byteAt q.body (2 + 3 * i)).toNat ≤ 7 ∧
        (byteAt q.body (2 + 3 * i) = 6 →
          1 ≤ (byteAt q.body (3 + 3 * i)).toNat ∧ (byteAt q.body (3 + 3 * i)).toNat ≤ 30)
      (¬ form → exec .setCueMap s = .next (turnedAway s q .badForm)) ∧
      (form → 16 < n → exec .setCueMap s = .next (turnedAway s q .range)) ∧
      (form → n ≤ 16 → ¬ codes.Nodup → exec .setCueMap s = .next (turnedAway s q .badForm)) ∧
      (form → n ≤ 16 → codes.Nodup → ¬ inRange → exec .setCueMap s = .next (turnedAway s q .range)) ∧
      (form → n ≤ 16 → codes.Nodup → inRange → ∃ map : List CueEntry, map.length = n ∧
        (∀ i (h : i < map.length), (map[i]).code = byteAt q.body (1 + 3 * i) ∧
          (map[i]).task.number = byteAt q.body (2 + 3 * i) ∧
          (map[i]).minutes = (if (map[i]).task = .extendPreview then some (byteAt q.body (3 + 3 * i)) else none)) ∧
        exec .setCueMap s = .next { s with
          gate := placeReply q.tag 0x32 .ok [] { left with settings := { left.settings with cueMap := map } } })) ∧
    (q.code = 0x33 →
      let inRange := (halfAt q.body 0).toNat ≤ 10000 ∧ (halfAt q.body 2).toNat ≤ 30000 ∧
        1 ≤ (byteAt q.body 4).toNat ∧ (byteAt q.body 4).toNat ≤ 30 ∧ (byteAt q.body 8).toNat ≤ 1
      let newLead := halfAt q.body 0
      let warn : Byte := BitVec.ofNat 8 (max 1 (min (byteAt q.body 5).toNat 15))
      let stall : Byte := BitVec.ofNat 8 (max 2 (min (byteAt q.body 6).toNat 15))
      let aging : Byte := BitVec.ofNat 8 (max 5 (min (byteAt q.body 7).toNat 240))
      (q.length ≠ 9 → exec .setTiming s = .next (turnedAway s q .badForm)) ∧
      (q.length = 9 → ¬ inRange → exec .setTiming s = .next (turnedAway s q .range)) ∧
      (q.length = 9 → inRange → ∃ t, exec .setTiming s = .next t ∧ t.pending = s.pending ∧
        t.gate = { s.gate with
          settings := { s.gate.settings with
            openLead := newLead
            guard := halfAt q.body 2
            repeatInterval := byteAt q.body 4
            warnThreshold := warn
            stallThreshold := stall
            agingPeriod := aging
            overrideHold := decide (byteAt q.body 8 = 1) }
          events := t.gate.events
          zones := t.gate.zones
          command := { left.command with
            replies := s.gate.command.replies ++
              [{ tag := q.tag
                 code := 0x33
                 result := .ok
                 body := field 2 newLead.toNat ++ field 2 (halfAt q.body 2).toNat
                   ++ [byteAt q.body 4, warn, stall, aging, byteAt q.body 8] }] }
          counters := (bump .commandsExecuted s.gate).counters } ∧
        (∀ e sheet z, OffersNow s.gate newLead e sheet → unblacked s.gate e z → Offered t.gate e sheet.number z) ∧
        (∀ z, (∀ e sheet, OffersNow s.gate newLead e sheet → ¬ unblacked s.gate e z) →
          t.gate.zone z = s.gate.zone z) ∧
        (∀ z, t.gate.zone z = { s.gate.zone z with
            fresh := (t.gate.zone z).fresh, counters := (t.gate.zone z).counters } ∧
          ∃ added, (t.gate.zone z).fresh = (s.gate.zone z).fresh ++ added ∧ ∀ entry ∈ added, ∃ e sheet,
            OffersNow s.gate newLead e sheet ∧ unblacked s.gate e z ∧
            entry = { form := .openAll, decoder := 16777215, event := e, sheet := sheet.number }) ∧
        ∀ e, ((s.gate.event e).openLead = none ∨ (s.gate.event e).pendingSheet = none →
            t.gate.event e = s.gate.event e) ∧
          (∀ lead sheet, (s.gate.event e).openLead = some lead → (s.gate.event e).pendingSheet = some sheet →
            let instant : Time := BitVec.ofNat 48 (sheet.effective.toNat - newLead.toNat)
            (¬ Reached s.gate instant → t.gate.event e = { s.gate.event e with openLead := some instant }) ∧
            (Reached s.gate instant → t.gate.event e = { s.gate.event e with
              openLead := none, pendingSheet := some { sheet with mark := true } }))))

/-- READ_COUNTERS (R175): refused with nothing changed but the queue and the reply; else the counters of the group named
as they stand, 4 bytes each, and with the clear option that group and no other set to 0 in the same step. -/
def Obligations.ReadCountersReturnsAndClears : Prop :=
  ∀ (s : State) (q : Request), Begins s.gate q → q.code = 0x34 →
    let left := leaveQueue s.gate
    let group := (byteAt q.body 0).toNat
    let object := (byteAt q.body 1).toNat
    let clear := byteAt q.body 2 = 1
    let inRange := group ≤ 2 ∧ (byteAt q.body 2).toNat ≤ 1 ∧
      (group = 1 → object ≤ s.gate.loader.zoneStraps.toNat) ∧ (group = 2 → object ≤ 23)
    let told : List Counter → List Byte := fun counters => counters.flatMap (fun c => field 4 c.toNat)
    (q.length ≠ 3 → exec .readCounters s = .next (turnedAway s q .badForm)) ∧
    (q.length = 3 → ¬ inRange → exec .readCounters s = .next (turnedAway s q .range)) ∧
    (q.length = 3 → inRange →
      (group = 0 → exec .readCounters s = .next { s with
        gate := placeReply q.tag 0x34 .ok ([0, 0xFF, 37] ++ told s.gate.counters.toList)
          { left with counters := if clear then Vector.replicate 37 0 else s.gate.counters } }) ∧
      (∀ z : ZoneIndex, group = 1 → z.val = object → exec .readCounters s = .next { s with
        gate := placeReply q.tag 0x34 .ok ([1, byteAt q.body 1, 19] ++ told (s.gate.zone z).counters.toList)
          (if clear then modZone z (fun zone => { zone with counters := Vector.replicate 19 0 }) left
            else left) }) ∧
      (∀ e : EventIndex, group = 2 → e.val = object → exec .readCounters s = .next { s with
        gate := placeReply q.tag 0x34 .ok ([2, byteAt q.body 1, 27] ++ told (s.gate.event e).counters.toList)
          (if clear then modEvent e (fun ev => { ev with counters := Vector.replicate 27 0 }) left
            else left) }))

namespace Sys2Proof.Claims

open Sys2Proof Sys2Proof.Machine Sys2Proof.Safety

/-- 10.8: the 88 bytes of the image as the EEPROM holds them. -/
def imageOf (eeprom : List Host.Cell) : List Byte :=
  (List.range 88).map (fun i => Memory.read eeprom i)

/-- Table 81, notes: the fields of an image other than the cue map lie in their ranges, and the map is one that
SET_CUE_MAP would take. -/
def ImageInRange (image : List Byte) : Prop :=
  (∀ z : ZoneIndex, 1 ≤ (halfAt image (1 + 2 * z.val)).toNat ∧ (halfAt image (1 + 2 * z.val)).toNat ≤ 256) ∧
    (byteAt image 9).toNat < 16 ∧ (∀ i, i < 12 → (byteAt image (10 + i)).toNat ≤ 1) ∧
    (byteAt image 22).toNat ≤ 16 ∧
    ((List.range (byteAt image 22).toNat).map (fun i => byteAt image (23 + 3 * i))).Nodup ∧
    (∀ i, i < (byteAt image 22).toNat →
      1 ≤ (byteAt image (24 + 3 * i)).toNat ∧ (byteAt image (24 + 3 * i)).toNat ≤ 7 ∧
      (byteAt image (24 + 3 * i) = 6 →
        1 ≤ (byteAt image (25 + 3 * i)).toNat ∧ (byteAt image (25 + 3 * i)).toNat ≤ 30)) ∧
    (halfAt image 71).toNat ≤ 10000 ∧ (halfAt image 73).toNat ≤ 30000 ∧
    1 ≤ (byteAt image 75).toNat ∧ (byteAt image 75).toNat ≤ 30 ∧
    1 ≤ (byteAt image 76).toNat ∧ (byteAt image 76).toNat ≤ 15 ∧
    2 ≤ (byteAt image 77).toNat ∧ (byteAt image 77).toNat ≤ 15 ∧
    5 ≤ (byteAt image 78).toNat ∧ (byteAt image 78).toNat ≤ 240 ∧ (byteAt image 79).toNat ≤ 1 ∧
    1000 ≤ natAt image 80 4 ∧ natAt image 80 4 ≤ 140625 ∧
    100 ≤ natAt image 84 2 ∧ natAt image 84 2 ≤ 10000

/-- 10.8: the sum of bytes 1–85 stands in bytes 86–87. -/
def SumGood (image : List Byte) : Prop :=
  natAt image 86 2 = ((List.range 85).map (fun i => (byteAt image (1 + i)).toNat)).sum % 65536

/-- R180: the IMAGE item, with the strap fault of R169. -/
def imageItem (g : Gate) (sub failure : Byte) : Item where
  kind := .image
  object := 0xFF
  detail := [sub, if g.loader.unitStraps = 255 then 1 else 0, failure, 0, 0, 0]

/-- What the end of the image load leaves: everything but the settings, the rates, the age instant and the item. That the age
instant is set anew from the period then in force is the model's reading of R93 (log 21). -/
structure LoadEnded (s t : State) (sub failure : Byte) (nominal : BitVec 32) (returns : Half) (settings : Settings)
    (share : ZoneIndex → Half) (dark : ZoneIndex → Bool) : Prop where
  pending : t.pending = s.pending
  gate : t.gate = { s.gate with
    loader := { s.gate.loader with loading := false, nominalRate := nominal, returnRate := returns }
    settings := settings
    zones := t.gate.zones
    upkeep := { s.gate.upkeep with ageInstant := timeAdd 0 (settings.agingPeriod.toNat * 60000) }
    command := { s.gate.command with
      status := insertItem (imageItem s.gate sub failure) s.gate.command.status } }
  zone : ∀ z, t.gate.zone z = { s.gate.zone z with share := share z, dark := dark z }

end Sys2Proof.Claims

/-- IMAGE_LOAD_END: an image wholly acknowledged, marked valid, with a good sum and every field in range is taken field by
field; any other is set aside and every field takes its built-in default; the IMAGE item says which, with the first failure;
and the age instant is set anew from the aging period then in force (R93). The order of the failures (log 20) and that age
instant (log 21) are the model's readings; that a dark byte with bits 4–7 set is out of range, and that cue entries and
minutes which are not used are not tested, are its choices (log 39). R26 gives the cue map's entries no order: that the list
which holds them keeps the image's order is the model's choice (log 41). -/
def Obligations.ImageLoadEndTakesOrDefaults : Prop :=
  ∀ (s : State) (acknowledged : Nat), s.gate.loader.loading = true →
    let image := imageOf s.gate.loader.eeprom
    let defaulted := fun failure => ∃ t, exec (.imageLoadEnd acknowledged) s = .next t ∧
      LoadEnded s t 0x02 failure 100000 1000
        { profile := ProfileTable.builtIn
          cueMap := builtInCueMap
          openLead := 2000
          guard := 2000
          repeatInterval := 5
          warnThreshold := 1
          stallThreshold := 3
          agingPeriod := 60
          overrideHold := false } (fun _ => 192) (fun _ => false)
    (acknowledged = 0 ∨ (byteAt image 0 = 0xA5 ∧ acknowledged < 88) → defaulted 0x01) ∧
    (acknowledged ≠ 0 → byteAt image 0 ≠ 0xA5 → defaulted 0x02) ∧
    (88 ≤ acknowledged → byteAt image 0 = 0xA5 → ¬ SumGood image → defaulted 0x03) ∧
    (88 ≤ acknowledged → byteAt image 0 = 0xA5 → SumGood image → ¬ ImageInRange image → defaulted 0x04) ∧
    (88 ≤ acknowledged → byteAt image 0 = 0xA5 → SumGood image → ImageInRange image →
      ∃ t, exec (.imageLoadEnd acknowledged) s = .next t ∧
        t.gate.settings.cueMap.length = (byteAt image 22).toNat ∧
        (∀ i (h : i < t.gate.settings.cueMap.length),
          (t.gate.settings.cueMap[i]).code = byteAt image (23 + 3 * i) ∧
          (t.gate.settings.cueMap[i]).task.number = byteAt image (24 + 3 * i) ∧
          (t.gate.settings.cueMap[i]).minutes
            = (if (t.gate.settings.cueMap[i]).task = .extendPreview then some (byteAt image (25 + 3 * i)) else none)) ∧
        LoadEnded s t 0x01 0x00 (BitVec.ofNat 32 (natAt image 80 4)) (BitVec.ofNat 16 (natAt image 84 2))
          { profile :=
              { onSale := { pass := decide (byteAt image 10 = 1), accept := decide (byteAt image 11 = 1) }
                preview := { pass := decide (byteAt image 12 = 1), accept := decide (byteAt image 13 = 1) }
                live := { pass := decide (byteAt image 14 = 1), accept := decide (byteAt image 15 = 1) }
                extra := { pass := decide (byteAt image 16 = 1), accept := decide (byteAt image 17 = 1) }
                windDown := { pass := decide (byteAt image 18 = 1), accept := decide (byteAt image 19 = 1) }
                closed := { pass := decide (byteAt image 20 = 1), accept := decide (byteAt image 21 = 1) } }
            cueMap := t.gate.settings.cueMap
            openLead := halfAt image 71
            guard := halfAt image 73
            repeatInterval := byteAt image 75
            warnThreshold := byteAt image 76
            stallThreshold := byteAt image 77
            agingPeriod := byteAt image 78
            overrideHold := decide (byteAt image 79 = 1) }
          (fun z => halfAt image (1 + 2 * z.val)) (fun z => (byteAt image 9).getLsbD z.val))

/-- SAVE_IMAGE and SAVE_IMAGE_END: the settings are taken as they stand and the mark is written as not valid; a write
acknowledged to its end leaves the fields, their sum and the valid mark in the EEPROM, one that is not leaves the bytes
acknowledged and, unless it failed at the last write, the mark not valid; the reply, the IMAGE item and the half of the
image-saves counter say which. That a save is 89 transfers, of which the first is SAVE_IMAGE's and the others change the EEPROM
at SAVE_IMAGE_END, is the model's reading (log 32); what an unacknowledged transfer stored is a free value (log 8). -/
def Obligations.SaveImageWritesTheImage : Prop :=
  (∀ (s : State) (q : Request), Begins s.gate q → q.code = 0x35 →
    (q.length ≠ 0 → exec .saveImage s = .next (turnedAway s q .badForm)) ∧
    (q.length = 0 → exec .saveImage s = .next { s with
      gate := { leaveQueue s.gate with
        loader := { s.gate.loader with eeprom := Memory.write s.gate.loader.eeprom 0 0x00 }
        command := { (leaveQueue s.gate).command with work := .saving q.tag (imageSaved s.gate) } } })) ∧
  (∀ g : Gate, (imageSaved g).length = 87) ∧
  (∀ (s : State) (tag : Half) (image : List Byte) (acknowledged : Nat), s.gate.command.work = .saving tag image →
    image.length = 87 →
    ∃ t, exec (.saveImageEnd acknowledged) s = .next t ∧ t.pending = s.pending ∧
      t.gate = { s.gate with
        freeDraws := t.gate.freeDraws
        loader := { s.gate.loader with eeprom := t.gate.loader.eeprom }
        command := { s.gate.command with
          work := .ready
          replies := s.gate.command.replies
            ++ [{ tag := tag
                  code := 0x35
                  result := if 89 ≤ acknowledged then .ok else .storeFailed
                  body := [] }]
          status := insertItem (imageItem s.gate (if 89 ≤ acknowledged then 0x03 else 0x04) 0x00)
            s.gate.command.status }
        counters := t.gate.counters } ∧
      (∀ a, 88 ≤ a → Memory.read t.gate.loader.eeprom a = Memory.read s.gate.loader.eeprom a) ∧
      (∀ k, k ≠ .imageSaves → partCount t.gate k
        = if k = .commandsExecuted then countUp (partCount s.gate k) 1 else partCount s.gate k) ∧
      (89 ≤ acknowledged → imageOf t.gate.loader.eeprom = 0xA5 :: image ∧
        (partCount t.gate .imageSaves).toNat / 65536
          = min ((partCount s.gate .imageSaves).toNat / 65536 + 1) 65535 ∧
        (partCount t.gate .imageSaves).toNat % 65536 = (partCount s.gate .imageSaves).toNat % 65536) ∧
      (acknowledged < 89 →
        (partCount t.gate .imageSaves).toNat % 65536
          = min ((partCount s.gate .imageSaves).toNat % 65536 + 1) 65535 ∧
        (partCount t.gate .imageSaves).toNat / 65536 = (partCount s.gate .imageSaves).toNat / 65536 ∧
        (∀ i, 1 ≤ i → i < acknowledged → i ≤ 87 →
          Memory.read t.gate.loader.eeprom i = byteAt image (i - 1)) ∧
        (∀ i, acknowledged < i → Memory.read t.gate.loader.eeprom i = Memory.read s.gate.loader.eeprom i) ∧
        (acknowledged < 88 →
          Memory.read t.gate.loader.eeprom 0 = Memory.read s.gate.loader.eeprom 0)))

/-- The image that a save writes is one that the next power-on takes, and taking it gives back every setting as it stood
when the save began. R26 gives the cue map's entries no order: that they are saved in the order in which the map was given, and
so come back in it, is the model's choice (log 41). -/
def Obligations.SavedImageReadsBack : Prop :=
  ∀ g : Gate, SettingsOk g →
    let image := 0xA5 :: imageSaved g
    SumGood image ∧ ImageInRange image ∧ imageFailure image 88 = none ∧
    imageSettings image = g.settings ∧
    BitVec.ofNat 32 (natAt image 80 4) = g.loader.nominalRate ∧
    BitVec.ofNat 16 (natAt image 84 2) = g.loader.returnRate ∧
    ∀ z, imageShare image z = (g.zone z).share ∧ imageDark image z = (g.zone z).dark

/-! ## Power-on and restart -/

namespace Sys2Proof.Claims

open Sys2Proof Sys2Proof.Machine Sys2Proof.Safety

/-- R114: what a restart leaves of a holder record. -/
def holderKept (hold : Bool) (h : Holder) : Holder :=
  if hold = true then h else { h with grants := 0, denies := 0 }

/-- R120, R134, R136: the leg with which a sheet of a LISTED event is swept again after a restart at a state: its first lap,
at the cursor. The current sheet's leg is late from its join where its effective time has passed (log 40); the pending
sheet's holds its deadline until site time next changes (log 12). -/
def sweptAgain (g : Gate) (slot : SheetSlot) (sheet : Sheet) : Leg :=
  let late := slot = .current ∧ ¬ OpenlyOffered sheet ∧ Reached g sheet.effective
  newLeg g sheet.number (decide late) (if OpenlyOffered sheet ∨ late then none else some sheet.effective)

/-- R58, R78: the open entry that a restart offers again on zone z: of the current sheet of an event in PREVIEW, or of its
pending sheet if that has been offered openly. -/
def OfferedAgain (g : Gate) (entry : FreshEntry) (z : ZoneIndex) : Prop :=
  ∃ e sheet, (g.event e).phase = .preview ∧ unblacked g e z ∧
    ((g.event e).current = some sheet ∨ ((g.event e).pendingSheet = some sheet ∧ OpenlyOffered sheet)) ∧
    entry = { form := .openAll, decoder := 16777215, event := e, sheet := sheet.number }

/-- Table 82: what a restart with a cause leaves, block by block. A control cell already handed over stays with its unit (log
10), window closes not yet taken stay (log 14), output timing is nominal (log 15), the outputs' ports stay (log 16), a slot
that a zone has yet to take stays as an idle opportunity (R5, log 25), and so does the kind of step to which the table was
granted last (log 24); the recount flag is set of every record not VACANT (log 31), and a save cut short leaves the mark as
it is (log 8). -/
structure Restarted (s t : State) (cause : Byte) : Prop where
  pending : t.pending = s.pending
  intake : t.gate.intake = { Intake.powerOn with handoff := s.gate.intake.handoff }
  lanes : t.gate.lanes = s.gate.lanes
  clock : t.gate.clock = s.gate.clock
  settings : t.gate.settings = s.gate.settings
  straps : t.gate.loader = { s.gate.loader with eeprom := t.gate.loader.eeprom }
  eeprom : (∀ tag image, s.gate.command.work ≠ .saving tag image) →
    t.gate.loader.eeprom = s.gate.loader.eeprom
  cut : ∀ tag image, s.gate.command.work = .saving tag image →
    Memory.read t.gate.loader.eeprom 0 = Memory.read s.gate.loader.eeprom 0
  event : ∀ e, t.gate.event e = { s.gate.event e with
    current := if (s.gate.event e).phase = .preview
      then (s.gate.event e).current.map (fun sheet => { sheet with mark := true }) else (s.gate.event e).current
    openRepeat := if (s.gate.event e).phase = .preview
      then some (timeAdd s.gate.clock.siteTime (s.gate.settings.repeatInterval.toNat * 1000))
      else (s.gate.event e).openRepeat
    recountFlag := (s.gate.event e).recountFlag || decide ((s.gate.event e).phase ≠ .vacant)
    counters := (t.gate.event e).counters }
  eventCounters : ∀ e k, (s.gate.event e).phase.mode ≠ .listedGrant ∨ k ∉ [EventCounter.legsJoined, .lateLegs] →
    eventCount t.gate e k = 0
  joined : ∀ e, (s.gate.event e).phase.mode = .listedGrant →
    (eventCount t.gate e .legsJoined).toNat
      = (s.gate.event e).current.toList.length + (s.gate.event e).pendingSheet.toList.length
  holders : t.gate.holders = s.gate.holders.map (fun entry =>
    (entry.1, holderKept s.gate.settings.overrideHold entry.2))
  tasks : t.gate.upkeep.tasks = allEvents.filterMap (fun e =>
    if (s.gate.event e).phase = .vacant then none
    else if (s.gate.event e).phase = .retiring then some (.retire e true)
    else some (.recount e))
  walk : t.gate.upkeep.tasks ≠ [] → t.gate.upkeep.cursor = 0 ∧ t.gate.upkeep.shadow = Vector.replicate 4 0
  age : t.gate.upkeep.ageInstant = s.gate.upkeep.ageInstant
  grant : t.gate.upkeep.lastGrant = s.gate.upkeep.lastGrant
  walker : t.gate.walker.cursor = s.gate.walker.cursor ∧ t.gate.walker.parked = false
  legs : ∀ e slot, t.gate.leg e slot
    = if (s.gate.event e).phase.mode = .listedGrant
      then (s.gate.sheet e slot).map (sweptAgain s.gate slot) else none
  late : ∀ e sheet, (s.gate.event e).phase.mode = .listedGrant → (s.gate.event e).current = some sheet →
    ((sweptAgain s.gate .current sheet).late = true →
      (eventCount t.gate e .lateLegs).toNat = 1 ∧
      ({ kind := .legLate, object := eventObject e, detail := field 4 sheet.number.toNat ++ field 2 8192 } : Item)
        ∈ t.gate.command.status) ∧
    ((sweptAgain s.gate .current sheet).late = false → eventCount t.gate e .lateLegs = 0)
  punctual : ∀ e, (s.gate.event e).phase.mode = .listedGrant → (s.gate.event e).current = none →
    eventCount t.gate e .lateLegs = 0
  zone : ∀ z, t.gate.zone z = { s.gate.zone z with
    credit := 0
    hold := 0
    turn := 0
    lateRisk := false
    noticeCount := 0
    substitutes := Vector.replicate 24 0
    fresh := (t.gate.zone z).fresh
    sweep := []
    slot := (s.gate.zone z).slot.map (fun _ => .idle)
    counters := (t.gate.zone z).counters }
  offered : ∀ entry z, OfferedAgain s.gate entry z →
    entry ∈ (t.gate.zone z).fresh ∨ 256 ≤ (t.gate.zone z).fresh.length
  fresh : ∀ z, ∀ entry ∈ (t.gate.zone z).fresh, OfferedAgain s.gate entry z
  zoneCounters : ∀ z k, k ∉ [ZoneCounter.entriesQueued, .mergedEntries, .freshOverflows] →
    zoneCounter t.gate z k = 0
  quiet : (∀ e, (s.gate.event e).phase ≠ .preview) → ∀ z, (t.gate.zone z).fresh = [] ∧
    (t.gate.zone z).counters = Vector.replicate 19 0
  command : t.gate.command.queue = [] ∧ t.gate.command.busy = false ∧ t.gate.command.work = .ready ∧
    t.gate.command.replies = []
  status : t.gate.command.status.head?
    = some { kind := .restarted, object := 0xFF, detail := cause :: field 5 s.gate.clock.siteTime.toNat }
  output : t.gate.output = { s.gate.output with continuity := 0 }
  counters : ∀ k, partCount t.gate k = 0

end Sys2Proof.Claims

/-- POWER_ON samples the straps, puts every block into its power-on state, outputs with nothing sent (log 16) and no slot
held (log 25) among them, and begins the image load, the EEPROM keeping its bytes unless one was fitted (log 2); the values
that no rule gives at power-on, the bad-sync run and the shadow counts, are 0 by the model's choice (log 22). That every
setting, share and dark bit and the age instant stand at their built-in values until the load ends (log 21), that no window
close waits (log 14) and that output timing is nominal (log 15) are the model's readings. RESTART places its OK reply and
stops the Command Unit; RESTART_STEP, once that reply has left, and RESTART_LINE, after the load, restart the part: each
block as Table 82 says, delivery re-formed (R58, R78, R136). That a control cell handed over stays with its unit (log 10),
that window closes not yet taken stay (log 14), that output timing is nominal (log 15), and that RETIRING records too have
their recount flag set (log 31) are the model's readings; what else of a cut save the EEPROM holds is a free value (log 8).
That ports, slots held and the last grant stay, that a pending sheet's leg is not late at its join, and that a current
sheet's is only where its effective time has passed, are its marked choices (logs 16, 25, 24, 12, 40). -/
def Obligations.PowerOnAndRestarts : Prop :=
  (∀ (s : State) (unit : Byte) (zones : BitVec 2) (fitted : Option (List Byte)),
    ∃ t, exec (.powerOn unit zones fitted) s = .next t ∧ t.pending = s.pending ∧
      t.gate = { State.reset.gate with
        freeDraws := t.gate.freeDraws
        loader := { State.reset.gate.loader with
          unitStraps := unit, zoneStraps := zones, eeprom := t.gate.loader.eeprom } } ∧
      (fitted = none → (∀ tag image, s.gate.command.work ≠ .saving tag image) →
        t.gate.loader.eeprom = s.gate.loader.eeprom) ∧
      (∀ image, fitted = some image → ∀ i (h : i < image.length), Memory.read t.gate.loader.eeprom i = image[i])) ∧
  (∀ (s : State) (q : Request), Begins s.gate q → q.code = 0x36 →
    (q.length ≠ 0 → exec .restart s = .next (turnedAway s q .badForm)) ∧
    (q.length = 0 → exec .restart s = .next { s with
      gate := { placeReply q.tag 0x36 .ok [] (leaveQueue s.gate) with
        command := { (leaveQueue s.gate).command with
          work := .restarting
          replies := s.gate.command.replies
            ++ [{ tag := q.tag, code := 0x36, result := .ok, body := [] }] } } })) ∧
  (∀ s : State, s.gate.command.work = .restarting → s.gate.command.replies = [] →
    ∃ t, exec .restartStep s = .next t ∧ Restarted s t 0x01) ∧
  (∀ s : State, s.gate.loader.loading = false → ∃ t, exec .restartLine s = .next t ∧ Restarted s t 0x02)

/-! ## Input and zone outputs -/

/-- INPUT_CELL, MISSING_CELL and NOMINAL_SLOT: during the image load input is ignored and slots carry idle cells; while
SEARCHING or LOST four good cells in a row lock, undelivered; while LOCKED a bad sync byte or a missing cell adds to a run
that loses lock at 3, a bad header is counted, and each of these slots is an idle opportunity on every driven zone, taken by
a zone that is behind in a later step (log 25). While SEARCHING or LOST none of these steps, and no zone that takes a slot it
holds, sends a content, alternate or free-lane cell (R5). That the nominal slot is not due at input timing (log 15), and that
the good run stays 4 while LOCKED and the bad-sync run 3 while LOST (log 33), are the model's readings. -/
def Obligations.InputCellsLockAndLose : Prop :=
  ∀ (s : State) (cell : List Byte) (behind : BitVec 4),
    let g := s.gate
    let lockGood := byteAt cell 0 = 0x5C ∧ byteSum (cell.take 5) % 256 = 0
    let received := bump .cellsReceived g
    let lost := fun h : Gate => post .input 0xFF [0x01, 0, 0, 0, 0, 0] (bump .lockLosses { h with
      intake := { g.intake with sync := .lost, goodRun := 0, badRun := 3, nominalTiming := true } })
    (g.loader.loading = true → exec (.inputCell (.arrives cell behind)) s = .next s ∧ exec .missingCell s = .next s ∧
      exec .nominalSlot s = .next { s with gate := forDrivenZones sendIdle g }) ∧
    (g.loader.loading = false →
      (g.intake.nominalTiming = true → exec .nominalSlot s = .next { s with gate := giveSlot .idle 0 g }) ∧
      (g.intake.nominalTiming = false → exec .nominalSlot s = .next s) ∧
      (g.intake.sync ≠ .locked → exec .missingCell s = .next s ∧
        (¬ lockGood → exec (.inputCell (.arrives cell behind)) s
          = .next { s with gate := { received with intake := { g.intake with goodRun := 0 } } }) ∧
        (∀ run : Fin 5, lockGood → run.val = g.intake.goodRun.val + 1 → run.val < 4 → exec (.inputCell (.arrives cell behind)) s
          = .next { s with gate := { received with intake := { g.intake with goodRun := run } } }) ∧
        (lockGood → 3 ≤ g.intake.goodRun.val → exec (.inputCell (.arrives cell behind)) s = .next { s with
          gate := post .input 0xFF [0x02, 0, 0, 0, 0, 0]
            { received with intake := { g.intake with sync := .locked, goodRun := 4, badRun := 0 } } })) ∧
      (g.intake.sync = .locked →
        (∀ run : Fin 4, run.val = g.intake.badRun.val + 1 → run.val < 3 →
          exec .missingCell s = .next { s with
            gate := { giveSlot .idle 0 (bump .missingCells g) with intake := { g.intake with badRun := run } } } ∧
          (byteAt cell 0 ≠ 0x5C → exec (.inputCell (.arrives cell behind)) s = .next { s with
            gate := { giveSlot .idle behind (bump .syncErrors received) with
              intake := { g.intake with badRun := run } } })) ∧
        (2 ≤ g.intake.badRun.val →
          exec .missingCell s
            = .next { s with gate := lost (giveSlot .idle 0 (bump .missingCells g)) } ∧
          (byteAt cell 0 ≠ 0x5C → exec (.inputCell (.arrives cell behind)) s
            = .next { s with gate := lost (giveSlot .idle behind (bump .syncErrors received)) })) ∧
        (byteAt cell 0 = 0x5C → ¬ (byteSum (cell.take 5) % 256 = 0 ∧ byteAt cell 1 &&& 0x70 = 0) →
          exec (.inputCell (.arrives cell behind)) s = .next { s with
            gate := giveSlot .idle behind
              (bump .headerErrors { received with intake := { g.intake with badRun := 0 } }) }))) ∧
    (g.intake.sync ≠ .locked → ∀ c, c ∈ [Instr.inputCell (.arrives cell behind), .missingCell, .nominalSlot]
        ∨ (∃ z, c = .inputCell (.taken z)) →
      ∃ t, exec c s = .next t ∧ ∀ z, zoneCounter t.gate z .cellsPassed = zoneCounter g z .cellsPassed ∧
        zoneCounter t.gate z .substitutesSent = zoneCounter g z .substitutesSent ∧
        (t.gate.zone z).substitutes = (g.zone z).substitutes)

namespace Sys2Proof.Claims

open Sys2Proof Sys2Proof.Machine Sys2Proof.Safety

/-- R1: a cell that passes both header tests. -/
def HeaderGood (cell : List Byte) : Prop :=
  byteAt cell 0 = 0x5C ∧ byteSum (cell.take 5) % 256 = 0 ∧ byteAt cell 1 &&& 0x70 = 0

/-- Table 5: the lane of a cell. -/
def laneNumber (cell : List Byte) : Lane :=
  BitVec.ofNat 12 (((byteAt cell 1).toNat % 16) * 256 + (byteAt cell 2).toNat)

/-- R36, R150: the lane action of a phase is PASS. -/
def PassAction (table : ProfileTable) : Phase → Prop
  | .onSale => table.onSale.pass = true
  | .preview => table.preview.pass = true
  | .live => table.live.pass = true
  | .extra => table.extra.pass = true
  | .windDown => table.windDown.pass = true
  | .closed => table.closed.pass = true
  | .stalled => False
  | .retiring => False
  | .vacant => False

/-- R12: the part after Intake's continuity check of a control cell. -/
def afterContinuity (kind : ControlKind) (cell : List Byte) (g : Gate) : Gate :=
  let gap := match g.intake.reference kind with
    | some value => decide (byteAt cell 3 ≠ value + 1)
    | none => false
  { (if gap then bump kind.gapCounter g else g) with
    intake := g.intake.setReference (byteAt cell 3) kind }

/-- R10: the body sum of a cell is good. -/
def BodyGood (cell : List Byte) : Prop :=
  natAt cell 238 2 = byteSum ((cell.drop 5).take 233) % 65536

end Sys2Proof.Claims

namespace Sys2Proof.Claims

open Sys2Proof Sys2Proof.Machine Sys2Proof.Safety

/-- R10: the step in which the unit that a control cell was handed to takes it. -/
def takenBy : Handoff → Instr
  | .time _ => .timeCell
  | .cue _ => .cueCell
  | .management _ => .managementCell
  | .key _ _ => .keyCell

/-- R1, R10: the part as it looks a good cell up: the cell is counted and ends the bad-sync run, and a control cell that waits
for its unit has been taken by it first. -/
def LookedUp (s r : State) : Prop :=
  let received : State := { s with gate := { bump .cellsReceived s.gate with intake := { s.gate.intake with badRun := 0 } } }
  (s.gate.intake.handoff = none ∧ r = received) ∨
    ∃ h, handed s h ∧ exec (takenBy h) received = .next r

/-- R150: no test but the clear-leak guard blanks a content cell of an event on a zone. -/
def Open (g : Gate) (e : EventIndex) (z : ZoneIndex) : Prop :=
  (g.zone z).dark = false ∧ PassAction g.settings.profile (g.event e).phase ∧
    (g.event e).mask.getLsbD z.val = false

/-- R150: the clear-leak guard blanks a content cell of an event. -/
def Leaks (g : Gate) (e : EventIndex) (cell : List Byte) : Prop :=
  (g.event e).phase ∈ [Phase.live, .extra, .windDown] ∧ (byteAt cell 1).getLsbD 7 = false

/-- R151: an alternate cell of an event is substituted on a zone. -/
def Substituted (g : Gate) (e : EventIndex) (z : ZoneIndex) : Prop :=
  (g.zone z).dark = false ∧ PassAction g.settings.profile (g.event e).phase ∧
    (g.event e).mask.getLsbD z.val = true

/-- R150–R152: a blanked cell on zone z: it is counted and its slot is an idle opportunity. -/
def blanked (z : ZoneIndex) (g : Gate) : Gate :=
  idleOpportunity z (modZone z (Zone.countBy .cellsBlanked 1) g)

/-- R11, R150, R152: a cell passed on zone z: it is sent as it came, and counted. -/
def passed (z : ZoneIndex) (cell : List Byte) (g : Gate) : Gate :=
  modZone z (fun zone => Zone.countBy .cellsPassed 1 { zone with port := some cell }) g

end Sys2Proof.Claims

/-- INPUT_CELL of a good cell while LOCKED: a control cell that waits is taken by its unit first (log 10). Then, by the
cell's lane: a control cell has its continuity and its body checked and is handed over; reserved and idle lanes, like control
lanes, leave every zone an idle opportunity; and a free-lane, a content or an alternate cell comes to every driven zone. Each
zone takes it in its own order: in this step, or, where it is behind, when it next catches up, judged against the state as it
stands then (R153; which zones are behind is the sender's, log 25); and while SEARCHING or LOST the slot it holds is an idle
opportunity (R5). A free-lane cell passes; a content cell passes a zone that is not dark, in a PASS phase, outside the
event's mask and, in a LISTED phase, scrambled, and is blanked elsewhere; an alternate cell is substituted on a zone that is
not dark, in a PASS phase, inside the mask, and is blanked elsewhere; and the slot of a blanked cell is an idle opportunity.
That a zone's output holds the cell of its latest slot is the model's choice (log 16), and so is it that a cell held by a zone
whose event has become VACANT is blanked (log 42). -/
def Obligations.InputCellsAreDispatchedByLane : Prop :=
  (∀ (s r : State) (cell : List Byte) (behind : BitVec 4), s.gate.loader.loading = false →
    s.gate.intake.sync = .locked → HeaderGood cell → LookedUp s r →
    let lane := laneNumber cell
    let ready : Gate := { r.gate with intake := { r.gate.intake with nominalTiming := false } }
    let given := fun (slot : Slot) (g : Gate) =>
      exec (.inputCell (.arrives cell behind)) s = .next { s with gate := giveSlot slot behind g }
    (∀ kind : ControlKind,
      (lane = 4092 ∧ kind = .time ∨ lane = 4093 ∧ kind = .cue ∨ lane = 4094 ∧ kind = .management ∨
        ∃ e, ready.laneKind lane = .key e ∧ kind = .key e) →
      (BodyGood cell → given .idle { afterContinuity kind cell ready with
        intake := { (afterContinuity kind cell ready).intake with handoff := some (kind.handoff cell) } }) ∧
      (¬ BodyGood cell → given .idle (bump kind.bodyCounter (afterContinuity kind cell ready)))) ∧
    (lane = 4095 → given .idle ready) ∧
    (4080 ≤ lane.toNat → lane.toNat ≤ 4091 → given .idle (bump .reservedLaneCells ready)) ∧
    (ready.laneKind lane = .free → given (.free cell) ready) ∧
    (∀ e, ready.laneKind lane = .content e → given (.content e cell) ready) ∧
    (∀ e, ready.laneKind lane = .alternate e → given (.alternate e cell) ready)) ∧
  (∀ (slot : Slot) (behind : BitVec 4) (g : Gate),
    let h := giveSlot slot behind g
    h = { g with zones := h.zones, freeDraws := h.freeDraws } ∧
    ∀ z, (g.driven z = false → h.zone z = g.zone z) ∧
      (g.driven z = true → ∃ draws, h.zone z = (reachZone slot behind z { g with freeDraws := draws }).zone z)) ∧
  (∀ (slot : Slot) (behind : BitVec 4) (z : ZoneIndex) (g : Gate),
    let caughtUp := catchUp z g
    ((g.zone z).slot = none → caughtUp = g) ∧
    (∀ held, (g.zone z).slot = some held →
      let clear := modZone z (fun zone => { zone with slot := none }) g
      (g.intake.sync = .locked → caughtUp = takeSlot held z clear) ∧
      (g.intake.sync ≠ .locked → caughtUp = idleOpportunity z clear)) ∧
    (behind.getLsbD z.val = false → reachZone slot behind z g = takeSlot slot z caughtUp) ∧
    (behind.getLsbD z.val = true →
      reachZone slot behind z g = modZone z (fun zone => { zone with slot := some slot }) caughtUp)) ∧
  (∀ (s : State) (z : ZoneIndex) (held : Slot), s.gate.driven z = true → (s.gate.zone z).slot = some held →
    let clear := modZone z (fun zone => { zone with slot := none }) s.gate
    (s.gate.intake.sync = .locked → exec (.inputCell (.taken z)) s = .next { s with gate := takeSlot held z clear }) ∧
    (s.gate.intake.sync ≠ .locked → exec (.inputCell (.taken z)) s = .next { s with gate := idleOpportunity z clear })) ∧
  (∀ (z : ZoneIndex) (g : Gate) (cell : List Byte),
    takeSlot .idle z g = idleOpportunity z g ∧
    takeSlot (.free cell) z g = passed z cell g ∧
    ∀ e,
      (Open g e z → ¬ Leaks g e cell → takeSlot (.content e cell) z g = passed z cell g) ∧
      (Open g e z → Leaks g e cell →
        takeSlot (.content e cell) z g = blanked z (modZone z (Zone.countBy .clearLeakBlanks 1) g)) ∧
      (¬ Open g e z → takeSlot (.content e cell) z g = blanked z g) ∧
      (Substituted g e z → takeSlot (.alternate e cell) z g
        = modZone z (fun zone => Zone.countBy .substitutesSent 1 { zone with
            port := some (headerOf (byteAt cell 1 &&& 0x80) (g.event e).firstLane zone.substitutes[e] ++ cell.drop 5)
            substitutes := zone.substitutes.set e (zone.substitutes[e] + 1) }) g) ∧
      (¬ Substituted g e z → takeSlot (.alternate e cell) z g = blanked z g))

/-- HOLD_MESSAGE (R154): on a driven zone a message taken whole replaces the hold count and is counted, one dropped is
counted as a line error and changes nothing else, and on an undriven zone neither is counted; the hold count is 0 at
power-on and at restart. -/
def Obligations.HoldMessagesReplaceTheHoldCount : Prop :=
  (∀ (s : State) (z : ZoneIndex),
    (s.gate.driven z = true →
      (∀ value, exec (.holdMessage z (some value)) s = .next { s with
        gate := modZone z (fun zone => Zone.countBy .holdMessages 1 { zone with hold := value }) s.gate }) ∧
      exec (.holdMessage z none) s
        = .next { s with gate := modZone z (Zone.countBy .holdLineErrors 1) s.gate }) ∧
    (s.gate.driven z = false → ∀ value, exec (.holdMessage z value) s = .next s)) ∧
  (∀ (s t : State) (unit : Byte) (zones : BitVec 2) (fitted : Option (List Byte)) (z : ZoneIndex),
    exec (.powerOn unit zones fitted) s = .next t → (t.gate.zone z).hold = 0) ∧
  (∀ (s t : State) (z : ZoneIndex), s.gate.loader.loading = false → exec .restartLine s = .next t →
    (t.gate.zone z).hold = 0) ∧
  (∀ (s t : State) (z : ZoneIndex), s.gate.command.work = .restarting → s.gate.command.replies = [] →
    exec .restartStep s = .next t → (t.gate.zone z).hold = 0)

/-- One idle opportunity of a zone: held, it lowers the hold count and sends an idle cell; unheld, it counts in the window (a
count above 4,294,967,295 is a free value, log 7), raises the credit by the share, and converts to a notice at a credit of
256 with one ready. The arbiter (R157) draws from the sweep queue at turn count 7 and else from the fresh queue first; the
notice sent carries the effective time and blob of its sheet as the Key Unit holds it (of a sheet that is not held they are
free values, log 9); only a conversion advances the turn count, 7 being followed by 0, and it is 0 at power-on and at
restart. That a zone's output holds the cell of its latest slot is the model's choice (log 16). -/
def Obligations.IdleOpportunityAndArbiter : Prop :=
  (∀ (z : ZoneIndex) (g : Gate),
    let zone := g.zone z
    let h := idleOpportunity z g
    let credit := min (zone.credit.val + zone.share.toNat) 1023
    let converts := 256 ≤ credit ∧ (zone.fresh ≠ [] ∨ zone.sweep ≠ [])
    let fromSweep := zone.sweep ≠ [] ∧ (zone.turn.val = 7 ∨ zone.fresh = [])
    h = { g with zones := h.zones, freeDraws := h.freeDraws } ∧
    (∀ other, other ≠ z → h.zone other = g.zone other) ∧
    (zone.hold ≠ 0 →
      h.zone z = Zone.countBy .heldOpportunities 1 { zone with hold := zone.hold - 1, port := some idleCell }) ∧
    (zone.hold = 0 →
      (h.zone z).turn.val = (if converts then (zone.turn.val + 1) % 8 else zone.turn.val) ∧
      (h.zone z).credit.val = (if converts then credit - 256 else credit) ∧
      (zone.windowCount ≠ BitVec.allOnes 32 → (h.zone z).windowCount = zone.windowCount + 1) ∧
      (¬ converts → h.zone z = Zone.countBy .idleCellsSent 1 { zone with
        credit := (h.zone z).credit, windowCount := (h.zone z).windowCount, port := some idleCell }) ∧
      (converts → fromSweep → ∃ head rest, zone.sweep = head :: rest ∧
        h.zone z = Zone.countBy .sweepNoticesSent 1 { zone with
          sweep := rest
          credit := (h.zone z).credit
          windowCount := (h.zone z).windowCount
          turn := (h.zone z).turn
          noticeCount := zone.noticeCount + 1
          port := some (controlCell 4091 zone.noticeCount (listedBody z head)) }) ∧
      (converts → ¬ fromSweep → ∃ head rest effective blob, zone.fresh = head :: rest ∧
        HeldMaterial (g.event head.event) head.sheet effective blob ∧
        let after : Zone := { zone with
          fresh := (h.zone z).fresh
          credit := (h.zone z).credit
          windowCount := (h.zone z).windowCount
          turn := (h.zone z).turn
          noticeCount := zone.noticeCount + 1 }
        (head.form = .openAll → (h.zone z).fresh = rest ∧
          h.zone z = Zone.countBy .openNoticesSent 1 { after with
            port := some (controlCell 4091 zone.noticeCount
              (openBody z (g.event head.event).number head.sheet effective blob)) }) ∧
        (head.form = .listed →
          let alike := fun entry : FreshEntry =>
            decide (entry.form = .listed ∧ entry.event = head.event ∧ entry.sheet = head.sheet)
          let taken := (zone.fresh.filter alike).take 48
          (h.zone z).fresh.filter alike = (zone.fresh.filter alike).drop 48 ∧
          (h.zone z).fresh.filter (fun entry => !alike entry) = zone.fresh.filter (fun entry => !alike entry) ∧
          h.zone z = Zone.countBy .freshGrantsSent taken.length (Zone.countBy .listedNoticesSent 1 { after with
            port := some (controlCell 4091 zone.noticeCount
              (listedBody z
                { event := head.event
                  eventNumber := (g.event head.event).number
                  sheet := head.sheet
                  effective := effective
                  blob := blob
                  entries := taken.map FreshEntry.decoder })) }))))) ∧
  (∀ (z : ZoneIndex) (notice : Notice) (number : Half) (sheet : SheetNumber) (effective : Time) (blob : List Byte),
    listedBody z notice = [1, BitVec.ofNat 8 z.val] ++ field 2 notice.eventNumber.toNat ++ field 4 notice.sheet.toNat
      ++ field 6 notice.effective.toNat ++ padTo 72 notice.blob ++ [BitVec.ofNat 8 notice.entries.length]
      ++ notice.entries.flatMap (fun d => field 3 d.toNat) ∧
    openBody z number sheet effective blob = [2, BitVec.ofNat 8 z.val] ++ field 2 number.toNat ++ field 4 sheet.toNat
      ++ field 6 effective.toNat ++ padTo 72 blob ++ [1] ++ field 3 16777215) ∧
  (∀ (s t : State) (unit : Byte) (zones : BitVec 2) (fitted : Option (List Byte)) (z : ZoneIndex),
    exec (.powerOn unit zones fitted) s = .next t → (t.gate.zone z).turn = 0) ∧
  (∀ (s t : State) (z : ZoneIndex), s.gate.loader.loading = false → exec .restartLine s = .next t →
    (t.gate.zone z).turn = 0) ∧
  (∀ (s t : State) (z : ZoneIndex), s.gate.command.work = .restarting → s.gate.command.replies = [] →
    exec .restartStep s = .next t → (t.gate.zone z).turn = 0)
end

