-- ==== Sys2Proof/Laws/State.lean ====
section
/-! SUPPORT. What the basic updates of a Gate leave as it was, one lemma per field per update, true by rfl, and how they
read back. Later proofs unfold none of these updates. -/

namespace Sys2Proof.Machine

/-! ## bump -/

@[simp] theorem bump_freeDraws (k : PartCounter) (g : Gate) : (bump k g).freeDraws = g.freeDraws := rfl
@[simp] theorem bump_loader (k : PartCounter) (g : Gate) : (bump k g).loader = g.loader := rfl
@[simp] theorem bump_intake (k : PartCounter) (g : Gate) : (bump k g).intake = g.intake := rfl
@[simp] theorem bump_lanes (k : PartCounter) (g : Gate) : (bump k g).lanes = g.lanes := rfl
@[simp] theorem bump_clock (k : PartCounter) (g : Gate) : (bump k g).clock = g.clock := rfl
@[simp] theorem bump_settings (k : PartCounter) (g : Gate) : (bump k g).settings = g.settings := rfl
@[simp] theorem bump_events (k : PartCounter) (g : Gate) : (bump k g).events = g.events := rfl
@[simp] theorem bump_holders (k : PartCounter) (g : Gate) : (bump k g).holders = g.holders := rfl
@[simp] theorem bump_upkeep (k : PartCounter) (g : Gate) : (bump k g).upkeep = g.upkeep := rfl
@[simp] theorem bump_walker (k : PartCounter) (g : Gate) : (bump k g).walker = g.walker := rfl
@[simp] theorem bump_zones (k : PartCounter) (g : Gate) : (bump k g).zones = g.zones := rfl
@[simp] theorem bump_command (k : PartCounter) (g : Gate) : (bump k g).command = g.command := rfl
@[simp] theorem bump_output (k : PartCounter) (g : Gate) : (bump k g).output = g.output := rfl
@[simp] theorem bump_event (k : PartCounter) (g : Gate) (i : EventIndex) :
    (bump k g).event i = g.event i := rfl
@[simp] theorem bump_sheet (k : PartCounter) (g : Gate) (i : EventIndex) (j : SheetSlot) :
    (bump k g).sheet i j = g.sheet i j := rfl
@[simp] theorem bump_zone (k : PartCounter) (g : Gate) (i : ZoneIndex) :
    (bump k g).zone i = g.zone i := rfl
@[simp] theorem bump_leg (k : PartCounter) (g : Gate) (i : EventIndex) (j : SheetSlot) :
    (bump k g).leg i j = g.leg i j := rfl
@[simp] theorem bump_driven (k : PartCounter) (g : Gate) (i : ZoneIndex) :
    (bump k g).driven i = g.driven i := rfl
@[simp] theorem bump_reached (k : PartCounter) (g : Gate) (t : Time) :
    (bump k g).reached t = g.reached t := rfl

/-! ## setEvent -/

@[simp] theorem setEvent_freeDraws (e : EventIndex) (ev : Event) (g : Gate) : (g.setEvent e ev).freeDraws = g.freeDraws := rfl
@[simp] theorem setEvent_loader (e : EventIndex) (ev : Event) (g : Gate) : (g.setEvent e ev).loader = g.loader := rfl
@[simp] theorem setEvent_intake (e : EventIndex) (ev : Event) (g : Gate) : (g.setEvent e ev).intake = g.intake := rfl
@[simp] theorem setEvent_lanes (e : EventIndex) (ev : Event) (g : Gate) : (g.setEvent e ev).lanes = g.lanes := rfl
@[simp] theorem setEvent_clock (e : EventIndex) (ev : Event) (g : Gate) : (g.setEvent e ev).clock = g.clock := rfl
@[simp] theorem setEvent_settings (e : EventIndex) (ev : Event) (g : Gate) : (g.setEvent e ev).settings = g.settings := rfl
@[simp] theorem setEvent_holders (e : EventIndex) (ev : Event) (g : Gate) : (g.setEvent e ev).holders = g.holders := rfl
@[simp] theorem setEvent_upkeep (e : EventIndex) (ev : Event) (g : Gate) : (g.setEvent e ev).upkeep = g.upkeep := rfl
@[simp] theorem setEvent_walker (e : EventIndex) (ev : Event) (g : Gate) : (g.setEvent e ev).walker = g.walker := rfl
@[simp] theorem setEvent_zones (e : EventIndex) (ev : Event) (g : Gate) : (g.setEvent e ev).zones = g.zones := rfl
@[simp] theorem setEvent_command (e : EventIndex) (ev : Event) (g : Gate) : (g.setEvent e ev).command = g.command := rfl
@[simp] theorem setEvent_output (e : EventIndex) (ev : Event) (g : Gate) : (g.setEvent e ev).output = g.output := rfl
@[simp] theorem setEvent_counters (e : EventIndex) (ev : Event) (g : Gate) : (g.setEvent e ev).counters = g.counters := rfl
@[simp] theorem setEvent_zone (e : EventIndex) (ev : Event) (g : Gate) (i : ZoneIndex) :
    (g.setEvent e ev).zone i = g.zone i := rfl
@[simp] theorem setEvent_leg (e : EventIndex) (ev : Event) (g : Gate) (i : EventIndex) (j : SheetSlot) :
    (g.setEvent e ev).leg i j = g.leg i j := rfl
@[simp] theorem setEvent_driven (e : EventIndex) (ev : Event) (g : Gate) (i : ZoneIndex) :
    (g.setEvent e ev).driven i = g.driven i := rfl
@[simp] theorem setEvent_reached (e : EventIndex) (ev : Event) (g : Gate) (t : Time) :
    (g.setEvent e ev).reached t = g.reached t := rfl

/-! ## modEvent -/

@[simp] theorem modEvent_freeDraws (e : EventIndex) (f : Event → Event) (g : Gate) : (modEvent e f g).freeDraws = g.freeDraws := rfl
@[simp] theorem modEvent_loader (e : EventIndex) (f : Event → Event) (g : Gate) : (modEvent e f g).loader = g.loader := rfl
@[simp] theorem modEvent_intake (e : EventIndex) (f : Event → Event) (g : Gate) : (modEvent e f g).intake = g.intake := rfl
@[simp] theorem modEvent_lanes (e : EventIndex) (f : Event → Event) (g : Gate) : (modEvent e f g).lanes = g.lanes := rfl
@[simp] theorem modEvent_clock (e : EventIndex) (f : Event → Event) (g : Gate) : (modEvent e f g).clock = g.clock := rfl
@[simp] theorem modEvent_settings (e : EventIndex) (f : Event → Event) (g : Gate) : (modEvent e f g).settings = g.settings := rfl
@[simp] theorem modEvent_holders (e : EventIndex) (f : Event → Event) (g : Gate) : (modEvent e f g).holders = g.holders := rfl
@[simp] theorem modEvent_upkeep (e : EventIndex) (f : Event → Event) (g : Gate) : (modEvent e f g).upkeep = g.upkeep := rfl
@[simp] theorem modEvent_walker (e : EventIndex) (f : Event → Event) (g : Gate) : (modEvent e f g).walker = g.walker := rfl
@[simp] theorem modEvent_zones (e : EventIndex) (f : Event → Event) (g : Gate) : (modEvent e f g).zones = g.zones := rfl
@[simp] theorem modEvent_command (e : EventIndex) (f : Event → Event) (g : Gate) : (modEvent e f g).command = g.command := rfl
@[simp] theorem modEvent_output (e : EventIndex) (f : Event → Event) (g : Gate) : (modEvent e f g).output = g.output := rfl
@[simp] theorem modEvent_counters (e : EventIndex) (f : Event → Event) (g : Gate) : (modEvent e f g).counters = g.counters := rfl
@[simp] theorem modEvent_zone (e : EventIndex) (f : Event → Event) (g : Gate) (i : ZoneIndex) :
    (modEvent e f g).zone i = g.zone i := rfl
@[simp] theorem modEvent_leg (e : EventIndex) (f : Event → Event) (g : Gate) (i : EventIndex) (j : SheetSlot) :
    (modEvent e f g).leg i j = g.leg i j := rfl
@[simp] theorem modEvent_driven (e : EventIndex) (f : Event → Event) (g : Gate) (i : ZoneIndex) :
    (modEvent e f g).driven i = g.driven i := rfl
@[simp] theorem modEvent_reached (e : EventIndex) (f : Event → Event) (g : Gate) (t : Time) :
    (modEvent e f g).reached t = g.reached t := rfl

/-! ## bumpEvent -/

@[simp] theorem bumpEvent_freeDraws (e : EventIndex) (k : EventCounter) (g : Gate) : (bumpEvent e k g).freeDraws = g.freeDraws := rfl
@[simp] theorem bumpEvent_loader (e : EventIndex) (k : EventCounter) (g : Gate) : (bumpEvent e k g).loader = g.loader := rfl
@[simp] theorem bumpEvent_intake (e : EventIndex) (k : EventCounter) (g : Gate) : (bumpEvent e k g).intake = g.intake := rfl
@[simp] theorem bumpEvent_lanes (e : EventIndex) (k : EventCounter) (g : Gate) : (bumpEvent e k g).lanes = g.lanes := rfl
@[simp] theorem bumpEvent_clock (e : EventIndex) (k : EventCounter) (g : Gate) : (bumpEvent e k g).clock = g.clock := rfl
@[simp] theorem bumpEvent_settings (e : EventIndex) (k : EventCounter) (g : Gate) : (bumpEvent e k g).settings = g.settings := rfl
@[simp] theorem bumpEvent_holders (e : EventIndex) (k : EventCounter) (g : Gate) : (bumpEvent e k g).holders = g.holders := rfl
@[simp] theorem bumpEvent_upkeep (e : EventIndex) (k : EventCounter) (g : Gate) : (bumpEvent e k g).upkeep = g.upkeep := rfl
@[simp] theorem bumpEvent_walker (e : EventIndex) (k : EventCounter) (g : Gate) : (bumpEvent e k g).walker = g.walker := rfl
@[simp] theorem bumpEvent_zones (e : EventIndex) (k : EventCounter) (g : Gate) : (bumpEvent e k g).zones = g.zones := rfl
@[simp] theorem bumpEvent_command (e : EventIndex) (k : EventCounter) (g : Gate) : (bumpEvent e k g).command = g.command := rfl
@[simp] theorem bumpEvent_output (e : EventIndex) (k : EventCounter) (g : Gate) : (bumpEvent e k g).output = g.output := rfl
@[simp] theorem bumpEvent_counters (e : EventIndex) (k : EventCounter) (g : Gate) : (bumpEvent e k g).counters = g.counters := rfl
@[simp] theorem bumpEvent_zone (e : EventIndex) (k : EventCounter) (g : Gate) (i : ZoneIndex) :
    (bumpEvent e k g).zone i = g.zone i := rfl
@[simp] theorem bumpEvent_leg (e : EventIndex) (k : EventCounter) (g : Gate) (i : EventIndex) (j : SheetSlot) :
    (bumpEvent e k g).leg i j = g.leg i j := rfl
@[simp] theorem bumpEvent_driven (e : EventIndex) (k : EventCounter) (g : Gate) (i : ZoneIndex) :
    (bumpEvent e k g).driven i = g.driven i := rfl
@[simp] theorem bumpEvent_reached (e : EventIndex) (k : EventCounter) (g : Gate) (t : Time) :
    (bumpEvent e k g).reached t = g.reached t := rfl

/-! ## setZone -/

@[simp] theorem setZone_freeDraws (z : ZoneIndex) (zone : Zone) (g : Gate) : (g.setZone z zone).freeDraws = g.freeDraws := rfl
@[simp] theorem setZone_loader (z : ZoneIndex) (zone : Zone) (g : Gate) : (g.setZone z zone).loader = g.loader := rfl
@[simp] theorem setZone_intake (z : ZoneIndex) (zone : Zone) (g : Gate) : (g.setZone z zone).intake = g.intake := rfl
@[simp] theorem setZone_lanes (z : ZoneIndex) (zone : Zone) (g : Gate) : (g.setZone z zone).lanes = g.lanes := rfl
@[simp] theorem setZone_clock (z : ZoneIndex) (zone : Zone) (g : Gate) : (g.setZone z zone).clock = g.clock := rfl
@[simp] theorem setZone_settings (z : ZoneIndex) (zone : Zone) (g : Gate) : (g.setZone z zone).settings = g.settings := rfl
@[simp] theorem setZone_events (z : ZoneIndex) (zone : Zone) (g : Gate) : (g.setZone z zone).events = g.events := rfl
@[simp] theorem setZone_holders (z : ZoneIndex) (zone : Zone) (g : Gate) : (g.setZone z zone).holders = g.holders := rfl
@[simp] theorem setZone_upkeep (z : ZoneIndex) (zone : Zone) (g : Gate) : (g.setZone z zone).upkeep = g.upkeep := rfl
@[simp] theorem setZone_walker (z : ZoneIndex) (zone : Zone) (g : Gate) : (g.setZone z zone).walker = g.walker := rfl
@[simp] theorem setZone_command (z : ZoneIndex) (zone : Zone) (g : Gate) : (g.setZone z zone).command = g.command := rfl
@[simp] theorem setZone_output (z : ZoneIndex) (zone : Zone) (g : Gate) : (g.setZone z zone).output = g.output := rfl
@[simp] theorem setZone_counters (z : ZoneIndex) (zone : Zone) (g : Gate) : (g.setZone z zone).counters = g.counters := rfl
@[simp] theorem setZone_event (z : ZoneIndex) (zone : Zone) (g : Gate) (i : EventIndex) :
    (g.setZone z zone).event i = g.event i := rfl
@[simp] theorem setZone_sheet (z : ZoneIndex) (zone : Zone) (g : Gate) (i : EventIndex) (j : SheetSlot) :
    (g.setZone z zone).sheet i j = g.sheet i j := rfl
@[simp] theorem setZone_leg (z : ZoneIndex) (zone : Zone) (g : Gate) (i : EventIndex) (j : SheetSlot) :
    (g.setZone z zone).leg i j = g.leg i j := rfl
@[simp] theorem setZone_driven (z : ZoneIndex) (zone : Zone) (g : Gate) (i : ZoneIndex) :
    (g.setZone z zone).driven i = g.driven i := rfl
@[simp] theorem setZone_reached (z : ZoneIndex) (zone : Zone) (g : Gate) (t : Time) :
    (g.setZone z zone).reached t = g.reached t := rfl

/-! ## modZone -/

@[simp] theorem modZone_freeDraws (z : ZoneIndex) (f : Zone → Zone) (g : Gate) : (modZone z f g).freeDraws = g.freeDraws := rfl
@[simp] theorem modZone_loader (z : ZoneIndex) (f : Zone → Zone) (g : Gate) : (modZone z f g).loader = g.loader := rfl
@[simp] theorem modZone_intake (z : ZoneIndex) (f : Zone → Zone) (g : Gate) : (modZone z f g).intake = g.intake := rfl
@[simp] theorem modZone_lanes (z : ZoneIndex) (f : Zone → Zone) (g : Gate) : (modZone z f g).lanes = g.lanes := rfl
@[simp] theorem modZone_clock (z : ZoneIndex) (f : Zone → Zone) (g : Gate) : (modZone z f g).clock = g.clock := rfl
@[simp] theorem modZone_settings (z : ZoneIndex) (f : Zone → Zone) (g : Gate) : (modZone z f g).settings = g.settings := rfl
@[simp] theorem modZone_events (z : ZoneIndex) (f : Zone → Zone) (g : Gate) : (modZone z f g).events = g.events := rfl
@[simp] theorem modZone_holders (z : ZoneIndex) (f : Zone → Zone) (g : Gate) : (modZone z f g).holders = g.holders := rfl
@[simp] theorem modZone_upkeep (z : ZoneIndex) (f : Zone → Zone) (g : Gate) : (modZone z f g).upkeep = g.upkeep := rfl
@[simp] theorem modZone_walker (z : ZoneIndex) (f : Zone → Zone) (g : Gate) : (modZone z f g).walker = g.walker := rfl
@[simp] theorem modZone_command (z : ZoneIndex) (f : Zone → Zone) (g : Gate) : (modZone z f g).command = g.command := rfl
@[simp] theorem modZone_output (z : ZoneIndex) (f : Zone → Zone) (g : Gate) : (modZone z f g).output = g.output := rfl
@[simp] theorem modZone_counters (z : ZoneIndex) (f : Zone → Zone) (g : Gate) : (modZone z f g).counters = g.counters := rfl
@[simp] theorem modZone_event (z : ZoneIndex) (f : Zone → Zone) (g : Gate) (i : EventIndex) :
    (modZone z f g).event i = g.event i := rfl
@[simp] theorem modZone_sheet (z : ZoneIndex) (f : Zone → Zone) (g : Gate) (i : EventIndex) (j : SheetSlot) :
    (modZone z f g).sheet i j = g.sheet i j := rfl
@[simp] theorem modZone_leg (z : ZoneIndex) (f : Zone → Zone) (g : Gate) (i : EventIndex) (j : SheetSlot) :
    (modZone z f g).leg i j = g.leg i j := rfl
@[simp] theorem modZone_driven (z : ZoneIndex) (f : Zone → Zone) (g : Gate) (i : ZoneIndex) :
    (modZone z f g).driven i = g.driven i := rfl
@[simp] theorem modZone_reached (z : ZoneIndex) (f : Zone → Zone) (g : Gate) (t : Time) :
    (modZone z f g).reached t = g.reached t := rfl

/-! ## setLeg -/

@[simp] theorem setLeg_freeDraws (e : EventIndex) (slot : SheetSlot) (leg : Option Leg) (g : Gate) : (setLeg e slot leg g).freeDraws = g.freeDraws := rfl
@[simp] theorem setLeg_loader (e : EventIndex) (slot : SheetSlot) (leg : Option Leg) (g : Gate) : (setLeg e slot leg g).loader = g.loader := rfl
@[simp] theorem setLeg_intake (e : EventIndex) (slot : SheetSlot) (leg : Option Leg) (g : Gate) : (setLeg e slot leg g).intake = g.intake := rfl
@[simp] theorem setLeg_lanes (e : EventIndex) (slot : SheetSlot) (leg : Option Leg) (g : Gate) : (setLeg e slot leg g).lanes = g.lanes := rfl
@[simp] theorem setLeg_clock (e : EventIndex) (slot : SheetSlot) (leg : Option Leg) (g : Gate) : (setLeg e slot leg g).clock = g.clock := rfl
@[simp] theorem setLeg_settings (e : EventIndex) (slot : SheetSlot) (leg : Option Leg) (g : Gate) : (setLeg e slot leg g).settings = g.settings := rfl
@[simp] theorem setLeg_events (e : EventIndex) (slot : SheetSlot) (leg : Option Leg) (g : Gate) : (setLeg e slot leg g).events = g.events := rfl
@[simp] theorem setLeg_holders (e : EventIndex) (slot : SheetSlot) (leg : Option Leg) (g : Gate) : (setLeg e slot leg g).holders = g.holders := rfl
@[simp] theorem setLeg_upkeep (e : EventIndex) (slot : SheetSlot) (leg : Option Leg) (g : Gate) : (setLeg e slot leg g).upkeep = g.upkeep := rfl
@[simp] theorem setLeg_zones (e : EventIndex) (slot : SheetSlot) (leg : Option Leg) (g : Gate) : (setLeg e slot leg g).zones = g.zones := rfl
@[simp] theorem setLeg_command (e : EventIndex) (slot : SheetSlot) (leg : Option Leg) (g : Gate) : (setLeg e slot leg g).command = g.command := rfl
@[simp] theorem setLeg_output (e : EventIndex) (slot : SheetSlot) (leg : Option Leg) (g : Gate) : (setLeg e slot leg g).output = g.output := rfl
@[simp] theorem setLeg_counters (e : EventIndex) (slot : SheetSlot) (leg : Option Leg) (g : Gate) : (setLeg e slot leg g).counters = g.counters := rfl
@[simp] theorem setLeg_event (e : EventIndex) (slot : SheetSlot) (leg : Option Leg) (g : Gate) (i : EventIndex) :
    (setLeg e slot leg g).event i = g.event i := rfl
@[simp] theorem setLeg_sheet (e : EventIndex) (slot : SheetSlot) (leg : Option Leg) (g : Gate) (i : EventIndex) (j : SheetSlot) :
    (setLeg e slot leg g).sheet i j = g.sheet i j := rfl
@[simp] theorem setLeg_zone (e : EventIndex) (slot : SheetSlot) (leg : Option Leg) (g : Gate) (i : ZoneIndex) :
    (setLeg e slot leg g).zone i = g.zone i := rfl
@[simp] theorem setLeg_driven (e : EventIndex) (slot : SheetSlot) (leg : Option Leg) (g : Gate) (i : ZoneIndex) :
    (setLeg e slot leg g).driven i = g.driven i := rfl
@[simp] theorem setLeg_reached (e : EventIndex) (slot : SheetSlot) (leg : Option Leg) (g : Gate) (t : Time) :
    (setLeg e slot leg g).reached t = g.reached t := rfl

/-! ## mapLegs -/

@[simp] theorem mapLegs_freeDraws (f : Leg → Leg) (g : Gate) : (mapLegs f g).freeDraws = g.freeDraws := rfl
@[simp] theorem mapLegs_loader (f : Leg → Leg) (g : Gate) : (mapLegs f g).loader = g.loader := rfl
@[simp] theorem mapLegs_intake (f : Leg → Leg) (g : Gate) : (mapLegs f g).intake = g.intake := rfl
@[simp] theorem mapLegs_lanes (f : Leg → Leg) (g : Gate) : (mapLegs f g).lanes = g.lanes := rfl
@[simp] theorem mapLegs_clock (f : Leg → Leg) (g : Gate) : (mapLegs f g).clock = g.clock := rfl
@[simp] theorem mapLegs_settings (f : Leg → Leg) (g : Gate) : (mapLegs f g).settings = g.settings := rfl
@[simp] theorem mapLegs_events (f : Leg → Leg) (g : Gate) : (mapLegs f g).events = g.events := rfl
@[simp] theorem mapLegs_holders (f : Leg → Leg) (g : Gate) : (mapLegs f g).holders = g.holders := rfl
@[simp] theorem mapLegs_upkeep (f : Leg → Leg) (g : Gate) : (mapLegs f g).upkeep = g.upkeep := rfl
@[simp] theorem mapLegs_zones (f : Leg → Leg) (g : Gate) : (mapLegs f g).zones = g.zones := rfl
@[simp] theorem mapLegs_command (f : Leg → Leg) (g : Gate) : (mapLegs f g).command = g.command := rfl
@[simp] theorem mapLegs_output (f : Leg → Leg) (g : Gate) : (mapLegs f g).output = g.output := rfl
@[simp] theorem mapLegs_counters (f : Leg → Leg) (g : Gate) : (mapLegs f g).counters = g.counters := rfl
@[simp] theorem mapLegs_event (f : Leg → Leg) (g : Gate) (i : EventIndex) :
    (mapLegs f g).event i = g.event i := rfl
@[simp] theorem mapLegs_sheet (f : Leg → Leg) (g : Gate) (i : EventIndex) (j : SheetSlot) :
    (mapLegs f g).sheet i j = g.sheet i j := rfl
@[simp] theorem mapLegs_zone (f : Leg → Leg) (g : Gate) (i : ZoneIndex) :
    (mapLegs f g).zone i = g.zone i := rfl
@[simp] theorem mapLegs_driven (f : Leg → Leg) (g : Gate) (i : ZoneIndex) :
    (mapLegs f g).driven i = g.driven i := rfl
@[simp] theorem mapLegs_reached (f : Leg → Leg) (g : Gate) (t : Time) :
    (mapLegs f g).reached t = g.reached t := rfl

/-! ## post -/

@[simp] theorem post_freeDraws (kind : StatusKind) (object : Byte) (detail : List Byte) (g : Gate) : (post kind object detail g).freeDraws = g.freeDraws := rfl
@[simp] theorem post_loader (kind : StatusKind) (object : Byte) (detail : List Byte) (g : Gate) : (post kind object detail g).loader = g.loader := rfl
@[simp] theorem post_intake (kind : StatusKind) (object : Byte) (detail : List Byte) (g : Gate) : (post kind object detail g).intake = g.intake := rfl
@[simp] theorem post_lanes (kind : StatusKind) (object : Byte) (detail : List Byte) (g : Gate) : (post kind object detail g).lanes = g.lanes := rfl
@[simp] theorem post_clock (kind : StatusKind) (object : Byte) (detail : List Byte) (g : Gate) : (post kind object detail g).clock = g.clock := rfl
@[simp] theorem post_settings (kind : StatusKind) (object : Byte) (detail : List Byte) (g : Gate) : (post kind object detail g).settings = g.settings := rfl
@[simp] theorem post_events (kind : StatusKind) (object : Byte) (detail : List Byte) (g : Gate) : (post kind object detail g).events = g.events := rfl
@[simp] theorem post_holders (kind : StatusKind) (object : Byte) (detail : List Byte) (g : Gate) : (post kind object detail g).holders = g.holders := rfl
@[simp] theorem post_upkeep (kind : StatusKind) (object : Byte) (detail : List Byte) (g : Gate) : (post kind object detail g).upkeep = g.upkeep := rfl
@[simp] theorem post_walker (kind : StatusKind) (object : Byte) (detail : List Byte) (g : Gate) : (post kind object detail g).walker = g.walker := rfl
@[simp] theorem post_zones (kind : StatusKind) (object : Byte) (detail : List Byte) (g : Gate) : (post kind object detail g).zones = g.zones := rfl
@[simp] theorem post_output (kind : StatusKind) (object : Byte) (detail : List Byte) (g : Gate) : (post kind object detail g).output = g.output := rfl
@[simp] theorem post_counters (kind : StatusKind) (object : Byte) (detail : List Byte) (g : Gate) : (post kind object detail g).counters = g.counters := rfl
@[simp] theorem post_event (kind : StatusKind) (object : Byte) (detail : List Byte) (g : Gate) (i : EventIndex) :
    (post kind object detail g).event i = g.event i := rfl
@[simp] theorem post_sheet (kind : StatusKind) (object : Byte) (detail : List Byte) (g : Gate) (i : EventIndex) (j : SheetSlot) :
    (post kind object detail g).sheet i j = g.sheet i j := rfl
@[simp] theorem post_zone (kind : StatusKind) (object : Byte) (detail : List Byte) (g : Gate) (i : ZoneIndex) :
    (post kind object detail g).zone i = g.zone i := rfl
@[simp] theorem post_leg (kind : StatusKind) (object : Byte) (detail : List Byte) (g : Gate) (i : EventIndex) (j : SheetSlot) :
    (post kind object detail g).leg i j = g.leg i j := rfl
@[simp] theorem post_driven (kind : StatusKind) (object : Byte) (detail : List Byte) (g : Gate) (i : ZoneIndex) :
    (post kind object detail g).driven i = g.driven i := rfl
@[simp] theorem post_reached (kind : StatusKind) (object : Byte) (detail : List Byte) (g : Gate) (t : Time) :
    (post kind object detail g).reached t = g.reached t := rfl

/-! ## granted -/

@[simp] theorem granted_freeDraws (user : TableUser) (g : Gate) : (granted user g).freeDraws = g.freeDraws := rfl
@[simp] theorem granted_loader (user : TableUser) (g : Gate) : (granted user g).loader = g.loader := rfl
@[simp] theorem granted_intake (user : TableUser) (g : Gate) : (granted user g).intake = g.intake := rfl
@[simp] theorem granted_lanes (user : TableUser) (g : Gate) : (granted user g).lanes = g.lanes := rfl
@[simp] theorem granted_clock (user : TableUser) (g : Gate) : (granted user g).clock = g.clock := rfl
@[simp] theorem granted_settings (user : TableUser) (g : Gate) : (granted user g).settings = g.settings := rfl
@[simp] theorem granted_events (user : TableUser) (g : Gate) : (granted user g).events = g.events := rfl
@[simp] theorem granted_holders (user : TableUser) (g : Gate) : (granted user g).holders = g.holders := rfl
@[simp] theorem granted_walker (user : TableUser) (g : Gate) : (granted user g).walker = g.walker := rfl
@[simp] theorem granted_zones (user : TableUser) (g : Gate) : (granted user g).zones = g.zones := rfl
@[simp] theorem granted_command (user : TableUser) (g : Gate) : (granted user g).command = g.command := rfl
@[simp] theorem granted_output (user : TableUser) (g : Gate) : (granted user g).output = g.output := rfl
@[simp] theorem granted_counters (user : TableUser) (g : Gate) : (granted user g).counters = g.counters := rfl
@[simp] theorem granted_event (user : TableUser) (g : Gate) (i : EventIndex) :
    (granted user g).event i = g.event i := rfl
@[simp] theorem granted_sheet (user : TableUser) (g : Gate) (i : EventIndex) (j : SheetSlot) :
    (granted user g).sheet i j = g.sheet i j := rfl
@[simp] theorem granted_zone (user : TableUser) (g : Gate) (i : ZoneIndex) :
    (granted user g).zone i = g.zone i := rfl
@[simp] theorem granted_leg (user : TableUser) (g : Gate) (i : EventIndex) (j : SheetSlot) :
    (granted user g).leg i j = g.leg i j := rfl
@[simp] theorem granted_driven (user : TableUser) (g : Gate) (i : ZoneIndex) :
    (granted user g).driven i = g.driven i := rfl
@[simp] theorem granted_reached (user : TableUser) (g : Gate) (t : Time) :
    (granted user g).reached t = g.reached t := rfl

/-! ## releaseLanes -/

@[simp] theorem releaseLanes_freeDraws (e : EventIndex) (g : Gate) : (releaseLanes e g).freeDraws = g.freeDraws := rfl
@[simp] theorem releaseLanes_loader (e : EventIndex) (g : Gate) : (releaseLanes e g).loader = g.loader := rfl
@[simp] theorem releaseLanes_intake (e : EventIndex) (g : Gate) : (releaseLanes e g).intake = g.intake := rfl
@[simp] theorem releaseLanes_clock (e : EventIndex) (g : Gate) : (releaseLanes e g).clock = g.clock := rfl
@[simp] theorem releaseLanes_settings (e : EventIndex) (g : Gate) : (releaseLanes e g).settings = g.settings := rfl
@[simp] theorem releaseLanes_events (e : EventIndex) (g : Gate) : (releaseLanes e g).events = g.events := rfl
@[simp] theorem releaseLanes_holders (e : EventIndex) (g : Gate) : (releaseLanes e g).holders = g.holders := rfl
@[simp] theorem releaseLanes_upkeep (e : EventIndex) (g : Gate) : (releaseLanes e g).upkeep = g.upkeep := rfl
@[simp] theorem releaseLanes_walker (e : EventIndex) (g : Gate) : (releaseLanes e g).walker = g.walker := rfl
@[simp] theorem releaseLanes_zones (e : EventIndex) (g : Gate) : (releaseLanes e g).zones = g.zones := rfl
@[simp] theorem releaseLanes_command (e : EventIndex) (g : Gate) : (releaseLanes e g).command = g.command := rfl
@[simp] theorem releaseLanes_output (e : EventIndex) (g : Gate) : (releaseLanes e g).output = g.output := rfl
@[simp] theorem releaseLanes_counters (e : EventIndex) (g : Gate) : (releaseLanes e g).counters = g.counters := rfl
@[simp] theorem releaseLanes_event (e : EventIndex) (g : Gate) (i : EventIndex) :
    (releaseLanes e g).event i = g.event i := rfl
@[simp] theorem releaseLanes_sheet (e : EventIndex) (g : Gate) (i : EventIndex) (j : SheetSlot) :
    (releaseLanes e g).sheet i j = g.sheet i j := rfl
@[simp] theorem releaseLanes_zone (e : EventIndex) (g : Gate) (i : ZoneIndex) :
    (releaseLanes e g).zone i = g.zone i := rfl
@[simp] theorem releaseLanes_leg (e : EventIndex) (g : Gate) (i : EventIndex) (j : SheetSlot) :
    (releaseLanes e g).leg i j = g.leg i j := rfl
@[simp] theorem releaseLanes_driven (e : EventIndex) (g : Gate) (i : ZoneIndex) :
    (releaseLanes e g).driven i = g.driven i := rfl
@[simp] theorem releaseLanes_reached (e : EventIndex) (g : Gate) (t : Time) :
    (releaseLanes e g).reached t = g.reached t := rfl

/-! ## clearHandoff -/

@[simp] theorem clearHandoff_freeDraws (g : Gate) : (clearHandoff g).freeDraws = g.freeDraws := rfl
@[simp] theorem clearHandoff_loader (g : Gate) : (clearHandoff g).loader = g.loader := rfl
@[simp] theorem clearHandoff_lanes (g : Gate) : (clearHandoff g).lanes = g.lanes := rfl
@[simp] theorem clearHandoff_clock (g : Gate) : (clearHandoff g).clock = g.clock := rfl
@[simp] theorem clearHandoff_settings (g : Gate) : (clearHandoff g).settings = g.settings := rfl
@[simp] theorem clearHandoff_events (g : Gate) : (clearHandoff g).events = g.events := rfl
@[simp] theorem clearHandoff_holders (g : Gate) : (clearHandoff g).holders = g.holders := rfl
@[simp] theorem clearHandoff_upkeep (g : Gate) : (clearHandoff g).upkeep = g.upkeep := rfl
@[simp] theorem clearHandoff_walker (g : Gate) : (clearHandoff g).walker = g.walker := rfl
@[simp] theorem clearHandoff_zones (g : Gate) : (clearHandoff g).zones = g.zones := rfl
@[simp] theorem clearHandoff_command (g : Gate) : (clearHandoff g).command = g.command := rfl
@[simp] theorem clearHandoff_output (g : Gate) : (clearHandoff g).output = g.output := rfl
@[simp] theorem clearHandoff_counters (g : Gate) : (clearHandoff g).counters = g.counters := rfl
@[simp] theorem clearHandoff_event (g : Gate) (i : EventIndex) :
    (clearHandoff g).event i = g.event i := rfl
@[simp] theorem clearHandoff_sheet (g : Gate) (i : EventIndex) (j : SheetSlot) :
    (clearHandoff g).sheet i j = g.sheet i j := rfl
@[simp] theorem clearHandoff_zone (g : Gate) (i : ZoneIndex) :
    (clearHandoff g).zone i = g.zone i := rfl
@[simp] theorem clearHandoff_leg (g : Gate) (i : EventIndex) (j : SheetSlot) :
    (clearHandoff g).leg i j = g.leg i j := rfl
@[simp] theorem clearHandoff_driven (g : Gate) (i : ZoneIndex) :
    (clearHandoff g).driven i = g.driven i := rfl
@[simp] theorem clearHandoff_reached (g : Gate) (t : Time) :
    (clearHandoff g).reached t = g.reached t := rfl

/-! ## writeHolder -/

@[simp] theorem writeHolder_freeDraws (key : Nat) (after : Option Holder) (g : Gate) : (writeHolder key after g).freeDraws = g.freeDraws := rfl
@[simp] theorem writeHolder_loader (key : Nat) (after : Option Holder) (g : Gate) : (writeHolder key after g).loader = g.loader := rfl
@[simp] theorem writeHolder_intake (key : Nat) (after : Option Holder) (g : Gate) : (writeHolder key after g).intake = g.intake := rfl
@[simp] theorem writeHolder_lanes (key : Nat) (after : Option Holder) (g : Gate) : (writeHolder key after g).lanes = g.lanes := rfl
@[simp] theorem writeHolder_clock (key : Nat) (after : Option Holder) (g : Gate) : (writeHolder key after g).clock = g.clock := rfl
@[simp] theorem writeHolder_settings (key : Nat) (after : Option Holder) (g : Gate) : (writeHolder key after g).settings = g.settings := rfl
@[simp] theorem writeHolder_events (key : Nat) (after : Option Holder) (g : Gate) : (writeHolder key after g).events = g.events := rfl
@[simp] theorem writeHolder_upkeep (key : Nat) (after : Option Holder) (g : Gate) : (writeHolder key after g).upkeep = g.upkeep := rfl
@[simp] theorem writeHolder_walker (key : Nat) (after : Option Holder) (g : Gate) : (writeHolder key after g).walker = g.walker := rfl
@[simp] theorem writeHolder_zones (key : Nat) (after : Option Holder) (g : Gate) : (writeHolder key after g).zones = g.zones := rfl
@[simp] theorem writeHolder_command (key : Nat) (after : Option Holder) (g : Gate) : (writeHolder key after g).command = g.command := rfl
@[simp] theorem writeHolder_output (key : Nat) (after : Option Holder) (g : Gate) : (writeHolder key after g).output = g.output := rfl
@[simp] theorem writeHolder_counters (key : Nat) (after : Option Holder) (g : Gate) : (writeHolder key after g).counters = g.counters := rfl
@[simp] theorem writeHolder_event (key : Nat) (after : Option Holder) (g : Gate) (i : EventIndex) :
    (writeHolder key after g).event i = g.event i := rfl
@[simp] theorem writeHolder_sheet (key : Nat) (after : Option Holder) (g : Gate) (i : EventIndex) (j : SheetSlot) :
    (writeHolder key after g).sheet i j = g.sheet i j := rfl
@[simp] theorem writeHolder_zone (key : Nat) (after : Option Holder) (g : Gate) (i : ZoneIndex) :
    (writeHolder key after g).zone i = g.zone i := rfl
@[simp] theorem writeHolder_leg (key : Nat) (after : Option Holder) (g : Gate) (i : EventIndex) (j : SheetSlot) :
    (writeHolder key after g).leg i j = g.leg i j := rfl
@[simp] theorem writeHolder_driven (key : Nat) (after : Option Holder) (g : Gate) (i : ZoneIndex) :
    (writeHolder key after g).driven i = g.driven i := rfl
@[simp] theorem writeHolder_reached (key : Nat) (after : Option Holder) (g : Gate) (t : Time) :
    (writeHolder key after g).reached t = g.reached t := rfl

/-! ## setEeprom -/

@[simp] theorem setEeprom_freeDraws (eeprom : List Host.Cell) (g : Gate) : (setEeprom eeprom g).freeDraws = g.freeDraws := rfl
@[simp] theorem setEeprom_intake (eeprom : List Host.Cell) (g : Gate) : (setEeprom eeprom g).intake = g.intake := rfl
@[simp] theorem setEeprom_lanes (eeprom : List Host.Cell) (g : Gate) : (setEeprom eeprom g).lanes = g.lanes := rfl
@[simp] theorem setEeprom_clock (eeprom : List Host.Cell) (g : Gate) : (setEeprom eeprom g).clock = g.clock := rfl
@[simp] theorem setEeprom_settings (eeprom : List Host.Cell) (g : Gate) : (setEeprom eeprom g).settings = g.settings := rfl
@[simp] theorem setEeprom_events (eeprom : List Host.Cell) (g : Gate) : (setEeprom eeprom g).events = g.events := rfl
@[simp] theorem setEeprom_holders (eeprom : List Host.Cell) (g : Gate) : (setEeprom eeprom g).holders = g.holders := rfl
@[simp] theorem setEeprom_upkeep (eeprom : List Host.Cell) (g : Gate) : (setEeprom eeprom g).upkeep = g.upkeep := rfl
@[simp] theorem setEeprom_walker (eeprom : List Host.Cell) (g : Gate) : (setEeprom eeprom g).walker = g.walker := rfl
@[simp] theorem setEeprom_zones (eeprom : List Host.Cell) (g : Gate) : (setEeprom eeprom g).zones = g.zones := rfl
@[simp] theorem setEeprom_command (eeprom : List Host.Cell) (g : Gate) : (setEeprom eeprom g).command = g.command := rfl
@[simp] theorem setEeprom_output (eeprom : List Host.Cell) (g : Gate) : (setEeprom eeprom g).output = g.output := rfl
@[simp] theorem setEeprom_counters (eeprom : List Host.Cell) (g : Gate) : (setEeprom eeprom g).counters = g.counters := rfl
@[simp] theorem setEeprom_event (eeprom : List Host.Cell) (g : Gate) (i : EventIndex) :
    (setEeprom eeprom g).event i = g.event i := rfl
@[simp] theorem setEeprom_sheet (eeprom : List Host.Cell) (g : Gate) (i : EventIndex) (j : SheetSlot) :
    (setEeprom eeprom g).sheet i j = g.sheet i j := rfl
@[simp] theorem setEeprom_zone (eeprom : List Host.Cell) (g : Gate) (i : ZoneIndex) :
    (setEeprom eeprom g).zone i = g.zone i := rfl
@[simp] theorem setEeprom_leg (eeprom : List Host.Cell) (g : Gate) (i : EventIndex) (j : SheetSlot) :
    (setEeprom eeprom g).leg i j = g.leg i j := rfl
@[simp] theorem setEeprom_reached (eeprom : List Host.Cell) (g : Gate) (t : Time) :
    (setEeprom eeprom g).reached t = g.reached t := rfl

/-! ## sendReturn -/

@[simp] theorem sendReturn_freeDraws (cell : List Byte) (g : Gate) : (sendReturn cell g).freeDraws = g.freeDraws := rfl
@[simp] theorem sendReturn_loader (cell : List Byte) (g : Gate) : (sendReturn cell g).loader = g.loader := rfl
@[simp] theorem sendReturn_intake (cell : List Byte) (g : Gate) : (sendReturn cell g).intake = g.intake := rfl
@[simp] theorem sendReturn_lanes (cell : List Byte) (g : Gate) : (sendReturn cell g).lanes = g.lanes := rfl
@[simp] theorem sendReturn_clock (cell : List Byte) (g : Gate) : (sendReturn cell g).clock = g.clock := rfl
@[simp] theorem sendReturn_settings (cell : List Byte) (g : Gate) : (sendReturn cell g).settings = g.settings := rfl
@[simp] theorem sendReturn_events (cell : List Byte) (g : Gate) : (sendReturn cell g).events = g.events := rfl
@[simp] theorem sendReturn_holders (cell : List Byte) (g : Gate) : (sendReturn cell g).holders = g.holders := rfl
@[simp] theorem sendReturn_upkeep (cell : List Byte) (g : Gate) : (sendReturn cell g).upkeep = g.upkeep := rfl
@[simp] theorem sendReturn_walker (cell : List Byte) (g : Gate) : (sendReturn cell g).walker = g.walker := rfl
@[simp] theorem sendReturn_zones (cell : List Byte) (g : Gate) : (sendReturn cell g).zones = g.zones := rfl
@[simp] theorem sendReturn_command (cell : List Byte) (g : Gate) : (sendReturn cell g).command = g.command := rfl
@[simp] theorem sendReturn_counters (cell : List Byte) (g : Gate) : (sendReturn cell g).counters = g.counters := rfl
@[simp] theorem sendReturn_event (cell : List Byte) (g : Gate) (i : EventIndex) :
    (sendReturn cell g).event i = g.event i := rfl
@[simp] theorem sendReturn_sheet (cell : List Byte) (g : Gate) (i : EventIndex) (j : SheetSlot) :
    (sendReturn cell g).sheet i j = g.sheet i j := rfl
@[simp] theorem sendReturn_zone (cell : List Byte) (g : Gate) (i : ZoneIndex) :
    (sendReturn cell g).zone i = g.zone i := rfl
@[simp] theorem sendReturn_leg (cell : List Byte) (g : Gate) (i : EventIndex) (j : SheetSlot) :
    (sendReturn cell g).leg i j = g.leg i j := rfl
@[simp] theorem sendReturn_driven (cell : List Byte) (g : Gate) (i : ZoneIndex) :
    (sendReturn cell g).driven i = g.driven i := rfl
@[simp] theorem sendReturn_reached (cell : List Byte) (g : Gate) (t : Time) :
    (sendReturn cell g).reached t = g.reached t := rfl

/-! ## placeReply -/

@[simp] theorem placeReply_freeDraws (tag : Half) (code : Byte) (r : Result) (body : List Byte) (g : Gate) : (placeReply tag code r body g).freeDraws = g.freeDraws := rfl
@[simp] theorem placeReply_loader (tag : Half) (code : Byte) (r : Result) (body : List Byte) (g : Gate) : (placeReply tag code r body g).loader = g.loader := rfl
@[simp] theorem placeReply_intake (tag : Half) (code : Byte) (r : Result) (body : List Byte) (g : Gate) : (placeReply tag code r body g).intake = g.intake := rfl
@[simp] theorem placeReply_lanes (tag : Half) (code : Byte) (r : Result) (body : List Byte) (g : Gate) : (placeReply tag code r body g).lanes = g.lanes := rfl
@[simp] theorem placeReply_clock (tag : Half) (code : Byte) (r : Result) (body : List Byte) (g : Gate) : (placeReply tag code r body g).clock = g.clock := rfl
@[simp] theorem placeReply_settings (tag : Half) (code : Byte) (r : Result) (body : List Byte) (g : Gate) : (placeReply tag code r body g).settings = g.settings := rfl
@[simp] theorem placeReply_events (tag : Half) (code : Byte) (r : Result) (body : List Byte) (g : Gate) : (placeReply tag code r body g).events = g.events := rfl
@[simp] theorem placeReply_holders (tag : Half) (code : Byte) (r : Result) (body : List Byte) (g : Gate) : (placeReply tag code r body g).holders = g.holders := rfl
@[simp] theorem placeReply_upkeep (tag : Half) (code : Byte) (r : Result) (body : List Byte) (g : Gate) : (placeReply tag code r body g).upkeep = g.upkeep := rfl
@[simp] theorem placeReply_walker (tag : Half) (code : Byte) (r : Result) (body : List Byte) (g : Gate) : (placeReply tag code r body g).walker = g.walker := rfl
@[simp] theorem placeReply_zones (tag : Half) (code : Byte) (r : Result) (body : List Byte) (g : Gate) : (placeReply tag code r body g).zones = g.zones := rfl
@[simp] theorem placeReply_output (tag : Half) (code : Byte) (r : Result) (body : List Byte) (g : Gate) : (placeReply tag code r body g).output = g.output := rfl
@[simp] theorem placeReply_event (tag : Half) (code : Byte) (r : Result) (body : List Byte) (g : Gate) (i : EventIndex) :
    (placeReply tag code r body g).event i = g.event i := rfl
@[simp] theorem placeReply_sheet (tag : Half) (code : Byte) (r : Result) (body : List Byte) (g : Gate) (i : EventIndex) (j : SheetSlot) :
    (placeReply tag code r body g).sheet i j = g.sheet i j := rfl
@[simp] theorem placeReply_zone (tag : Half) (code : Byte) (r : Result) (body : List Byte) (g : Gate) (i : ZoneIndex) :
    (placeReply tag code r body g).zone i = g.zone i := rfl
@[simp] theorem placeReply_leg (tag : Half) (code : Byte) (r : Result) (body : List Byte) (g : Gate) (i : EventIndex) (j : SheetSlot) :
    (placeReply tag code r body g).leg i j = g.leg i j := rfl
@[simp] theorem placeReply_driven (tag : Half) (code : Byte) (r : Result) (body : List Byte) (g : Gate) (i : ZoneIndex) :
    (placeReply tag code r body g).driven i = g.driven i := rfl
@[simp] theorem placeReply_reached (tag : Half) (code : Byte) (r : Result) (body : List Byte) (g : Gate) (t : Time) :
    (placeReply tag code r body g).reached t = g.reached t := rfl

/-! ## Reading back -/

@[simp] theorem post_queue (kind : StatusKind) (object : Byte) (detail : List Byte) (g : Gate) :
    (post kind object detail g).command.queue = g.command.queue := rfl
@[simp] theorem post_busy (kind : StatusKind) (object : Byte) (detail : List Byte) (g : Gate) :
    (post kind object detail g).command.busy = g.command.busy := rfl
@[simp] theorem post_work (kind : StatusKind) (object : Byte) (detail : List Byte) (g : Gate) :
    (post kind object detail g).command.work = g.command.work := rfl
@[simp] theorem post_replies (kind : StatusKind) (object : Byte) (detail : List Byte) (g : Gate) :
    (post kind object detail g).command.replies = g.command.replies := rfl
@[simp] theorem post_status (kind : StatusKind) (object : Byte) (detail : List Byte) (g : Gate) :
    (post kind object detail g).command.status
      = insertItem { kind := kind, object := object, detail := detail } g.command.status := rfl

@[simp] theorem modEvent_event_same (e : EventIndex) (f : Event → Event) (g : Gate) :
    (modEvent e f g).event e = f (g.event e) := by
  simp [modEvent, Gate.event, Gate.setEvent]

theorem modEvent_event_other {e i : EventIndex} (h : i ≠ e) (f : Event → Event) (g : Gate) :
    (modEvent e f g).event i = g.event i := by
  have : (e : Nat) ≠ i := fun hh => h (Fin.ext hh.symm)
  simp [modEvent, Gate.event, Gate.setEvent, Vector.getElem_set_ne, this]

theorem modEvent_event (e i : EventIndex) (f : Event → Event) (g : Gate) :
    (modEvent e f g).event i = if i = e then f (g.event e) else g.event i := by
  by_cases h : i = e
  · subst h; simp
  · simp [h, modEvent_event_other h]

@[simp] theorem setEvent_event_same (e : EventIndex) (ev : Event) (g : Gate) : (g.setEvent e ev).event e = ev := by
  simp [Gate.event, Gate.setEvent]

theorem setEvent_event_other {e i : EventIndex} (h : i ≠ e) (ev : Event) (g : Gate) :
    (g.setEvent e ev).event i = g.event i :=
  modEvent_event_other h (fun _ => ev) g

theorem bumpEvent_event (e i : EventIndex) (k : EventCounter) (g : Gate) :
    (bumpEvent e k g).event i = if i = e then Event.countBy k 1 (g.event e) else g.event i :=
  modEvent_event e i _ g

@[simp] theorem modZone_zone_same (z : ZoneIndex) (f : Zone → Zone) (g : Gate) :
    (modZone z f g).zone z = f (g.zone z) := by
  simp [modZone, Gate.zone, Gate.setZone]

theorem modZone_zone_other {z i : ZoneIndex} (h : i ≠ z) (f : Zone → Zone) (g : Gate) :
    (modZone z f g).zone i = g.zone i := by
  have : (z : Nat) ≠ i := fun hh => h (Fin.ext hh.symm)
  simp [modZone, Gate.zone, Gate.setZone, Vector.getElem_set_ne, this]

theorem modZone_zone (z i : ZoneIndex) (f : Zone → Zone) (g : Gate) :
    (modZone z f g).zone i = if i = z then f (g.zone z) else g.zone i := by
  by_cases h : i = z
  · subst h; simp
  · simp [h, modZone_zone_other h]

@[simp] theorem setLeg_cursor (e : EventIndex) (slot : SheetSlot) (leg : Option Leg) (g : Gate) :
    (setLeg e slot leg g).walker.cursor = g.walker.cursor := rfl
@[simp] theorem setLeg_parked (e : EventIndex) (slot : SheetSlot) (leg : Option Leg) (g : Gate) :
    (setLeg e slot leg g).walker.parked = g.walker.parked := rfl
@[simp] theorem mapLegs_cursor (f : Leg → Leg) (g : Gate) : (mapLegs f g).walker.cursor = g.walker.cursor := rfl
@[simp] theorem mapLegs_parked (f : Leg → Leg) (g : Gate) : (mapLegs f g).walker.parked = g.walker.parked := rfl

@[simp] theorem Sweep.leg_setLeg_same (slot : SheetSlot) (leg : Option Leg) (sweep : Sweep) :
    (sweep.setLeg slot leg).leg slot = leg := by
  cases slot <;> rfl

theorem Sweep.leg_setLeg_other {slot j : SheetSlot} (h : j ≠ slot) (leg : Option Leg) (sweep : Sweep) :
    (sweep.setLeg slot leg).leg j = sweep.leg j := by
  cases slot <;> cases j <;> first | rfl | exact absurd rfl h

@[simp] theorem setLeg_leg_same (e : EventIndex) (slot : SheetSlot) (leg : Option Leg) (g : Gate) :
    (setLeg e slot leg g).leg e slot = leg := by
  simp [setLeg, Gate.leg]

theorem setLeg_leg_other {e i : EventIndex} {slot j : SheetSlot} (h : i ≠ e ∨ j ≠ slot) (leg : Option Leg)
    (g : Gate) : (setLeg e slot leg g).leg i j = g.leg i j := by
  by_cases hi : i = e
  · subst hi
    have hj : j ≠ slot := h.resolve_left (fun hh => hh rfl)
    simp [setLeg, Gate.leg, Sweep.leg_setLeg_other hj]
  · have : (e : Nat) ≠ i := fun hh => hi (Fin.ext hh.symm)
    simp [setLeg, Gate.leg, Vector.getElem_set_ne, this]

@[simp] theorem mapLegs_leg (f : Leg → Leg) (g : Gate) (e : EventIndex) (slot : SheetSlot) :
    (mapLegs f g).leg e slot = (g.leg e slot).map f := by
  cases slot <;> simp [mapLegs, Gate.leg, Sweep.leg]

@[simp] theorem Event.sheet_setSheet_same (slot : SheetSlot) (sheet : Option Sheet) (ev : Event) :
    (Event.setSheet slot sheet ev).sheet slot = sheet := by
  cases slot <;> rfl

theorem Event.sheet_setSheet_other {slot j : SheetSlot} (h : j ≠ slot) (sheet : Option Sheet) (ev : Event) :
    (Event.setSheet slot sheet ev).sheet j = ev.sheet j := by
  cases slot <;> cases j <;> first | rfl | exact absurd rfl h

end Sys2Proof.Machine
end

