-- ==== Sys2Proof/Laws/Delivery.lean ====
section
/-! SUPPORT. What the delivery operations can do, once for each: a relation between the part before and after that says
which state they leave alone and which bounds they keep, and one lemma per shared operation that it stands in this
relation. -/

namespace Sys2Proof.Machine

open Sys2Proof.Safety

/-! ## The relations -/

/-- What delivery leaves of a Zone Output Unit: everything but its queues, its counters and its LATE_RISK flag; and the
fresh queue's bounds. -/
structure ZoneKept (a b : Zone) : Prop where
  share : b.share = a.share
  dark : b.dark = a.dark
  credit : b.credit = a.credit
  hold : b.hold = a.hold
  turn : b.turn = a.turn
  windowCount : b.windowCount = a.windowCount
  idleRate : b.idleRate = a.idleRate
  noticeCount : b.noticeCount = a.noticeCount
  substitutes : b.substitutes = a.substitutes
  port : b.port = a.port
  slot : b.slot = a.slot
  fresh : FreshOk a → FreshOk b

/-- What no delivery step changes of an event record: what LOAD_EVENT and AMEND_EVENT alone write. -/
structure EventKept (a b : Event) : Prop where
  number : b.number = a.number
  firstLane : b.firstLane = a.firstLane
  moreLanes : b.moreLanes = a.moreLanes
  keyLane : b.keyLane = a.keyLane
  alternateLane : b.alternateLane = a.alternateLane
  mask : b.mask = a.mask
  ranges : b.ranges = a.ranges
  epoch : b.epoch = a.epoch
  previewLength : b.previewLength = a.previewLength
  cutoff : b.cutoff = a.cutoff
  extraLimit : b.extraLimit = a.extraLimit
  grace : b.grace = a.grace

/-- What a visit's placements and moves, and every delivery operation, leave alone. Event records, legs, zone queues,
counters, status items, shadow counts and the count of free values may change. -/
structure Visits (g h : Gate) : Prop where
  loader : h.loader = g.loader
  intake : h.intake = g.intake
  lanes : h.lanes = g.lanes
  clock : h.clock = g.clock
  settings : h.settings = g.settings
  holders : h.holders = g.holders
  output : h.output = g.output
  queue : h.command.queue = g.command.queue
  busy : h.command.busy = g.command.busy
  work : h.command.work = g.command.work
  replies : h.command.replies = g.command.replies
  tasks : h.upkeep.tasks = g.upkeep.tasks
  maintenance : h.upkeep.cursor = g.upkeep.cursor
  ageInstant : h.upkeep.ageInstant = g.upkeep.ageInstant
  lastGrant : h.upkeep.lastGrant = g.upkeep.lastGrant
  cursor : h.walker.cursor = g.walker.cursor
  parked : h.walker.parked = g.walker.parked
  status : StatusOk g → StatusOk h
  zone : ∀ z, ZoneKept (g.zone z) (h.zone z)
  event : ∀ e, EventKept (g.event e) (h.event e)

/-- A delivery operation: as above, and no sweep queue gains a cell. -/
structure Delivers (g h : Gate) : Prop extends Visits g h where
  shrinks : ∀ z, ((h.zone z).sweep).Sublist (g.zone z).sweep

theorem ZoneKept.refl (a : Zone) : ZoneKept a a :=
  ⟨rfl, rfl, rfl, rfl, rfl, rfl, rfl, rfl, rfl, rfl, rfl, id⟩

theorem ZoneKept.trans {a b c : Zone} (p : ZoneKept a b) (q : ZoneKept b c) : ZoneKept a c :=
  ⟨q.share.trans p.share, q.dark.trans p.dark, q.credit.trans p.credit, q.hold.trans p.hold, q.turn.trans p.turn,
    q.windowCount.trans p.windowCount, q.idleRate.trans p.idleRate, q.noticeCount.trans p.noticeCount,
    q.substitutes.trans p.substitutes, q.port.trans p.port, q.slot.trans p.slot, q.fresh ∘ p.fresh⟩

theorem EventKept.refl (a : Event) : EventKept a a :=
  ⟨rfl, rfl, rfl, rfl, rfl, rfl, rfl, rfl, rfl, rfl, rfl, rfl⟩

theorem EventKept.trans {a b c : Event} (p : EventKept a b) (q : EventKept b c) : EventKept a c :=
  ⟨q.number.trans p.number, q.firstLane.trans p.firstLane, q.moreLanes.trans p.moreLanes, q.keyLane.trans p.keyLane,
    q.alternateLane.trans p.alternateLane, q.mask.trans p.mask, q.ranges.trans p.ranges, q.epoch.trans p.epoch,
    q.previewLength.trans p.previewLength, q.cutoff.trans p.cutoff, q.extraLimit.trans p.extraLimit,
    q.grace.trans p.grace⟩

theorem Visits.refl (g : Gate) : Visits g g :=
  ⟨rfl, rfl, rfl, rfl, rfl, rfl, rfl, rfl, rfl, rfl, rfl, rfl, rfl, rfl, rfl, rfl, rfl, id,
    fun _ => ZoneKept.refl _, fun _ => EventKept.refl _⟩

theorem Visits.trans {g h k : Gate} (p : Visits g h) (q : Visits h k) : Visits g k :=
  ⟨q.loader.trans p.loader, q.intake.trans p.intake, q.lanes.trans p.lanes, q.clock.trans p.clock,
    q.settings.trans p.settings, q.holders.trans p.holders, q.output.trans p.output, q.queue.trans p.queue,
    q.busy.trans p.busy, q.work.trans p.work, q.replies.trans p.replies, q.tasks.trans p.tasks,
    q.maintenance.trans p.maintenance, q.ageInstant.trans p.ageInstant, q.lastGrant.trans p.lastGrant,
    q.cursor.trans p.cursor, q.parked.trans p.parked, q.status ∘ p.status,
    fun z => (p.zone z).trans (q.zone z), fun e => (p.event e).trans (q.event e)⟩

theorem Delivers.refl (g : Gate) : Delivers g g :=
  ⟨Visits.refl g, fun _ => List.Sublist.refl _⟩

theorem Delivers.trans {g h k : Gate} (p : Delivers g h) (q : Delivers h k) : Delivers g k :=
  ⟨p.toVisits.trans q.toVisits, fun z => (q.shrinks z).trans (p.shrinks z)⟩

/-- A fold of delivery operations delivers. -/
theorem Delivers.foldl {α : Type} {f : α → Gate → Gate} (h : ∀ a g, Delivers g (f a g)) (items : List α) (g : Gate) :
    Delivers g (items.foldl (fun acc a => f a acc) g) := by
  induction items generalizing g with
  | nil => exact Delivers.refl g
  | cons a rest ih => exact (h a g).trans (ih (f a g))

/-- A fold of operations that keep what a visit keeps does so too. -/
theorem Visits.foldl {α : Type} {f : α → Gate → Gate} (h : ∀ a g, Visits g (f a g)) (items : List α) (g : Gate) :
    Visits g (items.foldl (fun acc a => f a acc) g) := by
  induction items generalizing g with
  | nil => exact Visits.refl g
  | cons a rest ih => exact (h a g).trans (ih (f a g))

/-- Doing a delivery operation on every driven zone delivers. -/
theorem forDrivenZones_delivers {f : ZoneIndex → Gate → Gate} (h : ∀ z g, Delivers g (f z g)) (g : Gate) :
    Delivers g (forDrivenZones f g) := by
  refine Delivers.foldl (f := fun z acc => if acc.driven z then f z acc else acc) (fun z acc => ?_) allZones g
  show Delivers acc (if acc.driven z then f z acc else acc)
  split
  · exact h z acc
  · exact Delivers.refl acc

/-! ## The status set (R177) -/

theorem Item.sameKey_comm (a b : Item) : a.sameKey b = b.sameKey a := by
  simp [Item.sameKey, eq_comm]

theorem Item.sameKey_trans {a b c : Item} (p : a.sameKey b = true) (q : b.sameKey c = true) : a.sameKey c = true := by
  simp only [Item.sameKey, Bool.and_eq_true, decide_eq_true_eq] at *
  exact ⟨p.1.trans q.1, p.2.trans q.2⟩

theorem mem_insertItem {item x : Item} {items : List Item} (h : x ∈ insertItem item items) : x = item ∨ x ∈ items := by
  induction items with
  | nil => simpa [insertItem] using h
  | cons held rest ih =>
    by_cases same : item.sameKey held = true
    · rw [insertItem, if_pos same] at h
      exact (List.mem_cons.1 h).imp_right (fun newer => List.mem_cons.2 (.inr newer))
    · rw [insertItem, if_neg same] at h
      simp only [List.mem_cons] at h ⊢
      exact h.elim (fun kept => .inr (.inl kept)) (fun later => (ih later).imp_right .inr)

/-- Posting an item keeps the keys of the pending status set different. -/
theorem insertItem_pairwise (item : Item) {items : List Item}
    (h : items.Pairwise (fun a b => a.sameKey b = false)) :
    (insertItem item items).Pairwise (fun a b => a.sameKey b = false) := by
  induction items with
  | nil => exact List.pairwise_singleton _ _
  | cons held rest ih =>
    obtain ⟨hd, hr⟩ := List.pairwise_cons.1 h
    unfold insertItem
    split
    · rename_i same
      refine List.pairwise_cons.2 ⟨fun x hx => ?_, hr⟩
      rw [Bool.eq_false_iff]
      intro hix
      have : held.sameKey x = true := Item.sameKey_trans ((Item.sameKey_comm held item).trans same) hix
      simp [hd x hx] at this
    · rename_i other
      refine List.pairwise_cons.2 ⟨fun x hx => ?_, ih hr⟩
      rcases mem_insertItem hx with rfl | hx
      · rw [Item.sameKey_comm]
        exact Bool.eq_false_iff.2 other
      · exact hd x hx

/-! ## The basic updates -/

theorem bump_delivers (k : PartCounter) (g : Gate) : Delivers g (bump k g) :=
  Delivers.refl g |>.trans
    ⟨⟨rfl, rfl, rfl, rfl, rfl, rfl, rfl, rfl, rfl, rfl, rfl, rfl, rfl, rfl, rfl, rfl, rfl, id,
      fun _ => ZoneKept.refl _, fun _ => EventKept.refl _⟩, fun _ => List.Sublist.refl _⟩

theorem modEvent_delivers (e : EventIndex) {f : Event → Event} (h : ∀ ev, EventKept ev (f ev)) (g : Gate) :
    Delivers g (modEvent e f g) where
  loader := rfl
  intake := rfl
  lanes := rfl
  clock := rfl
  settings := rfl
  holders := rfl
  output := rfl
  queue := rfl
  busy := rfl
  work := rfl
  replies := rfl
  tasks := rfl
  maintenance := rfl
  ageInstant := rfl
  lastGrant := rfl
  cursor := rfl
  parked := rfl
  status := id
  zone := fun _ => ZoneKept.refl _
  shrinks := fun _ => List.Sublist.refl _
  event := fun i => by
    rw [modEvent_event]
    split
    · rename_i hi
      exact hi ▸ h _
    · exact EventKept.refl _

theorem bumpEvent_delivers (e : EventIndex) (k : EventCounter) (g : Gate) : Delivers g (bumpEvent e k g) :=
  modEvent_delivers e (fun _ => by constructor <;> rfl) g

theorem modZone_visits (z : ZoneIndex) {f : Zone → Zone} {g : Gate} (h : ZoneKept (g.zone z) (f (g.zone z))) :
    Visits g (modZone z f g) where
  loader := rfl
  intake := rfl
  lanes := rfl
  clock := rfl
  settings := rfl
  holders := rfl
  output := rfl
  queue := rfl
  busy := rfl
  work := rfl
  replies := rfl
  tasks := rfl
  maintenance := rfl
  ageInstant := rfl
  lastGrant := rfl
  cursor := rfl
  parked := rfl
  status := id
  zone := fun i => by
    rw [modZone_zone]
    split
    · rename_i hi
      exact hi ▸ h
    · exact ZoneKept.refl _
  event := fun _ => EventKept.refl _

theorem modZone_delivers (z : ZoneIndex) {f : Zone → Zone} {g : Gate} (h : ZoneKept (g.zone z) (f (g.zone z)))
    (hs : (f (g.zone z)).sweep.Sublist (g.zone z).sweep) : Delivers g (modZone z f g) :=
  ⟨modZone_visits z h, fun i => by
    rw [modZone_zone]
    split
    · rename_i hi
      exact hi ▸ hs
    · exact List.Sublist.refl _⟩

theorem zoneCountBy_kept (k : ZoneCounter) (n : Nat) (zone : Zone) : ZoneKept zone (Zone.countBy k n zone) :=
  ⟨rfl, rfl, rfl, rfl, rfl, rfl, rfl, rfl, rfl, rfl, rfl, id⟩

theorem countZone_delivers (z : ZoneIndex) (k : ZoneCounter) (n : Nat) (g : Gate) :
    Delivers g (modZone z (Zone.countBy k n) g) :=
  modZone_delivers z (zoneCountBy_kept k n _) (List.Sublist.refl _)

theorem setLeg_delivers (e : EventIndex) (slot : SheetSlot) (leg : Option Leg) (g : Gate) :
    Delivers g (setLeg e slot leg g) :=
  ⟨⟨rfl, rfl, rfl, rfl, rfl, rfl, rfl, rfl, rfl, rfl, rfl, rfl, rfl, rfl, rfl, rfl, rfl, id,
    fun _ => ZoneKept.refl _, fun _ => EventKept.refl _⟩, fun _ => List.Sublist.refl _⟩

theorem mapLegs_delivers (f : Leg → Leg) (g : Gate) : Delivers g (mapLegs f g) :=
  ⟨⟨rfl, rfl, rfl, rfl, rfl, rfl, rfl, rfl, rfl, rfl, rfl, rfl, rfl, rfl, rfl, rfl, rfl, id,
    fun _ => ZoneKept.refl _, fun _ => EventKept.refl _⟩, fun _ => List.Sublist.refl _⟩

theorem post_delivers (kind : StatusKind) (object : Byte) (detail : List Byte) (g : Gate) :
    Delivers g (post kind object detail g) :=
  ⟨⟨rfl, rfl, rfl, rfl, rfl, rfl, rfl, rfl, rfl, rfl, rfl, rfl, rfl, rfl, rfl, rfl, rfl, insertItem_pairwise _,
    fun _ => ZoneKept.refl _, fun _ => EventKept.refl _⟩, fun _ => List.Sublist.refl _⟩

/-! ## Fresh queues and sweep queues -/

theorem offerFresh_delivers (entry : FreshEntry) (z : ZoneIndex) (g : Gate) : Delivers g (offerFresh entry z g) := by
  unfold offerFresh
  split
  · exact countZone_delivers ..
  · split
    · exact countZone_delivers ..
    · rename_i absent room
      refine modZone_delivers z ⟨rfl, rfl, rfl, rfl, rfl, rfl, rfl, rfl, rfl, rfl, rfl, fun ok => ⟨?_, ?_⟩⟩
        (List.Sublist.refl _)
      · show (((g.zone z).fresh ++ [entry]).length ≤ _)
        rw [List.length_append]
        exact Nat.lt_of_not_le room
      · show ((g.zone z).fresh ++ [entry]).Nodup
        exact List.nodup_append.2 ⟨ok.2, List.nodup_singleton _, fun a ha b hb hab => by
          rw [List.mem_singleton.1 hb] at hab
          exact absent (hab ▸ ha)⟩

theorem purgeFresh_delivers (p : FreshEntry → Bool) (z : ZoneIndex) (g : Gate) : Delivers g (purgeFresh p z g) :=
  modZone_delivers z
    ⟨rfl, rfl, rfl, rfl, rfl, rfl, rfl, rfl, rfl, rfl, rfl, fun ok =>
      ⟨(List.length_filter_le _ _).trans ok.1, ok.2.filter _⟩⟩
    (List.Sublist.refl _)

theorem purgeFreshAll_delivers (p : FreshEntry → Bool) (g : Gate) : Delivers g (purgeFreshAll p g) :=
  Delivers.foldl (purgeFresh_delivers p) allZones g

theorem purgeSweep_delivers (p : Notice → Bool) (z : ZoneIndex) (g : Gate) : Delivers g (purgeSweep p z g) :=
  modZone_delivers z ⟨rfl, rfl, rfl, rfl, rfl, rfl, rfl, rfl, rfl, rfl, rfl, id⟩ List.filter_sublist

theorem purgeSweepAll_delivers (p : Notice → Bool) (g : Gate) : Delivers g (purgeSweepAll p g) :=
  Delivers.foldl (purgeSweep_delivers p) allZones g

/-! ## Legs -/

theorem afterFirstLap_delivers (wasFirstLap : Bool) (g : Gate) : Delivers g (afterFirstLap wasFirstLap g) := by
  unfold afterFirstLap
  split
  · exact mapLegs_delivers ..
  · exact Delivers.refl g

theorem dropLeg_delivers (e : EventIndex) (slot : SheetSlot) (g : Gate) : Delivers g (dropLeg e slot g) := by
  unfold dropLeg
  split
  · exact Delivers.refl g
  · exact (setLeg_delivers ..).trans (afterFirstLap_delivers ..)

theorem makeLate_delivers (e : EventIndex) (slot : SheetSlot) (leg : Leg) (g : Gate) :
    Delivers g (makeLate e slot leg g) := by
  unfold makeLate
  split
  · exact ((setLeg_delivers ..).trans (bumpEvent_delivers ..)).trans (post_delivers ..)
  · exact setLeg_delivers ..

theorem lateAtJoin_delivers (e : EventIndex) (slot : SheetSlot) (leg : Leg) (g : Gate) :
    Delivers g (lateAtJoin e slot leg g) := by
  unfold lateAtJoin
  split
  · split
    · exact makeLate_delivers ..
    · exact Delivers.refl g
  · exact Delivers.refl g

theorem enterLeg_delivers (e : EventIndex) (slot : SheetSlot) (leg : Leg) (g : Gate) :
    Delivers g (enterLeg e slot leg g) :=
  ((mapLegs_delivers ..).trans (setLeg_delivers ..)).trans (bumpEvent_delivers ..)

theorem joinLeg_delivers (e : EventIndex) (slot : SheetSlot) (g : Gate) : Delivers g (joinLeg e slot g) := by
  unfold joinLeg
  split
  · exact (enterLeg_delivers ..).trans (lateAtJoin_delivers ..)
  · exact Delivers.refl g

theorem rejoinPending_delivers (e : EventIndex) (g : Gate) : Delivers g (rejoinPending e g) := by
  unfold rejoinPending
  split
  · exact enterLeg_delivers ..
  · exact Delivers.refl g

theorem removeSweep_delivers (e : EventIndex) (g : Gate) : Delivers g (removeSweep e g) :=
  ((setLeg_delivers ..).trans (setLeg_delivers ..)).trans (afterFirstLap_delivers ..)

theorem takeOutOfEvent_delivers (d : Decoder) (e : EventIndex) (z : ZoneIndex) (g : Gate) :
    Delivers g (takeOutOfEvent d e z g) :=
  (setLeg_delivers ..).trans (setLeg_delivers ..)

theorem takeOutEverywhere_delivers (d : Decoder) (g : Gate) : Delivers g (takeOutEverywhere d g) :=
  mapLegs_delivers ..

theorem discardCells_delivers (e : EventIndex) (z : ZoneIndex) (g : Gate) : Delivers g (discardCells e z g) :=
  (setLeg_delivers ..).trans (setLeg_delivers ..)

/-! ## Open offers and the discard of a sheet -/

theorem setSheet_kept (slot : SheetSlot) (sheet : Option Sheet) (ev : Event) :
    EventKept ev (Event.setSheet slot sheet ev) := by
  cases slot <;> exact ⟨rfl, rfl, rfl, rfl, rfl, rfl, rfl, rfl, rfl, rfl, rfl, rfl⟩

theorem openOffer_delivers (e : EventIndex) (slot : SheetSlot) (g : Gate) : Delivers g (openOffer e slot g) := by
  unfold openOffer
  split
  · exact Delivers.refl g
  · refine (forDrivenZones_delivers (fun z acc => ?_) g).trans (modEvent_delivers e (setSheet_kept _ _) _)
    split
    · exact Delivers.refl acc
    · exact offerFresh_delivers ..

theorem setOpenLead_delivers (e : EventIndex) (g : Gate) : Delivers g (setOpenLead e g) := by
  unfold setOpenLead
  split
  · exact Delivers.refl g
  · dsimp only
    split
    · exact (modEvent_delivers e (fun _ => by constructor <;> rfl) g).trans
        (openOffer_delivers ..)
    · exact modEvent_delivers e (fun _ => by constructor <;> rfl) g

theorem discardSheet_delivers (e : EventIndex) (slot : SheetSlot) (g : Gate) : Delivers g (discardSheet e slot g) := by
  unfold discardSheet
  split
  · exact Delivers.refl g
  · refine (((modEvent_delivers e (fun ev => ?_) g).trans (dropLeg_delivers ..)).trans
      (purgeFreshAll_delivers ..)).trans (purgeSweepAll_delivers ..)
    cases slot <;> exact ⟨rfl, rfl, rfl, rfl, rfl, rfl, rfl, rfl, rfl, rfl, rfl, rfl⟩

/-! ## Record changes -/

theorem shiftLive_delivers (e : EventIndex) (z : ZoneIndex) (up : Bool) (g : Gate) :
    Delivers g (shiftLive e z up g) := by
  unfold shiftLive
  split
  · exact modEvent_delivers e (fun _ => by constructor <;> rfl) g
  · refine Delivers.trans (h := { g with freeDraws := g.freeDraws + 1 }) ?_
      (modEvent_delivers e (fun _ => by constructor <;> rfl) _)
    exact ⟨⟨rfl, rfl, rfl, rfl, rfl, rfl, rfl, rfl, rfl, rfl, rfl, rfl, rfl, rfl, rfl, rfl, rfl, id,
      fun _ => ZoneKept.refl _, fun _ => EventKept.refl _⟩, fun _ => List.Sublist.refl _⟩

theorem shiftShadow_delivers (z : ZoneIndex) (up : Bool) (g : Gate) : Delivers g (shiftShadow z up g) := by
  unfold shiftShadow
  split <;>
    exact ⟨⟨rfl, rfl, rfl, rfl, rfl, rfl, rfl, rfl, rfl, rfl, rfl, rfl, rfl, rfl, rfl, rfl, rfl, id,
      fun _ => ZoneKept.refl _, fun _ => EventKept.refl _⟩, fun _ => List.Sublist.refl _⟩

theorem moveCount_delivers (e : EventIndex) (b : Nat) (z : ZoneIndex) (up : Bool) (g : Gate) :
    Delivers g (moveCount e b z up g) := by
  unfold moveCount
  dsimp only
  split
  · exact (shiftLive_delivers ..).trans (shiftShadow_delivers ..)
  · exact shiftLive_delivers ..

theorem moveCounts_delivers (b : Nat) (before after : Option Holder) (e : EventIndex) (g : Gate) :
    Delivers g (moveCounts b before after e g) := by
  have fallen : Delivers g (match before with
      | some h => if eligibleOpt before e (g.event e) then moveCount e b h.zone false g else g
      | none => g) := by
    cases before with
    | none => exact Delivers.refl g
    | some h =>
      show Delivers g (if _ then _ else _)
      split
      · exact moveCount_delivers ..
      · exact Delivers.refl g
  unfold moveCounts
  dsimp only
  split
  · exact Delivers.refl g
  · cases after with
    | none => exact fallen
    | some h =>
      show Delivers g (if _ then _ else _)
      split
      · exact fallen.trans (moveCount_delivers ..)
      · exact fallen

theorem purgeLost_delivers (before after : Option Holder) (e : EventIndex) (g : Gate) :
    Delivers g (purgeLost before after e g) := by
  unfold purgeLost
  split
  · exact Delivers.refl g
  · split
    · exact (purgeFresh_delivers ..).trans (takeOutOfEvent_delivers ..)
    · exact Delivers.refl g

theorem freshForSheet_delivers (h : Holder) (e : EventIndex) (slot : SheetSlot) (g : Gate) :
    Delivers g (freshForSheet h e slot g) := by
  unfold freshForSheet
  split
  · exact Delivers.refl g
  · split
    · split
      · exact Delivers.refl g
      · exact offerFresh_delivers ..
    · exact offerFresh_delivers ..

theorem freshRule_delivers (h : Holder) (e : EventIndex) (g : Gate) : Delivers g (freshRule h e g) := by
  unfold freshRule
  split
  · exact (freshForSheet_delivers ..).trans (freshForSheet_delivers ..)
  · exact Delivers.refl g

theorem handFresh_delivers (before after : Option Holder) (e : EventIndex) (g : Gate) :
    Delivers g (handFresh before after e g) := by
  unfold handFresh
  split
  · exact Delivers.refl g
  · split
    · exact freshRule_delivers ..
    · exact Delivers.refl g

/-- Writing the table's entry of a key commutes with what a delivery operation keeps. -/
theorem Delivers.writeHolder {g h : Gate} (d : Delivers g h) (key : Nat) (after : Option Holder) :
    Delivers (writeHolder key after g) (writeHolder key after h) where
  loader := d.loader
  intake := d.intake
  lanes := d.lanes
  clock := d.clock
  settings := d.settings
  holders := by simp only [Machine.writeHolder, d.holders]
  output := d.output
  queue := d.queue
  busy := d.busy
  work := d.work
  replies := d.replies
  tasks := d.tasks
  maintenance := d.maintenance
  ageInstant := d.ageInstant
  lastGrant := d.lastGrant
  cursor := d.cursor
  parked := d.parked
  status := d.status
  zone := d.zone
  event := d.event
  shrinks := d.shrinks

/-- A record change is the change of the table's entry, and delivery. -/
theorem changeRecord_delivers (key : Nat) (before after : Option Holder) (g : Gate) :
    Delivers (writeHolder key after g) (changeRecord key before after g) :=
  (((Delivers.foldl (f := fun e acc => moveCounts (bucketOfKey key) before after e acc)
      (moveCounts_delivers (bucketOfKey key) before after) allEvents g).trans
    (Delivers.foldl (f := fun e acc => purgeLost before after e acc) (purgeLost_delivers before after) allEvents _)).trans
    (Delivers.foldl (f := fun e acc => handFresh before after e acc) (handFresh_delivers before after) allEvents _)
    ).writeHolder key after

/-! ## Phase changes -/

theorem judgePending_delivers (e : EventIndex) (g : Gate) : Delivers g (judgePending e g) := by
  unfold judgePending
  split
  · exact Delivers.refl g
  · split
    · exact (bumpEvent_delivers ..).trans (post_delivers ..)
    · split
      · exact modEvent_delivers e (fun _ => by constructor <;> rfl) g
      · exact Delivers.refl g

theorem enterListed_delivers (e : EventIndex) (g : Gate) : Delivers g (enterListed e g) :=
  ((joinLeg_delivers ..).trans (joinLeg_delivers ..)).trans (judgePending_delivers ..)

theorem classPendingOpen_delivers (e : EventIndex) (g : Gate) : Delivers g (classPendingOpen e g) := by
  unfold classPendingOpen
  split
  · exact Delivers.refl g
  · exact modEvent_delivers e (setSheet_kept _ _) g

theorem setOpenRepeat_delivers (e : EventIndex) (g : Gate) : Delivers g (setOpenRepeat e g) :=
  modEvent_delivers e (fun _ => by constructor <;> rfl) g

theorem enterOpen_delivers (e : EventIndex) (g : Gate) : Delivers g (enterOpen e g) :=
  (((openOffer_delivers ..).trans (classPendingOpen_delivers ..)).trans (setOpenLead_delivers ..)).trans
    (setOpenRepeat_delivers ..)

theorem enterNone_delivers (e : EventIndex) (g : Gate) : Delivers g (enterNone e g) :=
  ((removeSweep_delivers ..).trans (purgeFreshAll_delivers ..)).trans (purgeSweepAll_delivers ..)

theorem entryActions_delivers (e : EventIndex) (left entered : GrantMode) (g : Gate) :
    Delivers g (entryActions e left entered g) := by
  cases left <;> cases entered <;>
    first
    | exact Delivers.refl g
    | exact enterListed_delivers e g
    | exact enterOpen_delivers e g
    | exact enterNone_delivers e g

theorem stamp_kept (p : Phase) (now : Time) (ev : Event) :
    EventKept ev (Event.startStarvation now (Event.stamp p now ev.leavePreview)) := by
  unfold Event.startStarvation Event.leavePreview
  split <;> split <;> exact ⟨rfl, rfl, rfl, rfl, rfl, rfl, rfl, rfl, rfl, rfl, rfl, rfl⟩

theorem renewDeadline_kept (left : Phase) (now : Time) (ev : Event) : EventKept ev (Event.renewDeadline left now ev) := by
  unfold Event.renewDeadline
  split <;> exact ⟨rfl, rfl, rfl, rfl, rfl, rfl, rfl, rfl, rfl, rfl, rfl, rfl⟩

theorem changePhase_delivers (e : EventIndex) (p : Phase) (g : Gate) : Delivers g (changePhase e p g) :=
  (((modEvent_delivers e (stamp_kept p g.clock.siteTime) g).trans (entryActions_delivers ..)).trans
    (modEvent_delivers e (renewDeadline_kept (g.event e).phase g.clock.siteTime) _)).trans (post_delivers ..)

theorem extendPreview_delivers (e : EventIndex) (minutes : Nat) (g : Gate) : Delivers g (extendPreview e minutes g) :=
  modEvent_delivers e (fun _ => by constructor <;> rfl) g

theorem changeResume_delivers (e : EventIndex) (left entered : Phase) (g : Gate) :
    Delivers g (changeResume e left entered g) :=
  (modEvent_delivers e (fun _ => by constructor <;> rfl) g).trans
    (post_delivers ..)

theorem dropStart_delivers (task : PhaseTask) (e : EventIndex) (g : Gate) : Delivers g (dropStart task e g) := by
  unfold dropStart
  split
  · exact modEvent_delivers e (fun _ => by constructor <;> rfl) g
  · exact Delivers.refl g

theorem applyTask_delivers {e : EventIndex} {task : PhaseTask} {minutes : Nat} {g h : Gate}
    (applied : applyTask e task minutes g = some h) : Delivers g h := by
  unfold applyTask at applied
  dsimp only at applied
  split at applied
  · cases applied
    split
    · exact extendPreview_delivers ..
    · split
      · exact (dropStart_delivers ..).trans (changeResume_delivers ..)
      · exact (dropStart_delivers ..).trans (changePhase_delivers ..)
  · cases applied

/-! ## The Key Unit -/

theorem countPlacement_delivers (e : EventIndex) (slot : SheetSlot) (g : Gate) :
    Delivers g (countPlacement e slot g) := by
  unfold countPlacement
  split
  · exact bumpEvent_delivers ..
  · split
    · exact bumpEvent_delivers ..
    · exact Delivers.refl g

theorem placeSheet_delivers (e : EventIndex) (slot : SheetSlot) (sheet : Sheet) (g : Gate) :
    Delivers g (placeSheet e slot sheet g) :=
  (discardSheet_delivers ..).trans (modEvent_delivers e (setSheet_kept _ _) _)

theorem deliver_delivers (e : EventIndex) (slot : SheetSlot) (cls : SheetClass) (g : Gate) :
    Delivers g (deliver e slot cls g) := by
  unfold deliver
  split
  · exact joinLeg_delivers ..
  · exact setOpenLead_delivers ..
  · exact openOffer_delivers ..
  · exact Delivers.refl g

theorem returnFromStall_delivers (e : EventIndex) (g : Gate) : Delivers g (returnFromStall e g) := by
  unfold returnFromStall
  split
  · exact changePhase_delivers ..
  · exact Delivers.refl g

theorem acceptSheet_delivers (e : EventIndex) (number : SheetNumber) (effective : Time) (blob : List Byte) (g : Gate) :
    Delivers g (acceptSheet e number effective blob g) :=
  (((((bumpEvent_delivers ..).trans (countPlacement_delivers ..)).trans (placeSheet_delivers ..)).trans
    (modEvent_delivers e (fun _ => by constructor <;> rfl) _)).trans
    (deliver_delivers ..)).trans (returnFromStall_delivers ..)

theorem judgeSheet_delivers (e : EventIndex) (number : SheetNumber) (effective : Time) (blob : List Byte) (g : Gate) :
    Delivers g (judgeSheet e number effective blob g) := by
  unfold judgeSheet
  split
  · split
    · exact bumpEvent_delivers ..
    · split
      · exact bumpEvent_delivers ..
      · split
        · exact bumpEvent_delivers ..
        · exact acceptSheet_delivers ..
  · split
    · exact bumpEvent_delivers ..
    · exact acceptSheet_delivers ..

theorem takeKey_delivers (e : EventIndex) (cell : List Byte) (g : Gate) : Delivers g (takeKey e cell g) := by
  unfold takeKey
  split
  · exact Delivers.refl g
  · split
    · exact bumpEvent_delivers ..
    · exact judgeSheet_delivers ..

/-! ## Moves of the Sweep Walker -/

theorem moveCell_visits (e : EventIndex) (slot : SheetSlot) (z : ZoneIndex) (g : Gate) :
    Visits g (moveCell e slot z g) := by
  unfold moveCell
  split
  · exact Visits.refl g
  · split
    · exact Visits.refl g
    · exact (setLeg_delivers ..).toVisits.trans
        (modZone_visits z ⟨rfl, rfl, rfl, rfl, rfl, rfl, rfl, rfl, rfl, rfl, rfl, id⟩)

theorem moveCells_visits (e : EventIndex) (slot : SheetSlot) (g : Gate) : Visits g (moveCells e slot g) :=
  Visits.foldl (moveCell_visits e slot) allZones g

theorem flushOwed_visits (r : EventIndex × SheetSlot) (g : Gate) : Visits g (flushOwed r g) := by
  unfold flushOwed
  split
  · exact Visits.refl g
  · split
    · exact (moveCells_visits ..).trans (setLeg_delivers ..).toVisits
    · exact Visits.refl g

theorem place_visits (r : EventIndex × SheetSlot) (h : Holder) (leg : Leg) (g : Gate) : Visits g (place r h leg g) := by
  unfold place
  dsimp only
  have counted : Visits g (if leg.firstLap && leg.late then modZone h.zone (Zone.countBy .lateGrants 1)
      (setLeg r.1 r.2 (some { leg with cells := leg.cells.set h.zone (leg.cells[h.zone] ++ [h.decoder]) }) g)
      else setLeg r.1 r.2 (some { leg with cells := leg.cells.set h.zone (leg.cells[h.zone] ++ [h.decoder]) }) g) := by
    split
    · exact (setLeg_delivers ..).toVisits.trans (countZone_delivers ..).toVisits
    · exact (setLeg_delivers ..).toVisits
  split
  · exact counted.trans (moveCell_visits ..)
  · exact counted

theorem placeFor_visits (h : Holder) (r : EventIndex × SheetSlot) (g : Gate) : Visits g (placeFor h r g) := by
  unfold placeFor
  split
  · exact Visits.refl g
  · split
    · exact place_visits ..
    · exact Visits.refl g

theorem placeRecord_visits (h : Holder) (g : Gate) : Visits g (placeRecord h g) :=
  Visits.foldl (placeFor_visits h) rosterOrder g

theorem placeBucket_visits (g : Gate) : Visits g (placeBucket g) :=
  Visits.foldl (f := fun (entry : Nat × Holder) acc => placeRecord entry.2 acc)
    (fun entry acc => placeRecord_visits entry.2 acc) _ g

theorem flushLapEnd_visits (r : EventIndex × SheetSlot) (g : Gate) : Visits g (flushLapEnd r g) := by
  unfold flushLapEnd
  split
  · exact Visits.refl g
  · split
    · exact moveCells_visits ..
    · exact Visits.refl g

theorem endLap_delivers (r : EventIndex × SheetSlot) (g : Gate) : Delivers g (endLap r g) := by
  unfold endLap
  split
  · exact Delivers.refl g
  · split
    · dsimp only
      have waiting := fun ended : Option Leg => (bumpEvent_delivers r.1 .lapsCompleted g).trans
        (setLeg_delivers r.1 r.2 ended _)
      split
      · exact waiting _
      · split
        · exact (waiting _).trans (mapLegs_delivers ..)
        · exact (waiting _).trans (setLeg_delivers ..)
    · exact Delivers.refl g

end Sys2Proof.Machine
end

