-- ==== Sys2Proof/Laws/Commands.lean ====
section
/-! SUPPORT. What the operations of the Command Unit can do: a cell joining or leaving the command queue, and the beginning
of a command. -/

namespace Sys2Proof.Machine

open Sys2Proof.Safety

@[simp] theorem onGate_eq (f : Gate → Gate) (s : State) : s.onGate f = .next { s with gate := f s.gate } := rfl

/-- A cell leaving the command queue changes the queue, the busy flag and the pending status set, and nothing else. -/
theorem leaveQueue_eq (g : Gate) :
    leaveQueue g = { g with
      command := { g.command with
        queue := g.command.queue.tail
        busy := (leaveQueue g).command.busy
        status := (leaveQueue g).command.status } } := by
  unfold leaveQueue
  dsimp only
  split <;> rfl

/-- A cell joining the command queue changes the queue, the busy flag and the pending status set, and nothing else. -/
theorem joinQueue_eq (cell : List Byte) (g : Gate) :
    joinQueue cell g = { g with
      command := { g.command with
        queue := g.command.queue ++ [cell]
        busy := (joinQueue cell g).command.busy
        status := (joinQueue cell g).command.status } } := by
  unfold joinQueue
  dsimp only
  split <;> rfl

theorem leaveQueue_status {g : Gate} (h : StatusOk g) : StatusOk (leaveQueue g) := by
  unfold leaveQueue
  dsimp only
  split
  · exact insertItem_pairwise _ h
  · exact h

theorem joinQueue_status {g : Gate} (cell : List Byte) (h : StatusOk g) : StatusOk (joinQueue cell g) := by
  unfold joinQueue
  dsimp only
  split
  · exact insertItem_pairwise _ h
  · exact h

/-- The command at the head of the queue begins, or nothing happens. -/
theorem beginWhere_cases (p : Request → Bool) (run : Request → Gate → Gate) (g : Gate) :
    beginWhere p run g = g ∨
      ∃ cell rest, g.command.queue = cell :: rest ∧ g.canBegin = true ∧ p (requestOf cell) = true ∧
        (228 < (requestOf cell).length ∧
            beginWhere p run g
              = placeReply (requestOf cell).tag (requestOf cell).code .badForm [] (leaveQueue g) ∨
          (requestOf cell).length ≤ 228 ∧ beginWhere p run g = run (requestOf cell) (leaveQueue g)) := by
  unfold beginWhere
  cases queue : g.command.queue with
  | nil => exact .inl rfl
  | cons cell rest =>
    dsimp only
    split
    · rename_i begins
      rw [Bool.and_eq_true] at begins
      refine .inr ⟨cell, rest, rfl, begins.1, begins.2, ?_⟩
      split
      · exact .inl ⟨‹_›, rfl⟩
      · exact .inr ⟨Nat.le_of_not_lt ‹_›, rfl⟩
    · exact .inl rfl

/-- A command that may begin and whose body length is no more than 228 is run. -/
theorem beginWhere_runs {p : Request → Bool} {run : Request → Gate → Gate} {g : Gate} {cell : List Byte}
    {rest : List (List Byte)} (queue : g.command.queue = cell :: rest) (ready : g.canBegin = true)
    (fits : p (requestOf cell) = true) (length : (requestOf cell).length ≤ 228) :
    beginWhere p run g = run (requestOf cell) (leaveQueue g) := by
  simp [beginWhere, queue, ready, fits, Nat.not_lt.2 length]

/-- A command of one step that may begin and whose body length is no more than 228 places its answer. -/
theorem executeCommand_runs {code : Byte} {meaning : Request → Gate → Answer} {g : Gate} {cell : List Byte}
    {rest : List (List Byte)} (queue : g.command.queue = cell :: rest) (ready : g.canBegin = true)
    (fits : (requestOf cell).code = code) (length : (requestOf cell).length ≤ 228) :
    executeCommand code meaning g
      = placeReply (requestOf cell).tag (requestOf cell).code (meaning (requestOf cell) (leaveQueue g)).result
          (meaning (requestOf cell) (leaveQueue g)).body (meaning (requestOf cell) (leaveQueue g)).gate := by
  unfold executeCommand beginCommand
  exact beginWhere_runs queue ready (by simpa using fits) length

end Sys2Proof.Machine
end

