-- ==== Sys2Proof/Laws/Maintenance.lean ====
section
/-! SUPPORT. What the maintenance walker's record changes can do: a change that leaves every eligibility as it is only writes
the table (the changes of R94), and a RETIRE visit touches the counts and delivery work of its own event alone (R89). -/

namespace Sys2Proof.Machine

/-- A fold of operations that each leave every gate as it is. -/
theorem foldl_of_unchanged {α β} (f : α → β → β) (l : List α) (g : β) (h : ∀ x ∈ l, ∀ acc, f x acc = acc) :
    l.foldl (fun acc x => f x acc) g = g := by
  induction l generalizing g with
  | nil => rfl
  | cons a l ih => rw [List.foldl_cons, h a (by simp)]; exact ih g (fun x m => h x (by simp [m]))

/-- R86: a record change that changes no event's eligibility, in one zone or from eligible for none, moves no count, purges and
hands on nothing: it only writes the table. -/
theorem changeRecord_of_same_eligibility (key : Nat) (h : Holder) (after : Option Holder) (g : Gate)
    (z : after.map Holder.zone = some h.zone ∨ ∀ e ev, eligible h e ev = false)
    (same : ∀ e ev, eligibleOpt after e ev = eligible h e ev) :
    changeRecord key (some h) after g = writeHolder key after g := by
  have gr : ∀ e ev zz, grantOn after e ev zz = grantOn (some h) e ev zz := by
    intro e ev zz
    have := same e ev
    cases after with
    | none =>
      simp only [eligibleOpt] at this
      simp [grantOn, grantEligible, ← this]
    | some a =>
      simp only [eligibleOpt] at this
      simp only [grantOn, grantEligible, this]
      rcases z with z | z
      · simp at z; rw [z]
      · simp [z]
  have a1 : ∀ e acc, moveCounts (bucketOfKey key) (some h) after e acc = acc := by
    intro e acc
    unfold moveCounts
    dsimp only
    rw [same]
    rcases z with z | z
    · rw [if_pos ⟨by rfl, by rw [z]; rfl⟩]
    · have sm := same e (acc.event e)
      rw [z] at sm
      simp only [eligibleOpt, z]
      split
      · rfl
      · cases after <;> simp
  have a2 : ∀ e acc, purgeLost (some h) after e acc = acc := by
    intro e acc; unfold purgeLost; dsimp only; rw [gr]; simp
  have a3 : ∀ e acc, handFresh (some h) after e acc = acc := by
    intro e acc; unfold handFresh
    cases after with
    | none => rfl
    | some a => dsimp only; rw [gr]; simp
  unfold changeRecord
  dsimp only
  rw [foldl_of_unchanged _ _ _ (fun e _ => a1 e), foldl_of_unchanged _ _ _ (fun e _ => a2 e),
    foldl_of_unchanged _ _ _ (fun e _ => a3 e)]

/-- A fold over the events of operations that change nothing but for one event is that event's operation. -/
theorem foldl_allEvents_of_one (f : EventIndex → Gate → Gate) (e : EventIndex) (g : Gate)
    (h : ∀ x, x ≠ e → ∀ acc, f x acc = acc) :
    allEvents.foldl (fun acc x => f x acc) g = f e g := by
  have key : ∀ (l : List EventIndex) (g : Gate), l.Nodup →
      l.foldl (fun acc x => f x acc) g = if e ∈ l then f e g else g := by
    intro l
    induction l with
    | nil => intro g _; rfl
    | cons a l ih =>
      intro g nd
      rw [List.foldl_cons, ih _ (List.nodup_cons.mp nd).2]
      by_cases ae : a = e
      · subst ae
        rw [if_neg (List.nodup_cons.mp nd).1]; simp
      · rw [h a ae]
        simp [Ne.symm ae]
  have mem : e ∈ allEvents := by clear key h; revert e; decide
  rw [key _ _ (by decide), if_pos mem]

/-- R89: clearing index e leaves every other index of a set. -/
theorem clearIndex_getLsbD_of_ne (e x : EventIndex) (ne : x ≠ e) (s : EventSet) :
    (clearIndex e s).getLsbD x.val = s.getLsbD x.val := by
  unfold clearIndex
  have : x.val ≠ e.val := fun q => ne (Fin.ext q)
  have := x.isLt
  simp only [BitVec.getLsbD_and, BitVec.getLsbD_not, BitVec.getLsbD_shiftLeft]
  by_cases l : x.val < e.val
  · simp [l]
  · have : x.val - e.val ≠ 0 := by omega
    simp [l, this]

/-- R89: index e is not in a set from which it has been cleared. -/
theorem clearIndex_getLsbD_self (e : EventIndex) (s : EventSet) : (clearIndex e s).getLsbD e.val = false := by
  unfold clearIndex
  have := e.isLt
  simp

/-- R89: no other event's eligibility depends on e's place in the sets. -/
theorem eligible_forget_of_ne (e x : EventIndex) (ne : x ≠ e) (h : Holder) (ev : Event) :
    eligible (h.forget e) x ev = eligible h x ev := by
  unfold eligible Holder.forget
  simp only [clearIndex_getLsbD_of_ne e x ne]

/-- R89: a record that holds e in none of its sets is not eligible for e. -/
theorem eligible_forget_self (e : EventIndex) (h : Holder) (ev : Event) : eligible (h.forget e) e ev = false := by
  unfold eligible Holder.forget
  simp only [clearIndex_getLsbD_self, Bool.false_and, Bool.or_false, Bool.and_false]

/-- R89, R102: the same of grant-eligibility for another event. -/
theorem grantOn_forget_of_ne (e x : EventIndex) (ne : x ≠ e) (h : Holder) (ev : Event) (z : ZoneIndex) :
    grantOn (some (h.forget e)) x ev z = grantOn (some h) x ev z := by
  show (eligible (h.forget e) x ev && _ && _) = (eligible h x ev && _ && _)
  rw [eligible_forget_of_ne e x ne]; rfl

/-- R89, R102: the same of grant-eligibility for e. -/
theorem grantOn_forget_self (e : EventIndex) (h : Holder) (ev : Event) (z : ZoneIndex) :
    grantOn (some (h.forget e)) e ev z = false := by
  show (eligible (h.forget e) e ev && _ && _) = false
  rw [eligible_forget_self]; rfl

/-- R89: a RETIRE(e) visit of a record that held e moves e's counts, purges what e had for the record, writes the table, and
hands nothing on. -/
theorem changeRecord_forget (key : Nat) (h : Holder) (e : EventIndex) (g : Gate) :
    changeRecord key (some h) (some (h.forget e)) g =
      writeHolder key (some (h.forget e)) (purgeLost (some h) (some (h.forget e)) e
        (moveCounts (bucketOfKey key) (some h) (some (h.forget e)) e g)) := by
  unfold changeRecord
  dsimp only
  rw [foldl_allEvents_of_one (fun x acc => moveCounts (bucketOfKey key) (some h) (some (h.forget e)) x acc) e,
    foldl_allEvents_of_one (fun x acc => purgeLost (some h) (some (h.forget e)) x acc) e,
    foldl_of_unchanged (fun x acc => handFresh (some h) (some (h.forget e)) x acc)]
  · intro x _ acc
    unfold handFresh
    dsimp only
    by_cases xe : x = e
    · subst xe; rw [grantOn_forget_self]; simp
    · rw [grantOn_forget_of_ne e x xe]
      change (if (grantOn (some h) x (acc.event x) h.zone && !grantOn (some h) x (acc.event x) h.zone) = true
        then _ else _) = _
      simp
  · intro x xe acc
    unfold purgeLost
    dsimp only
    rw [grantOn_forget_of_ne e x xe]
    simp
  · intro x xe acc
    unfold moveCounts
    dsimp only
    rw [if_pos ⟨(eligible_forget_of_ne e x xe h (acc.event x)).symm, rfl⟩]

end Sys2Proof.Machine
end

