-- ==== Sys2Proof/Laws/PerInstr.lean ====
section
/-! SUPPORT. Statements made for every command as syntax, one lemma per constructor. -/

namespace Sys2Proof.Laws.NoWord

/-- No word spells the command: the rows of the table give no bits. -/
def Statement (i : Instr) : Prop :=
  ∀ nbits w, decodeTableWord nbits w ≠ some i

theorem of_any (i : Instr) : Statement i := fun _ _ h => nomatch h

theorem powerOn (unitStraps : Byte) (zoneStraps : BitVec 2) (fitted : Option (List Byte)) : Statement (.powerOn unitStraps zoneStraps fitted) := of_any _
theorem imageLoadEnd (acknowledged : Nat) : Statement (.imageLoadEnd acknowledged) := of_any _
theorem inputCell (step : CellStep) : Statement (.inputCell step) := of_any _
theorem missingCell : Statement .missingCell := of_any _
theorem nominalSlot : Statement .nominalSlot := of_any _
theorem holdMessage (zone : ZoneIndex) (value : Option Half) : Statement (.holdMessage zone value) := of_any _
theorem siteClockTick : Statement .siteClockTick := of_any _
theorem timeCell : Statement .timeCell := of_any _
theorem windowClose : Statement .windowClose := of_any _
theorem cueCell : Statement .cueCell := of_any _
theorem phaseDeadlineExpiry (event : EventIndex) : Statement (.phaseDeadlineExpiry event) := of_any _
theorem keyCell : Statement .keyCell := of_any _
theorem promotion (event : EventIndex) : Statement (.promotion event) := of_any _
theorem openLeadInstant (event : EventIndex) : Statement (.openLeadInstant event) := of_any _
theorem openRepeat (event : EventIndex) : Statement (.openRepeat event) := of_any _
theorem starvationInstant (event : EventIndex) : Statement (.starvationInstant event) := of_any _
theorem legLate (event : EventIndex) (slot : SheetSlot) : Statement (.legLate event slot) := of_any _
theorem sweepVisit : Statement .sweepVisit := of_any _
theorem maintenanceVisit : Statement .maintenanceVisit := of_any _
theorem ageInstant : Statement .ageInstant := of_any _
theorem managementCell : Statement .managementCell := of_any _
theorem returnSlot : Statement .returnSlot := of_any _
theorem unknownCommand : Statement .unknownCommand := of_any _
theorem loadEvent : Statement .loadEvent := of_any _
theorem amendEvent : Statement .amendEvent := of_any _
theorem steerEvent : Statement .steerEvent := of_any _
theorem retireEvent : Statement .retireEvent := of_any _
theorem readEvent : Statement .readEvent := of_any _
theorem purchase : Statement .purchase := of_any _
theorem purchaseItem : Statement .purchaseItem := of_any _
theorem cancel : Statement .cancel := of_any _
theorem putHolder : Statement .putHolder := of_any _
theorem dropHolder : Statement .dropHolder := of_any _
theorem force : Statement .force := of_any _
theorem release : Statement .release := of_any _
theorem bar : Statement .bar := of_any _
theorem unbar : Statement .unbar := of_any _
theorem readHolder : Statement .readHolder := of_any _
theorem dump : Statement .dump := of_any _
theorem setZone : Statement .setZone := of_any _
theorem setProfile : Statement .setProfile := of_any _
theorem setCueMap : Statement .setCueMap := of_any _
theorem setTiming : Statement .setTiming := of_any _
theorem readCounters : Statement .readCounters := of_any _
theorem saveImage : Statement .saveImage := of_any _
theorem saveImageEnd (acknowledged : Nat) : Statement (.saveImageEnd acknowledged) := of_any _
theorem restart : Statement .restart := of_any _
theorem restartStep : Statement .restartStep := of_any _
theorem restartLine : Statement .restartLine := of_any _

end Sys2Proof.Laws.NoWord
end

