-- ==== Sys2Proof/Laws/Sheets.lean ====
section
/-! SUPPORT. What an open offer and the discard of a sheet do, each in one equation: to every zone at once, to the event's
record, and to the legs of the roster (R68, R70, R132). And the leg that a join gives (R120). -/

namespace Sys2Proof.Machine

/-! ## All zones at once -/

/-- Every zone changed, each by a change of its own. -/
def onZones (u : ZoneIndex → Zone → Zone) (g : Gate) : Gate :=
  { g with zones := Vector.ofFn (fun z => u z (g.zone z)) }

@[simp] theorem onZones_zone (u : ZoneIndex → Zone → Zone) (g : Gate) (z : ZoneIndex) :
    (onZones u g).zone z = u z (g.zone z) := by
  simp [onZones, Gate.zone]
@[simp] theorem onZones_event (u : ZoneIndex → Zone → Zone) (g : Gate) (e : EventIndex) :
    (onZones u g).event e = g.event e := rfl
@[simp] theorem onZones_sheet (u : ZoneIndex → Zone → Zone) (g : Gate) (e : EventIndex) (slot : SheetSlot) :
    (onZones u g).sheet e slot = g.sheet e slot := rfl
@[simp] theorem onZones_leg (u : ZoneIndex → Zone → Zone) (g : Gate) (e : EventIndex) (slot : SheetSlot) :
    (onZones u g).leg e slot = g.leg e slot := rfl
@[simp] theorem onZones_driven (u : ZoneIndex → Zone → Zone) (g : Gate) (z : ZoneIndex) :
    (onZones u g).driven z = g.driven z := rfl
@[simp] theorem onZones_reached (u : ZoneIndex → Zone → Zone) (g : Gate) (t : Time) :
    (onZones u g).reached t = g.reached t := rfl

/-- A fold over the zones that changes each zone by itself changes all zones at once. -/
theorem foldZones_eq (u : ZoneIndex → Zone → Zone) (f : ZoneIndex → Gate → Gate) (g : Gate)
    (each : ∀ z zones, f z { g with zones := zones } = modZone z (u z) { g with zones := zones }) :
    allZones.foldl (fun acc z => f z acc) g = onZones u g := by
  have step : ∀ z zones, f z { g with zones := zones }
      = { g with zones := zones.set z (u z zones[z]) } := fun z zones => each z zones
  have zones : (modZone 3 (u 3) (modZone 2 (u 2) (modZone 1 (u 1) (modZone 0 (u 0) g)))).zones = (onZones u g).zones := by
    refine Vector.ext (fun i hi => ?_)
    have at_ : ∀ h : Gate, h.zones[i] = h.zone ⟨i, hi⟩ := fun _ => rfl
    rw [at_, at_, onZones_zone]
    simp only [modZone_zone]
    have : i = 0 ∨ i = 1 ∨ i = 2 ∨ i = 3 := by omega
    rcases this with rfl | rfl | rfl | rfl <;> rfl
  show f 3 (f 2 (f 1 (f 0 { g with zones := g.zones }))) = _
  rw [step, step, step, step]
  exact congrArg (fun zones => { g with zones := zones }) zones

/-! ## Open offers -/

/-- R140: a fresh queue after an offer. -/
def offerTo (entry : FreshEntry) (queue : List FreshEntry) : List FreshEntry :=
  if entry ∈ queue ∨ Config.freshQueueSize ≤ queue.length then queue else queue ++ [entry]

/-- R140: a zone after an offer. -/
def offerZone (entry : FreshEntry) (zone : Zone) : Zone :=
  if entry ∈ zone.fresh then Zone.countBy .mergedEntries 1 zone
  else if Config.freshQueueSize ≤ zone.fresh.length then Zone.countBy .freshOverflows 1 zone
  else Zone.countBy .entriesQueued 1 { zone with fresh := zone.fresh ++ [entry] }

theorem offerFresh_eq (entry : FreshEntry) (z : ZoneIndex) (g : Gate) :
    offerFresh entry z g = modZone z (offerZone entry) g := by
  unfold offerFresh
  split
  · simp [modZone, offerZone, *]
  · split <;> simp [modZone, offerZone, *]

/-- An offer changes the fresh queue and the counters of a zone alone. -/
theorem offerZone_frame (entry : FreshEntry) (zone : Zone) :
    offerZone entry zone = { zone with fresh := offerTo entry zone.fresh, counters := (offerZone entry zone).counters } := by
  unfold offerZone offerTo
  by_cases held : entry ∈ zone.fresh
  · simp [held, Zone.countBy]
  · by_cases full : Config.freshQueueSize ≤ zone.fresh.length
    · simp [held, full, Zone.countBy]
    · simp [held, full, Zone.countBy]

@[simp] theorem offerZone_fresh (entry : FreshEntry) (zone : Zone) :
    (offerZone entry zone).fresh = offerTo entry zone.fresh := by
  rw [offerZone_frame]

@[simp] theorem offerZone_sweep (entry : FreshEntry) (zone : Zone) : (offerZone entry zone).sweep = zone.sweep := by
  rw [offerZone_frame]

/-- R70: is zone z given an event's open entries? -/
def Gate.opens (g : Gate) (e : EventIndex) (z : ZoneIndex) : Bool :=
  g.driven z && !(g.event e).masks z

/-- R70: an open offer of a sheet that is held changes the zones given its entries, and the sheet's mark. -/
theorem openOffer_eq {e : EventIndex} {slot : SheetSlot} {g : Gate} {sheet : Sheet} (h : g.sheet e slot = some sheet) :
    openOffer e slot g = modEvent e (Event.setSheet slot (some { sheet with mark := true }))
      (onZones (fun z zone => if g.opens e z then offerZone (openEntry e sheet.number) zone else zone) g) := by
  unfold openOffer
  rw [h]
  dsimp only
  congr 1
  unfold forDrivenZones
  refine foldZones_eq _ (fun z acc => if acc.driven z then
    (if (acc.event e).masks z then acc else offerFresh (openEntry e sheet.number) z acc) else acc) g (fun z zones => ?_)
  have same : ∀ acc : Gate, modZone z (fun zone => zone) acc = acc := fun acc => by
    simp [modZone, Gate.setZone, Gate.zone]
  show (if g.driven z then
    (if (g.event e).masks z then { g with zones := zones } else offerFresh _ z { g with zones := zones })
    else { g with zones := zones }) = _
  rw [offerFresh_eq, Gate.opens]
  cases g.driven z <;> cases (g.event e).masks z <;> simp [same]

theorem openOffer_none {e : EventIndex} {slot : SheetSlot} {g : Gate} (h : g.sheet e slot = none) :
    openOffer e slot g = g := by
  unfold openOffer
  rw [h]

/-! ## The discard of a sheet -/

/-- R68: a zone without the fresh entries and the sweep-queue cells of a sheet. -/
def purgeZone (e : EventIndex) (number : SheetNumber) (zone : Zone) : Zone :=
  let kept := zone.sweep.filter (fun notice => !notice.carries e number)
  Zone.countBy .sweepCellsPurged (zone.sweep.length - kept.length)
    { zone with fresh := zone.fresh.filter (fun entry => !entry.names e number), sweep := kept }

theorem purge_eq (e : EventIndex) (number : SheetNumber) (g : Gate) :
    purgeSweepAll (fun notice => notice.carries e number)
      (purgeFreshAll (fun entry => entry.names e number) g) = onZones (fun _ => purgeZone e number) g := by
  have fresh := foldZones_eq (fun _ zone => { zone with fresh := zone.fresh.filter (fun entry => !entry.names e number) })
    (purgeFresh (fun entry => entry.names e number)) g (fun _ _ => rfl)
  have sweep := foldZones_eq (fun _ zone => Zone.countBy .sweepCellsPurged
      (zone.sweep.length - (zone.sweep.filter (fun notice => !notice.carries e number)).length)
      { zone with sweep := zone.sweep.filter (fun notice => !notice.carries e number) })
    (purgeSweep (fun notice => notice.carries e number))
    (purgeFreshAll (fun entry => entry.names e number) g) (fun _ _ => rfl)
  refine sweep.trans ?_
  rw [purgeFreshAll, fresh]
  simp only [onZones, purgeZone, Gate.zone]
  congr 1

/-- R68, R70: the record of an event whose sheet in a slot is discarded. -/
def Event.without (slot : SheetSlot) (ev : Event) : Event :=
  { Event.setSheet slot none ev with openLead := if slot = .pending then none else ev.openLead }

/-- R68: the discard of a sheet that is held: its slot is emptied, its leg dropped and every zone purged. -/
theorem discardSheet_eq {e : EventIndex} {slot : SheetSlot} {g : Gate} {sheet : Sheet} (h : g.sheet e slot = some sheet) :
    discardSheet e slot g
      = onZones (fun _ => purgeZone e sheet.number) (dropLeg e slot (modEvent e (Event.without slot) g)) := by
  unfold discardSheet
  rw [h]
  exact purge_eq ..

theorem discardSheet_none {e : EventIndex} {slot : SheetSlot} {g : Gate} (h : g.sheet e slot = none) :
    discardSheet e slot g = g := by
  unfold discardSheet
  rw [h]

/-! ## The join of a leg -/

/-- R120, R134: the leg after a join: on its first lap at the cursor, and late where its deadline has been reached. -/
theorem joinLeg_leg {e : EventIndex} {slot : SheetSlot} {g : Gate} {sheet : Sheet} (held : g.sheet e slot = some sheet)
    (free : g.leg e slot = none) :
    (joinLeg e slot g).leg e slot = some
      (if sheet.legDeadline.any g.reached then { Leg.joined sheet g.walker.cursor with late := true, deadline := none }
      else Leg.joined sheet g.walker.cursor) := by
  have entered : (enterLeg e slot (Leg.joined sheet g.walker.cursor) g).leg e slot
      = some (Leg.joined sheet g.walker.cursor) := setLeg_leg_same e slot _ (mapLegs Leg.suspend g)
  unfold joinLeg
  rw [held, free]
  dsimp only
  unfold lateAtJoin
  rw [show (Leg.joined sheet g.walker.cursor).deadline = sheet.legDeadline from rfl]
  cases sheet.legDeadline with
  | none => exact entered
  | some t =>
    rw [Option.any_some]
    dsimp only
    rw [show (enterLeg e slot (Leg.joined sheet g.walker.cursor) g).reached t = g.reached t from rfl]
    split
    · exact setLeg_leg_same e slot _ (enterLeg e slot (Leg.joined sheet g.walker.cursor) g)
    · exact entered

/-! ## The drop of a leg -/

/-- R132: a dropped leg changes the roster alone. -/
theorem dropLeg_frame (e : EventIndex) (slot : SheetSlot) (g : Gate) :
    dropLeg e slot g = { g with walker := { g.walker with roster := (dropLeg e slot g).walker.roster } } := by
  unfold dropLeg
  split
  · rfl
  · unfold afterFirstLap
    split <;> rfl

theorem mem_rosterOrder (e : EventIndex) (slot : SheetSlot) : (e, slot) ∈ rosterOrder := by
  revert e
  cases slot <;> decide +kernel

theorem hasFirstLap_iff (g : Gate) :
    g.hasFirstLap = true ↔ ∃ e slot leg, g.leg e slot = some leg ∧ leg.firstLap = true := by
  unfold Gate.hasFirstLap Gate.anyLeg
  rw [List.any_eq_true]
  constructor
  · rintro ⟨⟨e, slot⟩, -, found⟩
    dsimp only at found
    split at found
    · rename_i leg eq
      exact ⟨e, slot, leg, eq, found⟩
    · exact absurd found Bool.false_ne_true
  · rintro ⟨e, slot, leg, eq, found⟩
    exact ⟨(e, slot), mem_rosterOrder e slot, by dsimp only; rw [eq]; exact found⟩

/-- R124, R132: the legs after a drop: the place is empty; the others resume where the dropped leg was the last on a first
lap, and else stay. -/
theorem dropLeg_leg (e f : EventIndex) (slot other : SheetSlot) (g : Gate) :
    (dropLeg e slot g).leg f other =
      if f = e ∧ other = slot then none
      else if (g.leg e slot).any Leg.firstLap && !(setLeg e slot none g).hasFirstLap then
        (g.leg f other).map (Leg.resume g.walker.cursor)
      else g.leg f other := by
  have cleared : (setLeg e slot none g).leg f other = if f = e ∧ other = slot then none else g.leg f other := by
    split
    · rename_i place
      rw [place.1, place.2, setLeg_leg_same]
    · rename_i place
      exact setLeg_leg_other (Classical.or_iff_not_imp_left.2 (fun here there =>
        place ⟨Classical.not_not.1 here, there⟩)) none g
  unfold dropLeg
  cases held : g.leg e slot with
  | none =>
    simp only [Option.any_none, Bool.false_and, Bool.false_eq_true, if_false]
    split
    · rename_i place
      rw [place.1, place.2, held]
    · rfl
  | some leg =>
    simp only [Option.any_some, afterFirstLap]
    by_cases last : (leg.firstLap && !(setLeg e slot none g).hasFirstLap) = true
    · rw [if_pos last, if_pos last, resumeWaiting, mapLegs_leg, cleared, setLeg_cursor]
      split <;> rfl
    · rw [if_neg last, if_neg last, cleared]

end Sys2Proof.Machine
end

