-- ==== Sys2Proof/Laws/Slots.lean ====
section
/-! SUPPORT. What the slot of one zone can change: that zone, and the count of free values (R149). And what a slot given to
every zone leaves of each. -/

namespace Sys2Proof.Machine

/-- A step of zone z's unit alone. -/
structure ZoneStep (z : ZoneIndex) (g h : Gate) : Prop where
  gate : h = { g with zones := h.zones, freeDraws := h.freeDraws }
  others : ∀ other, other ≠ z → h.zone other = g.zone other

theorem ZoneStep.refl (z : ZoneIndex) (g : Gate) : ZoneStep z g g :=
  ⟨rfl, fun _ _ => rfl⟩

theorem ZoneStep.trans {z : ZoneIndex} {g h k : Gate} (p : ZoneStep z g h) (q : ZoneStep z h k) : ZoneStep z g k :=
  ⟨by rw [q.gate, p.gate], fun other ne => (q.others other ne).trans (p.others other ne)⟩

theorem modZone_step (z : ZoneIndex) (f : Zone → Zone) (g : Gate) : ZoneStep z g (modZone z f g) :=
  ⟨rfl, fun other ne => by rw [modZone_zone, if_neg ne]⟩

theorem sendZone_step (z : ZoneIndex) (cell : List Byte) (g : Gate) : ZoneStep z g (sendZone z cell g) :=
  modZone_step ..

theorem sendNotice_step (z : ZoneIndex) (body : List Byte) (g : Gate) : ZoneStep z g (sendNotice z body g) :=
  modZone_step ..

theorem arbitrate_step (z : ZoneIndex) (g : Gate) : ZoneStep z g (arbitrate z g) := by
  have fresh : ∀ head rest, ZoneStep z g (sendFresh z head rest g) := fun head rest => by
    unfold sendFresh
    split
    · exact (modZone_step ..).trans (sendNotice_step ..)
    · exact (modZone_step ..).trans (sendNotice_step ..)
  have sweep : ∀ head rest, ZoneStep z g (sendSweep z head rest g) := fun head rest =>
    (modZone_step ..).trans (sendNotice_step ..)
  unfold arbitrate
  split
  · exact sweep ..
  · split
    · exact sweep ..
    · exact fresh ..
  · exact fresh ..
  · exact ZoneStep.refl z g

theorem countWindow_step (z : ZoneIndex) (g : Gate) : ZoneStep z g (countWindow z g) := by
  unfold countWindow
  split
  · exact ZoneStep.trans (h := { g with freeDraws := g.freeDraws + 1 }) ⟨rfl, fun _ _ => rfl⟩ (modZone_step ..)
  · exact modZone_step ..

theorem sendIdle_step (z : ZoneIndex) (g : Gate) : ZoneStep z g (sendIdle z g) :=
  (modZone_step ..).trans (sendZone_step ..)

theorem idleOpportunity_step (z : ZoneIndex) (g : Gate) : ZoneStep z g (idleOpportunity z g) := by
  unfold idleOpportunity
  split
  · refine (countWindow_step z g).trans ?_
    unfold creditStep
    dsimp only
    split
    · exact (arbitrate_step ..).trans (modZone_step ..)
    · exact (modZone_step ..).trans (sendIdle_step ..)
  · exact (modZone_step ..).trans (sendZone_step ..)

theorem takeSlot_step (slot : Slot) (z : ZoneIndex) (g : Gate) : ZoneStep z g (takeSlot slot z g) := by
  have pass : ∀ cell h, ZoneStep z h (passCell z cell h) := fun cell h => (modZone_step ..).trans (sendZone_step ..)
  have blank : ∀ h, ZoneStep z h (blankCell z h) := fun h => (modZone_step ..).trans (idleOpportunity_step ..)
  cases slot with
  | idle => exact idleOpportunity_step z g
  | free cell => exact pass cell g
  | content e cell =>
    show ZoneStep z g (contentSlot e cell z g)
    unfold contentSlot
    repeat' split
    all_goals first | exact pass _ _ | exact blank _ | exact (modZone_step ..).trans (blank _)
  | alternate e cell =>
    show ZoneStep z g (alternateSlot e cell z g)
    unfold alternateSlot
    split
    · exact modZone_step ..
    · exact blank g

theorem catchUp_step (z : ZoneIndex) (g : Gate) : ZoneStep z g (catchUp z g) := by
  unfold catchUp
  split
  · exact (modZone_step ..).trans (takeSlot_step ..)
  · exact ZoneStep.refl z g

theorem reachZone_step (slot : Slot) (behind : BitVec 4) (z : ZoneIndex) (g : Gate) :
    ZoneStep z g (reachZone slot behind z g) := by
  unfold reachZone
  split
  · exact (catchUp_step z g).trans (modZone_step ..)
  · exact (catchUp_step z g).trans (takeSlot_step ..)

/-- A slot given to the zones changes zones and the count of free values alone, and no zone that is not driven. -/
theorem giveSlot_frame (slot : Slot) (behind : BitVec 4) (g : Gate) :
    giveSlot slot behind g
        = { g with zones := (giveSlot slot behind g).zones, freeDraws := (giveSlot slot behind g).freeDraws } ∧
      ∀ z, g.driven z = false → (giveSlot slot behind g).zone z = g.zone z := by
  have step : ∀ (zones : List ZoneIndex) (acc : Gate),
      let h := zones.foldl (fun acc z => if acc.driven z then reachZone slot behind z acc else acc) acc
      h = { acc with zones := h.zones, freeDraws := h.freeDraws } ∧
        ∀ z, acc.driven z = false → h.zone z = acc.zone z := by
    intro zones
    induction zones with
    | nil => exact fun acc => ⟨rfl, fun _ _ => rfl⟩
    | cons head rest ih =>
      intro acc
      have one : ∀ next : Gate, (if acc.driven head then reachZone slot behind head acc else acc) = next →
          next = { acc with zones := next.zones, freeDraws := next.freeDraws } ∧
            ∀ z, acc.driven z = false → next.zone z = acc.zone z := by
        intro next same
        split at same
        · rename_i driven
          have reach := reachZone_step slot behind head acc
          rw [same] at reach
          exact ⟨reach.gate, fun z undriven => reach.others z (fun eq => by rw [eq, driven] at undriven; cases undriven)⟩
        · exact ⟨same ▸ rfl, fun z _ => by rw [← same]⟩
      obtain ⟨frame, kept⟩ := one _ rfl
      obtain ⟨framed, keeps⟩ := ih (if acc.driven head then reachZone slot behind head acc else acc)
      refine ⟨?_, fun z undriven => ?_⟩
      · simp only [List.foldl_cons]
        rw [framed, frame]
      · simp only [List.foldl_cons]
        rw [keeps z (by rw [frame]; exact undriven), kept z undriven]
  exact step allZones g

end Sys2Proof.Machine
end

