-- ==== Sys2Proof/Laws/Sparse.lean ====
section
/-! SUPPORT. Sparse tables: what a read gives after a write or an erasure, and that both keep the keys rising; the EEPROM's
bytes: what a read gives after a write, and that every operation keeps the canonical form. -/

namespace Sys2Proof.Machine

namespace Sparse

variable {α : Type}

theorem sorted_nil : Sorted ([] : List (Nat × α)) := List.Pairwise.nil

theorem get_set_same (table : List (Nat × α)) (k : Nat) (v : α) : get (set table k v) k = some v := by
  induction table with
  | nil => simp [set, get]
  | cons entry rest ih =>
    obtain ⟨j, w⟩ := entry
    unfold set
    split
    · simp [get]
    · split
      · simp [get]
      · rename_i hkj
        have : j ≠ k := fun h => hkj h.symm
        simp [get, this, ih]

theorem get_set_other (table : List (Nat × α)) {k i : Nat} (v : α) (h : i ≠ k) :
    get (set table k v) i = get table i := by
  have hk : k ≠ i := fun e => h e.symm
  induction table with
  | nil => simp [set, get, hk]
  | cons entry rest ih =>
    obtain ⟨j, w⟩ := entry
    unfold set
    split
    · simp [get, hk]
    · split
      · rename_i hkj
        subst hkj
        simp [get, hk]
      · simp [get, ih]

theorem get_erase_same (table : List (Nat × α)) (k : Nat) : get (erase table k) k = none := by
  induction table with
  | nil => simp [erase, get]
  | cons entry rest ih =>
    obtain ⟨j, w⟩ := entry
    by_cases hj : j = k
    · simpa [erase, hj] using ih
    · simpa [erase, hj, get] using ih

theorem get_erase_other (table : List (Nat × α)) {k i : Nat} (h : i ≠ k) :
    get (erase table k) i = get table i := by
  induction table with
  | nil => simp [erase, get]
  | cons entry rest ih =>
    obtain ⟨j, w⟩ := entry
    by_cases hj : j = k
    · have hki : k ≠ i := fun e => h e.symm
      simpa [erase, hj, get, hki] using ih
    · by_cases hi : j = i
      · simp [erase, get, hi, h]
      · simpa [erase, hj, get, hi] using ih

theorem mem_set {table : List (Nat × α)} {k : Nat} {v : α} {entry : Nat × α} (h : entry ∈ set table k v) :
    entry = (k, v) ∨ entry ∈ table := by
  induction table with
  | nil => simpa [set] using h
  | cons head rest ih =>
    obtain ⟨j, w⟩ := head
    simp only [set] at h
    by_cases below : k < j
    · rw [if_pos below] at h
      exact List.mem_cons.1 h
    · by_cases here : k = j
      · rw [if_neg below, if_pos here] at h
        exact (List.mem_cons.1 h).imp_right (fun later => List.mem_cons.2 (.inr later))
      · rw [if_neg below, if_neg here] at h
        simp only [List.mem_cons] at h ⊢
        exact h.elim (fun first => .inr (.inl first)) (fun later => (ih later).imp_right .inr)

theorem mem_erase {table : List (Nat × α)} {k : Nat} {entry : Nat × α} :
    entry ∈ erase table k ↔ entry ∈ table ∧ entry.1 ≠ k := by
  simp [erase]

theorem sorted_set {table : List (Nat × α)} (h : Sorted table) (k : Nat) (v : α) : Sorted (set table k v) := by
  induction table with
  | nil => exact List.pairwise_singleton _ _
  | cons head rest ih =>
    obtain ⟨j, w⟩ := head
    obtain ⟨hj, hrest⟩ := List.pairwise_cons.1 (show Sorted ((j, w) :: rest) from h)
    unfold set
    split
    · rename_i hk
      refine List.pairwise_cons.2 ⟨?_, h⟩
      intro a ha
      rcases List.mem_cons.1 ha with rfl | ha
      · exact hk
      · exact hk.trans (hj a ha)
    · split
      · rename_i _ hk
        subst hk
        exact List.pairwise_cons.2 ⟨hj, hrest⟩
      · rename_i hk hne
        refine List.pairwise_cons.2 ⟨?_, ih hrest⟩
        intro a ha
        obtain ⟨entry, he, rfl⟩ := List.mem_map.1 ha
        rcases mem_set he with rfl | he
        · exact Nat.lt_of_le_of_ne (Nat.le_of_not_lt hk) (fun e => hne e.symm)
        · exact hj _ (List.mem_map_of_mem he)

theorem sorted_filter {table : List (Nat × α)} (h : Sorted table) (p : Nat × α → Bool) : Sorted (table.filter p) :=
  List.Pairwise.sublist (List.Sublist.map _ List.filter_sublist) h

theorem sorted_erase {table : List (Nat × α)} (h : Sorted table) (k : Nat) : Sorted (erase table k) :=
  sorted_filter h _

/-- Changing values under their keys keeps the form. -/
theorem sorted_map {table : List (Nat × α)} (h : Sorted table) (f : α → α) :
    Sorted (table.map (fun entry => (entry.1, f entry.2))) := by
  simpa [Sorted, List.map_map, Function.comp_def] using h

theorem mem_of_get {table : List (Nat × α)} {k : Nat} {v : α} (h : get table k = some v) : (k, v) ∈ table := by
  induction table with
  | nil => simp [get] at h
  | cons head rest ih =>
    obtain ⟨j, w⟩ := head
    unfold get at h
    split at h
    · rename_i hj
      cases h
      simp [hj]
    · exact List.mem_cons_of_mem _ (ih h)

theorem get_of_mem {table : List (Nat × α)} (hs : Sorted table) {k : Nat} {v : α} (h : (k, v) ∈ table) :
    get table k = some v := by
  induction table with
  | nil => simp at h
  | cons head rest ih =>
    obtain ⟨j, w⟩ := head
    obtain ⟨hj, hrest⟩ := List.pairwise_cons.1 (show Sorted ((j, w) :: rest) from hs)
    rcases List.mem_cons.1 h with h | h
    · cases h
      simp [get]
    · have : j < k := hj k (List.mem_map_of_mem (f := Prod.fst) h)
      simp [get, Nat.ne_of_lt this, ih hrest h]

end Sparse

namespace Memory

theorem wf_nil : wf [] := ⟨Sparse.sorted_nil, by simp⟩

theorem wf_write {memory : List Host.Cell} (h : wf memory) (address : Nat) (value : Byte) :
    wf (write memory address value) := by
  unfold write
  split
  · exact ⟨Sparse.sorted_erase h.1 _, fun entry he => h.2 entry (Sparse.mem_erase.1 he).1⟩
  · rename_i hv
    refine ⟨Sparse.sorted_set h.1 _ _, fun entry he => ?_⟩
    rcases Sparse.mem_set he with rfl | he
    · exact hv
    · exact h.2 entry he

theorem wf_writeAll {memory : List Host.Cell} (h : wf memory) (address : Nat) (bytes : List Byte) :
    wf (writeAll memory address bytes) := by
  induction bytes generalizing memory address with
  | nil => exact h
  | cons value rest ih => exact ih (wf_write h address value) (address + 1)

theorem read_write_same (memory : List Host.Cell) (address : Nat) (value : Byte) :
    read (write memory address value) address = value := by
  unfold read write
  split
  · rename_i hv
    simp [Sparse.get_erase_same, hv]
  · simp [Sparse.get_set_same]

theorem read_write_other (memory : List Host.Cell) {address other : Nat} (value : Byte) (h : other ≠ address) :
    read (write memory address value) other = read memory other := by
  unfold read write
  split
  · simp [Sparse.get_erase_other _ h]
  · simp [Sparse.get_set_other _ _ h]

theorem read_writeAll_below (memory : List Host.Cell) {address other : Nat} (bytes : List Byte) (h : other < address) :
    read (writeAll memory address bytes) other = read memory other := by
  induction bytes generalizing memory address with
  | nil => rfl
  | cons value rest ih =>
    rw [writeAll, ih _ (by omega), read_write_other _ _ (by omega)]

theorem read_writeAll_above (memory : List Host.Cell) {address other : Nat} (bytes : List Byte)
    (h : address + bytes.length ≤ other) : read (writeAll memory address bytes) other = read memory other := by
  induction bytes generalizing memory address with
  | nil => rfl
  | cons value rest ih =>
    simp only [List.length_cons] at h
    rw [writeAll, ih _ (by omega), read_write_other _ _ (by omega)]

theorem read_writeAll_at (memory : List Host.Cell) (address : Nat) (bytes : List Byte) {i : Nat} (h : i < bytes.length) :
    read (writeAll memory address bytes) (address + i) = bytes[i] := by
  induction bytes generalizing memory address i with
  | nil => simp at h
  | cons value rest ih =>
    cases i with
    | zero =>
      have below := read_writeAll_below (write memory address value) rest (Nat.lt_succ_self address)
      simpa [writeAll] using below.trans (read_write_same memory address value)
    | succ i =>
      have hi : i < rest.length := by simpa using h
      have := ih (write memory address value) (address + 1) hi
      simpa [writeAll, Nat.add_assoc, Nat.add_comm 1 i] using this

end Memory

/-- Memory right after reset has the canonical form. -/
theorem reset_memory_wf : Memory.wf State.reset.gate.loader.eeprom := Memory.wf_nil

end Sys2Proof.Machine
end

