-- ==== Sys2Proof/Laws/Table.lean ====
section
/-! SUPPORT. Whose turn at the table it is (R85), and what a command at the table can do. -/

namespace Sys2Proof.Machine

open Sys2Proof.Safety

/-- The table is granted to the waiting kind that comes first in the rotation after the kind served last. -/
theorem turn_eq_some_iff (g : Gate) (user : TableUser) :
    g.turn = some user ↔ g.waits user = true ∧
      ∀ other, g.waits other = true → turnPlace g.upkeep.lastGrant user ≤ turnPlace g.upkeep.lastGrant other := by
  unfold Gate.turn
  generalize g.upkeep.lastGrant = last
  have users : ∀ p : TableUser → Prop, (∀ u, p u) ↔ p .command ∧ p .sweepWalker ∧ p .maintenanceWalker :=
    fun p => ⟨fun all => ⟨all _, all _, all _⟩, fun three u => by
      cases u
      · exact three.1
      · exact three.2.1
      · exact three.2.2⟩
  rw [users]
  cases last <;> cases user <;> cases c : g.waits .command <;> cases w : g.waits .sweepWalker <;>
    cases m : g.waits .maintenanceWalker <;> simp [nextUser, turnPlace, c, w, m]

/-- The table is granted to nobody exactly where nobody waits. -/
theorem turn_eq_none_iff (g : Gate) : g.turn = none ↔ ∀ user, g.waits user = false := by
  constructor
  · intro none user
    by_contra waits
    revert none
    unfold Gate.turn
    generalize g.upkeep.lastGrant = last
    cases last <;> cases user <;> cases c : g.waits .command <;> cases w : g.waits .sweepWalker <;>
      cases m : g.waits .maintenanceWalker <;> simp_all [nextUser]
  · intro none
    simp [Gate.turn, none]

/-- A command on holder records that may begin, whose body length is no more than 228 and whose turn it is, places its
answer. -/
theorem executeAtTable_runs {code : Byte} {meaning : Request → Gate → Answer} {g : Gate} {cell : List Byte}
    {rest : List (List Byte)} (queue : g.command.queue = cell :: rest) (ready : g.canBegin = true)
    (fits : (requestOf cell).code = code) (length : (requestOf cell).length ≤ 228) (turn : g.turn = some .command) :
    executeAtTable code meaning g
      = placeReply (requestOf cell).tag (requestOf cell).code
          (meaning (requestOf cell) (granted .command (leaveQueue g))).result
          (meaning (requestOf cell) (granted .command (leaveQueue g))).body
          (meaning (requestOf cell) (granted .command (leaveQueue g))).gate := by
  unfold executeAtTable
  exact beginWhere_runs queue ready (by simp [fits, turn]) length

/-- Out of turn, a command on holder records whose body length is no more than 228 changes nothing. -/
theorem executeAtTable_waits {code : Byte} {meaning : Request → Gate → Answer} {g : Gate}
    (length : ∀ cell rest, g.command.queue = cell :: rest → (requestOf cell).length ≤ 228)
    (turn : g.turn ≠ some .command) : executeAtTable code meaning g = g := by
  unfold executeAtTable beginWhere
  cases queue : g.command.queue with
  | nil => rfl
  | cons cell rest => simp [turn, Nat.not_lt.2 (length cell rest queue)]

end Sys2Proof.Machine
end

