-- ==== Sys2Proof/Tests/Slice0.lean ====
section
/-! SUPPORT. The model's own tests: operand checks, one small step per command with the values of the manual's tables,
and, for every statement that has hypotheses, states and operands that meet them. -/

namespace Sys2Proof.Tests

open Sys2Proof Sys2Proof.Machine Sys2Proof.Safety Sys2Proof.Claims

set_option Elab.async false

/-! ## Small states -/

/-- The part after its image load, LOCKED, with nothing loaded and the given strapped zone count less 1. -/
def running (zones : BitVec 2) : State :=
  { pending := []
    gate := { Gate.atPowerOn 7 zones [] 0 with
      loader := { (Gate.atPowerOn 7 zones [] 0).loader with loading := false }
      intake := { Intake.powerOn with sync := .locked, goodRun := 4, nominalTiming := false } } }

/-- The same part with the clock SET at a site time. -/
def atTime (t : Time) (s : State) : State :=
  { s with gate := { s.gate with clock := { s.gate.clock with siteTime := t, isSet := true } } }

/-- With a control cell handed over. -/
def withHandoff (h : Handoff) (s : State) : State :=
  { s with gate := { s.gate with intake := { s.gate.intake with handoff := some h } } }

/-- With command cells in the command queue. -/
def withQueue (cells : List (List Byte)) (s : State) : State :=
  { s with gate := { s.gate with command := { s.gate.command with queue := cells } } }

/-- With event record 0 as given; its lanes are 200 and 210. -/
def withEvent (ev : Event) (s : State) : State :=
  { s with gate := { s.gate.setEvent 0 ev with lanes := [(200, .content 0), (210, .key 0)] } }

/-- With a holder record in the lowest way of its bucket. -/
def withHolder (h : Holder) (s : State) : State :=
  { s with gate := { s.gate with holders := Sparse.set s.gate.holders (slotKey (bucketOf h.decoder) 0) h } }

/-- With a zone changed. -/
def withZone (z : ZoneIndex) (f : Zone → Zone) (s : State) : State :=
  { s with gate := modZone z f s.gate }

/-- With a leg for a sheet of event 0. -/
def withLeg (slot : SheetSlot) (leg : Leg) (s : State) : State :=
  { s with gate := setLeg 0 slot (some leg) s.gate }

/-- With a maintenance list and its cursor. -/
def withTasks (tasks : List Task) (cursor : Fin 8193) (s : State) : State :=
  { s with gate := { s.gate with upkeep := { s.gate.upkeep with tasks := tasks, cursor := cursor } } }

/-- Event 5,120 in a phase, on lanes 200 and 210, epoch 60 s. -/
def event (p : Phase) : Event :=
  { Event.vacant with
    number := 5120
    phase := p
    firstLane := 200
    keyLane := 210
    epoch := 60
    previewLength := 10
    cutoff := 20
    extraLimit := 30
    grace := 15 }

/-- A sheet with a blob of no bytes. -/
def sheet (number : SheetNumber) (effective : Time) (cls : SheetClass) (mark : Bool) : Sheet :=
  { number := number, effective := effective, blob := [], cls := cls, mark := mark }

/-- A LEARNED holder of zone 0, region 12, that has bought event 0. -/
def holder (d : Decoder) : Holder :=
  { decoder := d
    zone := 0
    region := 12
    isStatic := false
    ageMark := true
    barred := false
    exempt := false
    bought := 1
    grants := 0
    denies := 0 }

/-- A command cell addressed to every part, tag 1. -/
def command (code : Byte) (body : List Byte) : List Byte :=
  controlCell 4094 0 ([0xFF, 0, 1, code, BitVec.ofNat 8 body.length] ++ body)

/-- The command as the Command Unit reads it. -/
def request (code : Byte) (body : List Byte) : Request :=
  { tag := 1, code := code, length := body.length, body := body }

/-- With one command at the head of the command queue. -/
def holding (code : Byte) (body : List Byte) (s : State) : State :=
  withQueue [command code body] s

/-- The state after a command, where it answers a next state. -/
def after (c : Instr) (s : State) : State :=
  match exec c s with
  | .next t => t
  | _ => s

/-- The last reply placed: result code and body. -/
def answered (s : State) : Option (Byte × List Byte) :=
  s.gate.command.replies.getLast?.map (fun reply => (reply.result.code, reply.body))

/-- A command at the head of the queue of a part that waits for one begins. -/
theorem begins_holding (code : Byte) (body : List Byte) (s : State) (ready : s.gate.command.work = .ready)
    (room : s.gate.command.replies.length < 16) (reads : requestOf (command code body) = request code body)
    (length : body.length ≤ 228) : Begins (holding code body s).gate (request code body) :=
  ⟨ready, room, ⟨command code body, [], rfl, reads⟩, length⟩

/-! ## Operand checks -/

theorem test_wf_refuses_a_cell_of_239_bytes : (Instr.inputCell (.arrives (List.replicate 239 0) 0)).wf = false := by
  decide +kernel

theorem test_wf_takes_a_cell_of_240_bytes : (Instr.inputCell (.arrives (List.replicate 240 0) 0)).wf = true := by
  decide +kernel

theorem test_wf_refuses_a_fitted_image_of_87_bytes : (Instr.powerOn 0 0 (some (List.replicate 87 0))).wf = false := by
  decide +kernel

theorem test_wf_takes_a_fitted_image_of_88_bytes : (Instr.powerOn 0 0 (some (List.replicate 88 0))).wf = true := by
  decide +kernel

/-! ## Cells and buckets, as the manual writes them out -/

theorem test_idle_cell_header : idleCell.take 5 = [0x5C, 0x0F, 0xFF, 0x00, 0x96] := by decide +kernel

theorem test_cue_cell_header : headerOf 0 4093 7 = [0x5C, 0x0F, 0xFD, 0x07, 0x91] := by decide +kernel

theorem test_control_cell_is_240_bytes_and_its_body_is_good :
    (command 0x14 [0x14, 0x00]).length = 240 ∧ headerGood (command 0x14 [0x14, 0x00]) = true ∧
      bodyGood (command 0x14 [0x14, 0x00]) = true := by decide +kernel

theorem test_buckets_of_table_45 :
    [129, 8320, 16515, 24706, 1048577, 2000000, 16777214].map (fun n => (bucketOf (BitVec.ofNat 24 n)).val)
      = [129, 129, 129, 129, 129, 1140, 6145] := by decide +kernel

/-! ## One step of each command -/

theorem test_power_on_samples_the_straps :
    (after (.powerOn 255 2 none) (running 0)).gate.loader.zoneStraps = 2 ∧
      (after (.powerOn 255 2 none) (running 0)).gate.unitAddress = 0 ∧
      (after (.powerOn 255 2 none) (running 0)).gate.loader.loading = true := by decide +kernel

theorem test_image_load_end_of_a_blank_eeprom_takes_the_defaults :
    (after (.imageLoadEnd 88) State.reset).gate.loader.loading = false ∧
      (after (.imageLoadEnd 88) State.reset).gate.command.status
        = [{ kind := .image, object := 0xFF, detail := [0x02, 0, 0x02, 0, 0, 0] }] := by decide +kernel

theorem test_input_cell_hands_a_cue_cell_over :
    (after (.inputCell (.arrives (controlCell 4093 7 [0x14, 0, 1, 6]) 0)) (running 0)).gate.intake.handoff
      = some (.cue (controlCell 4093 7 [0x14, 0, 1, 6])) := by decide +kernel

theorem test_third_bad_sync_loses_lock :
    let s : State := { running 0 with
      gate := { (running 0).gate with intake := { (running 0).gate.intake with badRun := 2 } } }
    (after (.inputCell (.arrives (0 :: idleCell.tail) 0)) s).gate.intake.sync = .lost ∧
      (after .missingCell s).gate.intake.sync = .lost := by decide +kernel

theorem test_nominal_slot_sends_an_idle_cell_during_the_load :
    ((after .nominalSlot State.reset).gate.zone 0).port = some idleCell := by decide +kernel

theorem test_hold_message_replaces_the_hold_count :
    ((after (.holdMessage 0 (some 400)) (running 0)).gate.zone 0).hold = 400 ∧
      zoneCounter (after (.holdMessage 0 none) (running 0)).gate 0 .holdLineErrors = 1 := by decide +kernel

theorem test_tick_reaches_a_second :
    (after .siteClockTick (atTime 999 (running 0))).gate.clock.siteTime = 1000 ∧
      (after .siteClockTick (atTime 999 (running 0))).gate.clock.closesDue = 1 := by decide +kernel

theorem test_time_cell_steps_forward_by_at_most_ten :
    (after .timeCell (withHandoff (.time (controlCell 4092 0 (field 6 7200043))) (atTime 7200006 (running 0)))).gate.clock.siteTime
      = 7200016 := by decide +kernel

theorem test_window_close_takes_the_idle_rate :
    let s := withZone 0 (fun zone => { zone with windowCount := 1200 })
      { running 0 with gate := { (running 0).gate with clock := { Clock.powerOn with closesDue := 1 } } }
    ((after .windowClose s).gate.zone 0).idleRate = 1200 ∧ ((after .windowClose s).gate.zone 0).windowCount = 0 := by
  decide +kernel

theorem test_cue_cell_takes_the_event_live :
    ((after .cueCell (withHandoff (.cue (controlCell 4093 0 [0x14, 0, 42, 2]))
      (withEvent (event .onSale) (running 0)))).gate.event 0).phase = .live := by decide +kernel

theorem test_deadline_of_a_sale_opens_the_preview :
    let s := atTime 7200000 (withEvent { event .onSale with deadline := some 7200000 } (running 0))
    ((after (.phaseDeadlineExpiry 0) s).gate.event 0).phase = .preview ∧
      ((after (.phaseDeadlineExpiry 0) s).gate.event 0).deadline = some 7800000 := by decide +kernel

theorem test_key_cell_of_a_live_event_is_accepted_with_a_leg :
    let s := withHandoff (.key 0 (controlCell 210 0 (field 2 5120 ++ field 4 100 ++ field 6 8000000)))
      (atTime 7990000 (withEvent (event .live) (running 0)))
    (((after .keyCell s).gate.event 0).pendingSheet.map Sheet.number) = some 100 ∧
      ((after .keyCell s).gate.leg 0 .pending).map Leg.remaining = some 8192 := by decide +kernel

theorem test_promotion_moves_the_sheet :
    (((after (.promotion 0) (atTime 8000000 (withEvent { event .live with
      pendingSheet := some (sheet 100 8000000 .listedClass false) } (running 0)))).gate.event 0).current.map Sheet.number)
      = some 100 := by decide +kernel

theorem test_open_lead_instant_offers_the_pending_sheet :
    ((after (.openLeadInstant 0) (atTime 7998000 (withEvent { event .preview with
      openLead := some 7998000, pendingSheet := some (sheet 9 8000000 .openClass false) } (running 0)))).gate.zone 0).fresh
      = [openEntry 0 9] := by decide +kernel

theorem test_open_repeat_offers_again_and_sets_the_next :
    let s := atTime 8005000 (withEvent { event .preview with
      openRepeat := some 8005000, current := some (sheet 9 8000000 .openClass true) } (running 0))
    ((after (.openRepeat 0) s).gate.zone 0).fresh = [openEntry 0 9] ∧
      ((after (.openRepeat 0) s).gate.event 0).openRepeat = some 8010000 := by decide +kernel

theorem test_third_starvation_instant_stalls :
    let s := atTime 8180000 (withEvent { event .live with starvation := 2, nextStarvation := some 8180000 } (running 0))
    ((after (.starvationInstant 0) s).gate.event 0).phase = .stalled ∧
      ((after (.starvationInstant 0) s).gate.event 0).resumePhase = some .live := by decide +kernel

theorem test_leg_late_on_its_first_lap :
    let s := withLeg .current (Leg.joined (sheet 100 8000000 .listedClass false) 2000)
      (atTime 8000000 (withEvent (event .live) (running 0)))
    ((after (.legLate 0 .current) s).gate.leg 0 .current).map Leg.late = some true := by decide +kernel

theorem test_sweep_visit_places_a_decoder :
    let s := withLeg .current (Leg.joined (sheet 100 8000000 .listedClass false) 129)
      (withHolder (holder 129) (withEvent (event .live) (running 0)))
    let t := after .sweepVisit { s with gate := { s.gate with walker := { s.gate.walker with cursor := 129 } } }
    (t.gate.leg 0 .current).map (fun leg => leg.cells[0]) = some [129] ∧ t.gate.walker.cursor = 130 := by decide +kernel

theorem test_maintenance_visit_ages_a_record_out :
    (after .maintenanceVisit (withTasks [.ageScan] 129
      (withHolder { holder 129 with bought := 0, ageMark := false } (running 0)))).gate.holders = [] := by decide +kernel

theorem test_age_instant_queues_a_scan :
    (after .ageInstant (atTime 3600000 (running 0))).gate.upkeep.tasks = [.ageScan] ∧
      (after .ageInstant (atTime 3600000 (running 0))).gate.upkeep.ageInstant = 7200000 := by decide +kernel

theorem test_management_cell_joins_the_queue :
    (after .managementCell (withHandoff (.management (command 0x14 [0x14, 0])) (running 0))).gate.command.queue
      = [command 0x14 [0x14, 0]] := by decide +kernel

theorem test_return_slot_sends_a_reply :
    let s := after .readEvent (holding 0x14 [0x14, 0] (running 0))
    (after .returnSlot s).gate.output.port
      = some (controlCell 4090 0 [7, 0, 1, 0x14, 0x04, 0, 0]) := by decide +kernel

theorem test_unknown_command :
    answered (after .unknownCommand (holding 0x77 [] (running 0))) = some (0x12, []) := by decide +kernel

/-- The body of a LOAD_EVENT of event 7,001 on lanes 300 and 301, key 310, alternate 320. -/
def loadBody : List Byte :=
  field 2 7001 ++ [2, 0] ++ field 2 300 ++ field 2 301 ++ field 2 310 ++ field 2 320 ++ [0] ++ field 2 120 ++ [10]
    ++ field 6 19800000 ++ [15, 30, 10]

theorem test_load_event_takes_index_0 :
    let s := after .loadEvent (holding 0x10 loadBody (running 0))
    answered s = some (0x00, [0]) ∧ (s.gate.event 0).phase = .onSale ∧ s.gate.laneKind 301 = .content 0 ∧
      s.gate.laneKind 310 = .key 0 ∧ s.gate.laneKind 320 = .alternate 0 := by decide +kernel

theorem test_amend_event_writes_the_cutoff :
    let s := after .amendEvent (holding 0x11 [0x14, 0, 0x08, 240] (withEvent (event .live) (running 0)))
    answered s = some (0x00, []) ∧ (s.gate.event 0).cutoff = 240 := by decide +kernel

theorem test_steer_event_takes_the_event_live :
    answered (after .steerEvent (holding 0x12 [0x14, 0, 2, 0] (withEvent (event .onSale) (running 0))))
      = some (0x00, [3, 0xFF]) := by decide +kernel

theorem test_retire_event_enters_retiring :
    let s := after .retireEvent (holding 0x13 [0x14, 0] (withEvent (event .closed) (running 0)))
    (s.gate.event 0).phase = .retiring ∧ s.gate.upkeep.tasks = [.retire 0 false] := by decide +kernel

theorem test_read_event_gives_134_bytes :
    ((answered (after .readEvent (holding 0x14 [0x14, 0] (withEvent (event .live) (running 0))))).map
      (fun answer => (answer.1, answer.2.length))) = some (0x00, 134) := by decide +kernel

/-- One purchase of event 5,120 by decoder 129 in zone 0, region 12. -/
def purchaseBody : List Byte :=
  field 3 129 ++ field 2 5120 ++ [0] ++ field 2 12

theorem test_purchase_creates_a_record :
    let s := after .purchaseItem (after .purchase (holding 0x20 purchaseBody (withEvent (event .onSale) (running 0))))
    answered s = some (0x00, [0x00]) ∧ s.gate.holders = [(516, holder 129)] ∧ (s.gate.event 0).counts[0] = 1 := by
  decide +kernel

theorem test_cancel_takes_the_event_back :
    let s := after .cancel (holding 0x21 (field 3 129 ++ [1, 0x14, 0])
      (withHolder (holder 129) (withEvent { event .onSale with counts := Vector.replicate 4 1 } (running 0))))
    answered s = some (0x00, []) ∧ (s.gate.event 0).counts[0] = 0 := by decide +kernel

theorem test_put_holder_tells_bucket_and_way :
    answered (after .putHolder (holding 0x22 (field 3 8320 ++ [0, 0, 12, 0, 1, 0x14, 0])
      (withHolder (holder 129) (withEvent (event .onSale) (running 0))))) = some (0x00, [0, 129, 1]) := by decide +kernel

theorem test_drop_holder_frees_the_way :
    (after .dropHolder (holding 0x23 (field 3 129)
      (withHolder { holder 129 with bought := 0 } (running 0)))).gate.holders = [] := by decide +kernel

theorem test_force_denies :
    let s := after .force (holding 0x24 (field 3 129 ++ [2, 1, 0x14, 0])
      (withHolder { holder 129 with bought := 0, grants := 1 } (withEvent (event .closed) (running 0))))
    answered s = some (0x00, []) ∧ s.gate.holders.map (fun entry => (entry.2.grants, entry.2.denies)) = [(0, 1)] := by
  decide +kernel

theorem test_release_keeps_a_grant :
    (after .release (holding 0x25 (field 3 129 ++ [1, 1, 0x14, 0])
      (withHolder { holder 129 with bought := 0, grants := 1 } (withEvent (event .closed) (running 0))))).gate.holders
      = [(516, { holder 129 with bought := 1 })] := by decide +kernel

theorem test_bar_and_unbar :
    answered (after .bar (holding 0x26 (field 3 129) (withHolder { holder 129 with bought := 0 } (running 0))))
        = some (0x00, []) ∧
      answered (after .unbar (holding 0x27 (field 3 129) (withHolder (holder 129) (running 0)))) = some (0x01, []) := by
  decide +kernel

theorem test_read_holder_gives_table_14 :
    answered (after .readHolder (holding 0x28 (field 3 129) (withHolder (holder 129) (running 0))))
      = some (0x00, [0, 0, 129, 0, 0, 12, 2, 0, 0, 1, 0, 0, 0, 0, 0, 0]) := by decide +kernel

theorem test_dump_stops_after_512_buckets :
    answered (after .dump (holding 0x29 [0, 0] (running 0))) = some (0x00, [2, 0, 0]) := by decide +kernel

theorem test_set_zone_clamps_the_share :
    answered (after .setZone (holding 0x30 [0, 2, 0, 1] (running 0))) = some (0x00, [1, 0, 1]) := by decide +kernel

theorem test_set_profile_and_cue_map :
    answered (after .setProfile (holding 0x31 (List.replicate 12 1) (running 0))) = some (0x00, []) ∧
      (after .setCueMap (holding 0x32 [1, 9, 6, 12] (running 0))).gate.settings.cueMap
        = [{ code := 9, task := .extendPreview, minutes := some 12 }] := by decide +kernel

theorem test_set_timing_clamps :
    answered (after .setTiming (holding 0x33 [0, 5, 0, 6, 7, 0, 20, 1, 1] (running 0)))
      = some (0x00, [0, 5, 0, 6, 7, 1, 15, 5, 1]) := by decide +kernel

theorem test_read_counters_of_a_zone :
    ((answered (after .readCounters (holding 0x34 [1, 0, 1] (running 0)))).map
      (fun answer => (answer.1, answer.2.length))) = some (0x00, 79) := by decide +kernel

theorem test_save_image_marks_not_valid_and_then_valid :
    let s := after .saveImage (holding 0x35 [] (running 0))
    Memory.read s.gate.loader.eeprom 0 = 0x00 ∧ Memory.read (after (.saveImageEnd 89) s).gate.loader.eeprom 0 = 0xA5 ∧
      answered (after (.saveImageEnd 89) s) = some (0x00, []) := by decide +kernel

theorem test_restart_waits_for_its_reply_to_leave :
    let s := after .restart (holding 0x36 [] (running 0))
    s.gate.command.work = .restarting ∧ after .restartStep s = s ∧
      (after .restartStep (after .returnSlot s)).gate.intake.sync = .searching := by decide +kernel

theorem test_restart_line_forgets_the_hold_count :
    ((after .restartLine (withZone 0 (fun zone => { zone with hold := 9 }) (running 0))).gate.zone 0).hold = 0 := by
  decide +kernel

/-- Two zones and a cell of the LIVE event: zone 0 has taken it, zone 1 is behind. -/
def divided : State :=
  after (.inputCell (.arrives (headerOf 0x80 200 0 ++ List.replicate 235 0) 2)) (withEvent (event .live) (running 1))

theorem test_zones_judge_a_cell_on_either_side_of_a_change :
    let closed := after .steerEvent (holding 0x12 [0x14, 0, 5, 0] divided)
    let t := after (.inputCell (.taken 1)) closed
    (divided.gate.zone 0).slot = none ∧ (divided.gate.zone 1).port = none ∧ (closed.gate.event 0).phase = .closed ∧
      zoneCounter t.gate 0 .cellsPassed = 1 ∧ zoneCounter t.gate 1 .cellsBlanked = 1 ∧
      zoneCounter (after (.inputCell (.taken 1)) divided).gate 1 .cellsPassed = 1 := by decide +kernel

theorem test_no_input_cell_leaves_after_a_restart :
    let s := after .restartLine divided
    let t := after (.inputCell (.taken 1)) s
    (s.gate.zone 1).slot = some .idle ∧ (t.gate.zone 1).slot = none ∧ zoneCounter t.gate 1 .cellsPassed = 0 ∧
      zoneCounter t.gate 1 .idleCellsSent = 1 ∧ (t.gate.zone 1).port = some idleCell := by decide +kernel

theorem test_next_slot_takes_the_slot_held :
    let t := after .missingCell divided
    (t.gate.zone 1).slot = none ∧ zoneCounter t.gate 1 .cellsPassed = 1 ∧ zoneCounter t.gate 1 .idleCellsSent = 1 := by
  decide +kernel

/-- The LIVE event with a leg, and a scan under way: both walkers wait for the table. -/
def bothWalk : State :=
  withTasks [.ageScan] 0 (withLeg .current (Leg.joined (sheet 100 8000000 .listedClass false) 129)
    (withEvent (event .live) (running 0)))

theorem test_walkers_take_turns_at_the_table :
    let s := after .sweepVisit bothWalk
    s.gate.upkeep.lastGrant = .sweepWalker ∧ after .sweepVisit s = s ∧
      (after .maintenanceVisit s).gate.upkeep.cursor = 1 ∧
      (after .sweepVisit (after .maintenanceVisit s)).gate.walker.cursor = 2 := by decide +kernel

theorem test_restart_does_not_make_a_pending_sheets_leg_late :
    let s := atTime 8060000 (withEvent { event .live with
      current := some (sheet 100 8000000 .listedClass false)
      pendingSheet := some (sheet 101 8060000 .listedClass false) } (running 0))
    let t := after .restartLine s
    (t.gate.leg 0 .current).map (fun leg => (leg.late, leg.deadline)) = some (true, none) ∧
      (t.gate.leg 0 .pending).map (fun leg => (leg.late, leg.deadline)) = some (false, some 8060000) := by
  decide +kernel

/-! ## Witnesses: the machine and its invariants -/

theorem witness_StepRunsTheFrontCommand :
    ({ running 0 with pending := [.missingCell, .nominalSlot] } : State).pending = .missingCell :: [.nominalSlot] ∧
      (running 0).pending = [] := ⟨rfl, rfl⟩

/-- A part on which a tick waits, with a holder record, a status item, a sweep-queue cell and a written EEPROM byte. -/
def invariantState : State :=
  let s := withZone 0 (fun zone => { zone with
    fresh := [openEntry 0 9]
    sweep := [{ event := 0, eventNumber := 5120, sheet := 9, effective := 0, blob := [], entries := [129] }] })
    (withHolder (holder 129) (running 0))
  { pending := [.siteClockTick]
    gate := { s.gate with
      loader := { s.gate.loader with eeprom := [(0, 0xA5)] }
      command := { s.gate.command with status := [{ kind := .time, object := 0xFF, detail := [1] }] } } }

theorem witness_step_answers : ∃ t, step invariantState = .next t := ⟨_, rfl⟩

theorem witness_EveryStepKeepsTheEepromAndTheSettings :
    Memory.wf invariantState.gate.loader.eeprom ∧ SettingsOk invariantState.gate := by
  refine ⟨by decide +kernel, ?_⟩
  exact
    { share := by decide +kernel
      cues := by decide +kernel
      codes := by decide +kernel
      entries := by
        intro entry mem
        have all : entry ∈ builtInCueMap := mem
        simp only [builtInCueMap, List.mem_cons, List.not_mem_nil, or_false] at all
        rcases all with h | h | h | h | h | h | h <;> subst h <;> simp [cueEntryOk]
      openLead := by decide +kernel
      guard := by decide +kernel
      again := by decide +kernel
      warn := by decide +kernel
      stall := by decide +kernel
      aging := by decide +kernel
      nominal := by decide +kernel
      returns := by decide +kernel }

theorem witness_EveryStepKeepsTheHolderTable : HoldersOk invariantState.gate.holders :=
  { sorted := by decide +kernel
    key := by decide +kernel
    bucket := by decide +kernel
    number := by decide +kernel
    overrides := by decide +kernel
    one := by decide +kernel }

theorem witness_EveryStepKeepsTheQueuesInBounds : QueuesOk invariantState.gate :=
  { commands := by decide +kernel
    busy := by decide +kernel
    clear := by decide +kernel
    replies := by decide +kernel
    owed := by decide +kernel
    fresh := fun z => ⟨by revert z; decide +kernel, by revert z; decide +kernel⟩
    sweep := by decide +kernel
    pool := by decide +kernel }

theorem witness_EveryStepKeepsTheStatusKeysApart : StatusOk invariantState.gate := by
  unfold StatusOk
  decide +kernel

/-- The same part with event 5,120 loaded, LIVE, its current sheet and a leg for it, and a RECOUNT under way. -/
def loadedState : State :=
  withTasks [.recount 0] 8191
    (withLeg .current (Leg.joined (sheet 100 8000000 .listedClass false) 2000)
      (withEvent { event .live with current := some (sheet 100 8000000 .listedClass false) } invariantState))

theorem loadedState_event (e : EventIndex) :
    loadedState.gate.event e
      = if e = 0 then { event .live with current := some (sheet 100 8000000 .listedClass false) } else Event.vacant := by
  revert e
  decide +kernel

theorem loadedState_laneKind (lane : Lane) :
    loadedState.gate.laneKind lane
      = if 4080 ≤ lane.toNat then .reserved
        else if lane.toNat = 200 then .content 0
        else if lane.toNat = 210 then .key 0
        else .free := by
  have lanes : loadedState.gate.lanes = [(200, .content 0), (210, .key 0)] := rfl
  unfold Gate.laneKind
  rw [lanes]
  by_cases r : 4080 ≤ lane.toNat
  · simp only [r, if_true]
  · by_cases x : lane.toNat = 200
    · simp only [x, Sparse.get, if_true]
    · by_cases y : lane.toNat = 210
      · simp only [y, Sparse.get, if_true]
        rfl
      · simp only [r, x, y, Ne.symm x, Ne.symm y, Sparse.get, if_false]

theorem lane_is (lane : Lane) (n : Nat) (h : n < 4096) : lane = BitVec.ofNat 12 n ↔ lane.toNat = n := by
  constructor
  · intro e; rw [e, BitVec.toNat_ofNat]; exact Nat.mod_eq_of_lt h
  · intro e; exact BitVec.eq_of_toNat_eq (by rw [e, BitVec.toNat_ofNat]; exact (Nat.mod_eq_of_lt h).symm)

theorem loadedState_occupied (e : EventIndex) : occupied loadedState.gate e ↔ e = 0 := by
  rw [occupied, loadedState_event]
  by_cases h : e = 0 <;> simp [h, event, Event.vacant]

theorem witness_EveryStepKeepsTheEventTable : EventsOk loadedState.gate :=
  { numbers := fun e f he hf _ => ((loadedState_occupied e).1 he).trans ((loadedState_occupied f).1 hf).symm
    sorted := by decide +kernel
    unreserved := by decide +kernel
    content := by
      intro lane e
      rw [loadedState_laneKind, loadedState_occupied]
      have lanes : e = 0 → ((loadedState.gate.event e).firstLane :: (loadedState.gate.event e).moreLanes) = [200] := by
        intro h; subst h; rfl
      constructor
      · intro h
        split at h
        · cases h
        · split at h
          · rename_i x
            have zero : e = 0 := by injection h with h; exact h.symm
            refine ⟨zero, ?_⟩
            rw [lanes zero]
            exact List.mem_singleton.2 ((lane_is lane 200 (by decide)).2 x)
          · split at h <;> cases h
      · intro ⟨zero, mem⟩
        rw [lanes zero] at mem
        have x := (lane_is lane 200 (by decide)).1 (List.mem_singleton.1 mem)
        rw [if_neg (by omega), if_pos x, zero]
    key := by
      intro lane e
      rw [loadedState_laneKind, loadedState_occupied]
      have key : e = 0 → (loadedState.gate.event e).keyLane = 210 := by
        intro h; subst h; rfl
      constructor
      · intro h
        split at h
        · cases h
        · split at h
          · cases h
          · split at h
            · rename_i y
              have zero : e = 0 := by injection h with h; exact h.symm
              exact ⟨zero, by rw [key zero]; exact ((lane_is lane 210 (by decide)).2 y).symm⟩
            · cases h
      · intro ⟨zero, is⟩
        rw [key zero] at is
        have y := (lane_is lane 210 (by decide)).1 is.symm
        rw [if_neg (by omega), if_neg (by omega), if_pos y, zero]
    alternate := by
      intro lane e
      rw [loadedState_laneKind, loadedState_occupied, loadedState_event]
      have none : (if e = 0 then { event .live with current := some (sheet 100 8000000 .listedClass false) }
          else Event.vacant).alternateLane = none := by
        split <;> rfl
      rw [none]
      constructor
      · intro h
        split at h
        · cases h
        · split at h
          · cases h
          · split at h <;> cases h
      · intro h
        exact absurd h.2 (by simp)
    resume := by
      intro e
      rw [loadedState_event]
      by_cases h : e = 0 <;> simp [h, resumeFits, event, Event.vacant] }

theorem witness_EveryStepKeepsTheMaintenanceList : TasksOk loadedState.gate :=
  { once := by decide +kernel
    retire := by
      intro e
      rw [loadedState_event]
      have tasks : loadedState.gate.upkeep.tasks = [.recount 0] := rfl
      rw [tasks]
      by_cases h : e = 0 <;> simp [h, retires, event, Event.vacant]
    recount := by
      intro e mem
      have tasks : loadedState.gate.upkeep.tasks = [.recount 0] := rfl
      rw [tasks] at mem
      rw [loadedState_occupied]
      simpa using mem
    cursor := by decide +kernel }

theorem loadedState_leg (e : EventIndex) (slot : SheetSlot) (leg : Leg) (h : loadedState.gate.leg e slot = some leg) :
    e = 0 ∧ slot = .current ∧ leg = Leg.joined (sheet 100 8000000 .listedClass false) 2000 := by
  have all : ∀ e : EventIndex, loadedState.gate.leg e .pending = none ∧
      loadedState.gate.leg e .current
        = if e = 0 then some (Leg.joined (sheet 100 8000000 .listedClass false) 2000) else none := by
    decide +kernel
  cases slot with
  | pending => rw [(all e).1] at h; cases h
  | current =>
    rw [(all e).2] at h
    by_cases zero : e = 0
    · rw [if_pos zero] at h
      exact ⟨zero, rfl, (Option.some.inj h).symm⟩
    · rw [if_neg zero] at h; cases h

theorem witness_EveryStepKeepsTheLegs : LegsOk loadedState.gate :=
  { sheet := by
      intro e slot leg h
      obtain ⟨he, hs, hl⟩ := loadedState_leg e slot leg h
      subst he; subst hs; subst hl
      exact ⟨rfl, sheet 100 8000000 .listedClass false, rfl, rfl⟩
    lap := by
      intro e slot leg h
      rw [(loadedState_leg e slot leg h).2.2]
      decide
    first := by
      intro e slot leg f other walking _ h _ _
      rw [(loadedState_leg f other walking h).2.2]
      rfl }

/-! ## Witnesses: counters, status items, clock and windows -/

theorem witness_CountersHoldAndItemsReplace :
    let held : Item := { kind := .time, object := 0xFF, detail := [1] }
    let older : Item := { kind := .input, object := 0xFF, detail := [2] }
    let item : Item := { kind := .time, object := 0xFF, detail := [3] }
    (PartCounter.syncErrors ≠ .missingCells ∧ ZoneCounter.cellsPassed ≠ .riskSets ∧
      EventCounter.strayKeys ≠ .staleSheets) ∧
    (∀ x ∈ [older], item.sameKey x = false) ∧ item.sameKey held = true := by decide +kernel

theorem witness_SiteTimeNeverFalls :
    (∀ unit zones fitted, Instr.siteClockTick ≠ .powerOn unit zones fitted) ∧
      ∃ t, exec .siteClockTick (running 0) = .next t := ⟨by intros; simp, _, rfl⟩

theorem witness_TickAdvancesOrIsAbsorbed :
    let absorbing : State := { running 0 with
      gate := { (running 0).gate with clock := { Clock.powerOn with withhold := 10 } } }
    absorbing.gate.clock.withhold.val ≠ 0 ∧ (running 0).gate.clock.withhold.val = 0 ∧
      (atTime 281474976710655 (running 0)).gate.clock.withhold.val = 0 := by decide +kernel

/-- A time cell with a programme time. -/
def timeCellAt (t : Nat) : List Byte :=
  controlCell 4092 0 (field 6 t)

theorem witness_FirstTimeCellSetsTheClock :
    let late : State := { running 0 with
      gate := { (running 0).gate with clock := { Clock.powerOn with siteTime := 500 } } }
    handed (withHandoff (.time (timeCellAt 7200000)) (running 0)) (.time (timeCellAt 7200000)) ∧
      (withHandoff (.time (timeCellAt 7200000)) (running 0)).gate.clock.isSet = false ∧
      handed (withHandoff (.time (timeCellAt 499)) late) (.time (timeCellAt 499)) ∧
      (withHandoff (.time (timeCellAt 499)) late).gate.clock.isSet = false ∧ late.gate.clock.siteTime > timeAt (timeCellAt 499) 5 := by
  decide +kernel

theorem witness_LaterTimeCellCorrectsTheClock :
    ∀ t ∈ [989, 990, 1000, 1010, 1011],
      handed (withHandoff (.time (timeCellAt t)) (atTime 1000 (running 0))) (.time (timeCellAt t)) ∧
        (withHandoff (.time (timeCellAt t)) (atTime 1000 (running 0))).gate.clock.isSet = true := by decide +kernel

/-- With a window close marked. -/
def closing (s : State) : State :=
  { s with gate := { s.gate with clock := { s.gate.clock with closesDue := 1 } } }

theorem witness_WindowCloseTakesTheIdleRate :
    (closing (running 0)).gate.clock.closesDue ≠ 0 ∧ (closing (running 0)).gate.driven 0 = true ∧
      (closing (running 0)).gate.driven 1 = false ∧ (closing (running 0)).gate.clock.isSet = false := by decide +kernel

theorem witness_LateRiskFollowsTheProjection :
    (closing (atTime 1000 (running 3))).gate.clock.closesDue ≠ 0 ∧
      (closing (atTime 1000 (running 3))).gate.clock.isSet = true ∧
      (closing (atTime 1000 (running 3))).gate.driven 3 = true ∧
      ((after .windowClose (closing (atTime 1000 (running 3)))).gate.zone 3).lateRisk = false := by decide +kernel

theorem witness_LateRiskFollowsTheProjection_changes :
    let leg := Leg.joined (sheet 100 9000 .listedClass false) 2000
    let live := { event .live with current := some (sheet 100 9000 .listedClass false), counts := Vector.replicate 4 1 }
    let s := closing (withLeg .current leg (atTime 1000 (withEvent live (running 0))))
    let set := withZone 0 (fun zone => { zone with lateRisk := true }) (closing (atTime 1000 (running 0)))
    let about := fun (t : State) => t.gate.command.status.map Item.detail
    ((after .windowClose s).gate.zone 0).lateRisk = true ∧ zoneCounter (after .windowClose s).gate 0 .riskSets = 1 ∧
      about (after .windowClose s) = [[1, 0, 0, 1, 0, 0]] ∧
      ((after .windowClose set).gate.zone 0).lateRisk = false ∧
      zoneCounter (after .windowClose set).gate 0 .riskSets = 0 ∧
      about (after .windowClose set) = [[2, 255, 0, 0, 0, 0]] := by decide +kernel

/-! ## Witnesses: cues, phases, deadlines -/

/-- A cue cell of event 5,120. -/
def cueCellOf (sequence code : Byte) : List Byte :=
  controlCell 4093 0 [0x14, 0, sequence, code]

/-- A part with event 5,120 and a cue cell handed over. -/
def cued (ev : Event) (sequence code : Byte) : State :=
  withHandoff (.cue (cueCellOf sequence code)) (withEvent ev (running 0))

theorem witness_CueCellOutcomes :
    let stray : State := withHandoff (.cue (cueCellOf 42 2)) (running 0)
    (handed stray (.cue (cueCellOf 42 2)) ∧ stray.gate.findEvent (halfAt (cueCellOf 42 2) 5) = none) ∧
    (let s := cued (event .onSale) 42 9;
      handed s (.cue (cueCellOf 42 9)) ∧ s.gate.findEvent (halfAt (cueCellOf 42 9) 5) = some 0 ∧
      s.gate.cueEntry (byteAt (cueCellOf 42 9) 8) = none) ∧
    (let s := cued { event .onSale with lastCue := some 42 } 42 2;
      s.gate.cueEntry (byteAt (cueCellOf 42 2) 8) = some { code := 2, task := .goLive, minutes := none } ∧
      (s.gate.event 0).lastCue = some (byteAt (cueCellOf 42 2) 7)) ∧
    (let s := cued (event .onSale) 42 2;
      let marked := modEvent 0 (fun ev => { ev with lastCue := some (byteAt (cueCellOf 42 2) 7) })
        { s.gate with intake := { s.gate.intake with handoff := none } };
      (s.gate.event 0).lastCue ≠ some (byteAt (cueCellOf 42 2) 7) ∧ (applyTask 0 .goLive 0 marked).isSome = true ∧
      applyTask 0 .goExtra 0 marked = none) := by decide +kernel

theorem witness_TasksAreAllowedAsTheTableSays :
    PhaseTask.goLive ≠ .extendPreview ∧ ((withEvent (event .live) (running 0)).gate.event 0).phase ≠ .stalled ∧
      ((withEvent { event .stalled with resumePhase := some .live } (running 0)).gate.event 0).phase = .stalled ∧
      ((withEvent { event .stalled with resumePhase := some .live } (running 0)).gate.event 0).resumePhase
        = some .live := by decide +kernel

/-- A STALLED event whose resume phase is PREVIEW, under BACK_TO_SALE, GO_LIVE, EXTEND_PREVIEW and GO_CLOSED. -/
theorem witness_TasksAreAllowedAsTheTableSays_applied :
    let g := (atTime 9000000 (withEvent { event .stalled with
      resumePhase := some .preview, scheduledStart := some 7, deadline := some 9100000, currentEntry := 8000000 }
      (running 0))).gate
    let done := fun (task : PhaseTask) => ((applyTask 0 task 5 g).getD g).event 0
    ((g.event 0).phase = .stalled ∧ (g.event 0).resumePhase = some .preview ∧ (applyTask 0 .goLive 0 g).isSome = true ∧
      PhaseTask.goLive.leadsTo ≠ .closed ∧ PhaseTask.goClosed.leadsTo = .closed) ∧
    ((done .backToSale).phase = .stalled ∧ (done .backToSale).resumePhase = some .onSale ∧
      (done .backToSale).deadline = none ∧ (done .backToSale).scheduledStart = none) ∧
    ((done .goLive).resumePhase = some .live ∧ (done .goLive).liveStamp = some 9000000 ∧
      (done .goLive).previousEntry = some 9000000 ∧ (done .goLive).previousPhase = some .live ∧
      (done .goLive).currentEntry = 8000000) ∧
    (done .extendPreview).deadline = some 9400000 ∧ (done .goClosed).phase = .closed := by decide +kernel

theorem witness_PhaseChangeStampsDatesAndDelivers :
    let s := withEvent { event .onSale with current := some (sheet 100 5 .noClass false) } (running 0)
    (Phase.mode .live = Phase.mode .extra ∧ Phase.mode .onSale = Phase.mode .retiring) ∧
    (Phase.mode .preview ≠ .noGrant ∧ Phase.mode .closed = .noGrant) ∧
    (Phase.mode .onSale ≠ .listedGrant ∧ Phase.mode .live = .listedGrant ∧
      s.gate.sheet 0 .current = some (sheet 100 5 .noClass false) ∧ s.gate.leg 0 .current = none) := by decide +kernel

theorem witness_PhaseChangeStampsDatesAndDelivers_preview :
    let enters := fun (next : Sheet) => atTime 20000 (withEvent { event .onSale with
      current := some (sheet 8 5 .noClass false), pendingSheet := some next, mask := 2 } (running 1))
    let changed := fun (next : Sheet) => changePhase 0 .preview (enters next).gate
    let later := sheet 9 30000 .noClass false
    let near := sheet 9 21000 .noClass false
    (unblacked (enters later).gate 0 0 ∧ ¬ unblacked (enters later).gate 0 1 ∧
      ¬ Reached (enters later).gate 28000 ∧ Reached (enters near).gate 19000) ∧
    (((changed later).event 0).openRepeat = some 25000 ∧ ((changed later).event 0).openLead = some 28000 ∧
      ((changed later).event 0).pendingSheet = some { later with cls := .openClass } ∧
      ((changed later).zone 0).fresh = [openEntry 0 8] ∧ ((changed later).zone 1).fresh = [] ∧
      ((changed later).event 0).base = some 20000) ∧
    (((changed near).event 0).openLead = none ∧ ((changed near).zone 0).fresh = [openEntry 0 8, openEntry 0 9] ∧
      ((changed near).event 0).pendingSheet = some { near with cls := .openClass, mark := true }) := by decide +kernel

theorem witness_PhaseChangeStampsDatesAndDelivers_tail :
    let leaves := fun (cls : SheetClass) (mark : Bool) => changePhase 0 .live (withEvent { event .preview with
      base := some 7, openLead := some 9, openRepeat := some 9, pendingSheet := some (sheet 9 30000 cls mark) }
      (running 0)).gate
    (OpenlyOffered (sheet 9 30000 .openClass true) ∧ ¬ OpenlyOffered (sheet 9 30000 .openClass false)) ∧
    (((leaves .openClass true).event 0).pendingSheet = some (sheet 9 30000 .openClass true) ∧
      eventCount (leaves .openClass true) 0 .previewTails = 1 ∧
      ((leaves .openClass true).event 0).openRepeat = none ∧ ((leaves .openClass true).event 0).base = some 7) ∧
    (((leaves .openClass false).event 0).pendingSheet = some (sheet 9 30000 .listedClass false) ∧
      eventCount (leaves .openClass false) 0 .previewTails = 0 ∧ ((leaves .openClass false).event 0).openLead = none ∧
      ((leaves .listedClass true).event 0).pendingSheet = some (sheet 9 30000 .listedClass true)) := by
  decide +kernel

theorem witness_PhaseDeadlineExpiryAppliesItsTask :
    (∀ p ∈ [Phase.onSale, .preview, .extra, .windDown],
      let s := atTime 7200000 (withEvent { event p with deadline := some 7200000 } (running 0))
      (s.gate.event 0).deadline = some 7200000 ∧ s.gate.clock.isSet = true ∧
        (7200000 : Time) ≤ s.gate.clock.siteTime ∧ (s.gate.event 0).phase = p) ∧
    (∀ p ∈ [Phase.onSale, .preview, .extra, .windDown],
      let s := atTime 7200000
        (withEvent { event .stalled with resumePhase := some p, deadline := some 7200000 } (running 0))
      (s.gate.event 0).phase = .stalled ∧ (s.gate.event 0).resumePhase = some p) := by decide +kernel

theorem witness_StepsNotDueChangeNothing :
    (∀ h : Handoff, (running 0).gate.intake.handoff ≠ some h) ∧
      (running 0).gate.clock.closesDue = 0 ∧ (running 0).gate.upkeep.tasks = [] ∧
      (∀ e slot, (running 0).gate.leg e slot = none) ∧ (running 0).gate.loader.loading = false ∧
      (running 0).gate.command.work = .ready ∧ State.reset.gate.loader.loading = true ∧
      (running 0).gate.clock.isSet = false ∧ (running 0).gate.command.queue = [] := by
  refine ⟨fun h => by simp [running, Intake.powerOn], by decide +kernel, by decide +kernel, ?_, by decide +kernel⟩
  intro e slot
  cases slot <;> revert e <;> decide +kernel

theorem witness_StepsNotDueChangeNothing_instants :
    let ahead := atTime 999 (withEvent { event .preview with
      deadline := some 1000, openLead := some 1000, openRepeat := some 1000, nextStarvation := some 1000,
      pendingSheet := some (sheet 9 1000 .openClass false) } (running 0))
    let behind := atTime 1000 (withEvent { event .preview with
      openLead := some 1000, openRepeat := some 1000, nextStarvation := some 1000,
      pendingSheet := some (sheet 9 1000 .openClass false) } (running 0))
    let legs := withLeg .pending (Leg.joined (sheet 101 900 .listedClass false) 0)
      (withLeg .current (Leg.joined (sheet 100 800 .listedClass false) 0) (atTime 1000 (withEvent (event .live) (running 0))))
    (¬ Reached ahead.gate 1000 ∧ ¬ Reached ahead.gate ahead.gate.upkeep.ageInstant ∧
      ∀ place, instantAt (ahead.gate.event 0) place = some 1000) ∧
    (Reached behind.gate 1000 ∧ instantAt (behind.gate.event 0) 0 = some 1000 ∧
      instantAt (behind.gate.event 0) 1 = some 1000 ∧ (0 : Fin 4) < 1 ∧
      after (.promotion 0) behind = behind ∧ after (.starvationInstant 0) behind = behind ∧
      after (.openRepeat 0) behind = behind ∧ after (.openLeadInstant 0) behind ≠ behind) ∧
    (((legs.gate.leg 0 .current).bind Leg.deadline) = some 800 ∧
      ((legs.gate.leg 0 .pending).bind Leg.deadline) = some 900 ∧
      after (.legLate 0 .pending) legs = legs ∧ after (.legLate 0 .current) legs ≠ legs) := by decide +kernel

theorem witness_StepsNotDueChangeNothing_restart_and_slots :
    (let s := after .restart (holding 0x36 [] (running 0));
      s.gate.command.work = .restarting ∧ s.gate.command.replies ≠ [] ∧ after .restartStep s = s) ∧
    ((running 0).gate.driven 1 = false ∧ ((running 0).gate.zone 0).slot = none) := by decide +kernel

theorem witness_StepsNotDueChangeNothing_table :
    let s := holding 0x28 (field 3 129) bothWalk
    let last := fun user : TableUser => ({ s.gate with upkeep := { s.gate.upkeep with lastGrant := user } } : Gate)
    (s.gate.waits .command = true ∧ s.gate.waits .sweepWalker = true ∧ s.gate.waits .maintenanceWalker = true) ∧
    (Turn (last .command) .sweepWalker ∧ Turn (last .sweepWalker) .maintenanceWalker ∧
      Turn (last .maintenanceWalker) .command) ∧
    (requestOf (command 0x28 (field 3 129))).length ≤ 228 ∧
    (bothWalk.gate.leg 0 .current).map Leg.walking = some true ∧ (visitBucket bothWalk.gate).fits = true ∧
    (running 0).gate.turn = none := by decide +kernel

/-! ## Witnesses: key sheets -/

/-- A key cell of event 5,120. -/
def keyCellOf (number effective : Nat) : List Byte :=
  controlCell 210 0 (field 2 5120 ++ field 4 number ++ field 6 effective)

/-- A part at site time 8,030,000 with event 5,120 and a key cell handed over. -/
def keyed (ev : Event) (number effective : Nat) : State :=
  withHandoff (.key 0 (keyCellOf number effective)) (atTime 8030000 (withEvent ev (running 0)))

/-- The event in LIVE with sheet 101 pending behind sheet 100. -/
def liveEvent : Event :=
  { event .live with
    current := some (sheet 100 8000000 .listedClass false)
    pendingSheet := some (sheet 101 8060000 .listedClass false) }

theorem witness_KeyCellTurnedAway :
    (let s := keyed Event.vacant 1 1;
      handed s (.key 0 (keyCellOf 1 1)) ∧ (s.gate.event 0).phase = .vacant) ∧
    (let s := keyed { event .live with number := 1 } 1 1;
      (s.gate.event 0).phase ≠ .vacant ∧ halfAt (keyCellOf 1 1) 5 ≠ (s.gate.event 0).number) ∧
    (let s := keyed (event .retiring) 1 1;
      (s.gate.event 0).phase ≠ .vacant ∧ (s.gate.event 0).phase = .retiring) ∧
    (let s := keyed { event .live with number := 1 } 0 1;
      (s.gate.event 0).phase ≠ .vacant ∧ halfAt (keyCellOf 0 1) 5 ≠ (s.gate.event 0).number ∧
      BitVec.ofNat 32 (natAt (keyCellOf 1 1) 7 4) ≠ 0) ∧
    (let s := keyed (event .live) 0 1;
      (s.gate.event 0).phase ≠ .retiring ∧ halfAt (keyCellOf 0 1) 5 = (s.gate.event 0).number ∧
      newestSheet (s.gate.event 0) = none ∧ BitVec.ofNat 32 (natAt (keyCellOf 0 1) 7 4) = 0) ∧
    (let newest := sheet 101 8060000 .listedClass false;
      let number := fun n => BitVec.ofNat 32 (natAt (keyCellOf n 8060000) 7 4);
      newestSheet ((keyed liveEvent 101 8060000).gate.event 0) = some newest ∧ number 101 = newest.number ∧
      number 100 < newest.number ∧ newest.number < number 102 ∧
      timeAt (keyCellOf 102 8060000) 11 ≤ newest.effective) := by decide +kernel

theorem witness_KeyCellAcceptedTakesItsSlot :
    (let s := keyed liveEvent 102 8060001;
      handed s (.key 0 (keyCellOf 102 8060001)) ∧ (s.gate.event 0).phase ≠ .vacant ∧
      (s.gate.event 0).phase ≠ .retiring ∧ (s.gate.event 0).phase ≠ .stalled ∧
      (s.gate.event 0).phase.mode = .listedGrant ∧
      halfAt (keyCellOf 102 8060001) 5 = (s.gate.event 0).number ∧
      BitVec.ofNat 32 (natAt (keyCellOf 102 8060001) 7 4) ≠ 0 ∧
      newestSheet (s.gate.event 0) = some (sheet 101 8060000 .listedClass false) ∧
      (101 : SheetNumber) < BitVec.ofNat 32 (natAt (keyCellOf 102 8060001) 7 4) ∧
      (8060000 : Time) < timeAt (keyCellOf 102 8060001) 11) ∧
    (let s := keyed { event .stalled with resumePhase := some .live } 1 8030000;
      handed s (.key 0 (keyCellOf 1 8030000)) ∧ (s.gate.event 0).phase = .stalled ∧
      (s.gate.event 0).resumePhase = some .live ∧ newestSheet (s.gate.event 0) = none) := by decide +kernel

/-- The event in PREVIEW with sheet 8 in force and sheet 9 pending behind it, zone 1 blacked out. -/
def previewEvent : Event :=
  { event .preview with
    current := some (sheet 8 8000000 .noClass true)
    pendingSheet := some (sheet 9 8060000 .openClass true)
    mask := 2 }

/-- A part of two zones with a key cell handed over, and sheet 9 queued on both. -/
def previewed (ev : Event) (number effective : Nat) : State :=
  let queued : ZoneIndex → State → State := fun z => withZone z (fun zone => { zone with fresh := [openEntry 0 8, openEntry 0 9] })
  queued 1 (queued 0 (withHandoff (.key 0 (keyCellOf number effective)) (atTime 8059000 (withEvent ev (running 1)))))

/-- A sheet accepted in PREVIEW supersedes sheet 9 and all its entries; it is offered at once where its open lead is reached,
and else waits for it. -/
theorem witness_KeyCellAcceptedTakesItsSlot_preview :
    (let s := previewed previewEvent 10 8060500;
      let t := after .keyCell s;
      handed s (.key 0 (keyCellOf 10 8060500)) ∧ slotFor s.gate 0 8060500 = .pending ∧ Reached s.gate 8058500 ∧
      unblacked s.gate 0 0 ∧ ¬ unblacked s.gate 0 1 ∧ (t.gate.event 0).openLead = none ∧
      (t.gate.event 0).pendingSheet.map Sheet.mark = some true ∧
      (t.gate.zone 0).fresh = [openEntry 0 8, openEntry 0 10] ∧ (t.gate.zone 1).fresh = [openEntry 0 8]) ∧
    (let s := previewed previewEvent 10 8062000;
      let t := after .keyCell s;
      ¬ Reached s.gate 8060000 ∧ (t.gate.event 0).openLead = some 8060000 ∧
      (t.gate.event 0).pendingSheet.map Sheet.mark = some false ∧ (t.gate.zone 0).fresh = [openEntry 0 8]) ∧
    (let s := previewed { event .preview with current := some (sheet 8 8000000 .noClass true) } 10 8059000;
      slotFor s.gate 0 8059000 = .current ∧
      ((after .keyCell s).gate.zone 1).fresh = [openEntry 0 9, openEntry 0 10]) := by
  decide +kernel

/-- A STALLED event returns to PREVIEW, its current sheet offered before the new one, or to LIVE, with a leg that is late. -/
theorem witness_KeyCellAcceptedTakesItsSlot_returns :
    (let s := withZone 0 (fun zone => { zone with fresh := [] })
        (previewed { event .stalled with
          resumePhase := some .preview, current := some (sheet 8 8000000 .openClass true) } 9 8060500);
      ((after .keyCell s).gate.zone 0).fresh = [openEntry 0 8, openEntry 0 9] ∧
      ((after .keyCell s).gate.event 0).phase = .preview) ∧
    (let s := previewed { event .stalled with resumePhase := some .live } 9 8059000;
      Reached s.gate 8059000 ∧
      (after .keyCell s).gate.leg 0 .current = some (newLeg s.gate 9 true none) ∧
      ((after .keyCell s).gate.event 0).current.map Sheet.cls = some .noClass) := by
  decide +kernel

theorem witness_DiscardTakesTheSheetsWork :
    (withEvent liveEvent (running 0)).gate.sheet 0 .pending = some (sheet 101 8060000 .listedClass false) ∧
      SheetSlot.current ≠ .pending := by decide +kernel

theorem witness_PromotionMovesThePendingSheet :
    let s := atTime 8060000 (withEvent { liveEvent with nextStarvation := some 8060000 } (running 0))
    (s.gate.event 0).pendingSheet = some (sheet 101 8060000 .listedClass false) ∧ Reached s.gate 8060000 ∧
      (s.gate.event 0).openLead = none ∧ (s.gate.event 0).openRepeat = none ∧
      (s.gate.event 0).nextStarvation = some 8060000 ∧ (8060000 : Time) ≤ 8060000 := by
  decide +kernel

/-- The part with the LIVE event at site time 8,060,000 and a leg for each of its sheets. -/
def bothSwept (current pendingLeg : Leg) : State :=
  withLeg .pending pendingLeg (withLeg .current current (atTime 8060000 (withEvent liveEvent (running 0))))

/-- A promoted leg goes on unchanged; where the displaced leg was the last on a first lap, it resumes. -/
theorem witness_PromotionMovesThePendingSheet_leg :
    let onFirst := Leg.joined (sheet 100 8000000 .listedClass false) 7
    let next := { Leg.joined (sheet 101 8060000 .listedClass false) 5 with
      remaining := 17, cells := Vector.replicate 4 [129], emitted := Vector.replicate 4 3 }
    let waiting := { next with walking := false, lap := 4, owesFlush := true }
    (after (.promotion 0) (bothSwept onFirst next)).gate.leg 0 .current = some next ∧
      (after (.promotion 0) (bothSwept onFirst waiting)).gate.leg 0 .current
        = some { waiting with walking := true, lap := 5, join := 0, remaining := 8192 } := by
  decide +kernel

/-- A sheet promoted in PREVIEW that has not been offered is offered, on the zones not blacked out. -/
theorem witness_PromotionMovesThePendingSheet_offer :
    let s := atTime 8060000 (withEvent { previewEvent with pendingSheet := some (sheet 9 8060000 .openClass false) }
      (running 1))
    let t := after (.promotion 0) s
    unblacked s.gate 0 0 ∧ ¬ unblacked s.gate 0 1 ∧ (t.gate.zone 0).fresh = [openEntry 0 9] ∧
      (t.gate.zone 1).fresh = [] ∧ (t.gate.event 0).current = some (sheet 9 8060000 .openClass true) := by
  decide +kernel

theorem witness_OpenInstantsOfferEveryUnblackedZone :
    let lead := { event .preview with openLead := some 7998000 }
    let s := atTime 7998000 (withEvent lead (running 1))
    let p := atTime 7998000 (withEvent
      { lead with pendingSheet := some (sheet 9 8000000 .openClass false), mask := 2, openRepeat := some 7998000 }
      (running 1))
    let r := atTime 7998000 (withEvent
      { event .preview with
        openRepeat := some 7998000
        current := some (sheet 8 7000000 .openClass true)
        pendingSheet := some (sheet 9 8000000 .openClass true) } (running 1))
    (Reached s.gate 7998000 ∧ (s.gate.event 0).openLead = some 7998000 ∧ (s.gate.event 0).nextStarvation = none ∧
      (s.gate.event 0).openRepeat = none ∧ (s.gate.event 0).pendingSheet = none) ∧
    (Reached p.gate 7998000 ∧ (p.gate.event 0).openLead = some 7998000 ∧
      (p.gate.event 0).openRepeat = some 7998000 ∧
      (p.gate.event 0).pendingSheet = some (sheet 9 8000000 .openClass false) ∧ (7998000 : Time) ≤ 8000000 ∧
      unblacked p.gate 0 0 ∧ ¬ unblacked p.gate 0 1) ∧
    (Reached r.gate 7998000 ∧ (r.gate.event 0).openRepeat = some 7998000 ∧ (r.gate.event 0).openLead = none ∧
      (r.gate.event 0).nextStarvation = none ∧ (7998000 : Time) < 8000000 ∧
      (r.gate.event 0).current = some (sheet 8 7000000 .openClass true) ∧ unblacked r.gate 0 1) := by
  decide +kernel

theorem witness_StarvationInstantCountsAndStalls :
    (∀ p ∈ [Phase.onSale, .live, .stalled],
      let s := atTime 8060000 (withEvent
        { event p with nextStarvation := some 8060000, openRepeat := some 8060000, starvation := 2 } (running 0))
      (s.gate.event 0).nextStarvation = some 8060000 ∧ Reached s.gate 8060000 ∧
        (s.gate.event 0).openLead = none ∧ (s.gate.event 0).pendingSheet = none ∧
        (s.gate.event 0).openRepeat = some 8060000 ∧ (s.gate.event 0).phase = p) ∧
    max (running 0).gate.settings.stallThreshold.toNat ((running 0).gate.settings.warnThreshold.toNat + 1)
      ≤ min (2 + 1) 65535 := by
  decide +kernel

theorem witness_EventStepsLeaveTheRest :
    handed (keyed liveEvent 102 8060001) (.key 0 (keyCellOf 102 8060001)) ∧
      (applyTask 0 .goExtra 0 (keyed liveEvent 102 8060001).gate).isSome = true ∧
      (applyTask 0 .backToSale 0 (keyed previewEvent 102 8060001).gate).isSome = true := by decide +kernel

/-! ## Witnesses: sweeps, the Holder Table, the maintenance walker -/

/-- A first-lap leg of event 0 that joined at bucket 2,000 for sheet 100, due at 8,000,000. -/
def firstLeg : Leg :=
  Leg.joined (sheet 100 8000000 .listedClass false) 2000

/-- A part at site time 8,000,000 with the LIVE event and a leg. -/
def swept (leg : Leg) : State :=
  withLeg .current leg (atTime 8000000
    (withEvent { event .live with current := some (sheet 100 8000000 .listedClass false) } (running 0)))

theorem swept_leg (leg : Leg) (f : EventIndex) (slot : SheetSlot) :
    (swept leg).gate.leg f slot = if f = 0 ∧ slot = .current then some leg else none := by
  by_cases h : f = 0
  · subst h
    cases slot <;> rfl
  · have other : ¬ 0 = f.val := fun e => h (Fin.ext e.symm)
    cases slot <;>
      simp [h, swept, withLeg, setLeg, Gate.leg, other, atTime, withEvent, running, Gate.setEvent,
        Gate.atPowerOn, Sweep.absent, Sweep.leg]

theorem witness_LatenessAndAgeInstants :
    (∀ leg ∈ [firstLeg, { firstLeg with lap := 2 }, { firstLeg with walking := false }],
      (swept leg).gate.leg 0 .current = some leg ∧ leg.deadline = some 8000000 ∧ Reached (swept leg).gate 8000000 ∧
        ∀ f other l u, (swept leg).gate.leg f other = some l → l.deadline = some u → (8000000 : Time) ≤ u) ∧
    (firstLeg.walking = true ∧ firstLeg.lap = 1) ∧
    (Reached (atTime 3600000 (running 0)).gate (atTime 3600000 (running 0)).gate.upkeep.ageInstant ∧
      (atTime 3600000 (running 0)).gate.upkeep.tasks = [] ∧
      Task.ageScan ∈ (withTasks [.ageScan] 5 (running 0)).gate.upkeep.tasks ∧
      Task.ageScan ∉ (withTasks [.recount 0] 5 (running 0)).gate.upkeep.tasks ∧
      (withTasks [.recount 0] 5 (running 0)).gate.upkeep.tasks ≠ []) := by
  refine ⟨?_, by decide +kernel, by decide +kernel⟩
  intro leg mem
  have deadline : leg.deadline = some 8000000 := by
    simp only [List.mem_cons, List.not_mem_nil, or_false] at mem
    rcases mem with h | h | h <;> subst h <;> rfl
  refine ⟨rfl, deadline, ⟨rfl, BitVec.le_refl _⟩, ?_⟩
  intro f other l u h hu
  rw [swept_leg] at h
  split at h
  · obtain rfl := Option.some.inj h
    rw [deadline] at hu
    obtain rfl := Option.some.inj hu
    exact BitVec.le_refl _
  · cases h

/-- A sweep-queue cell of another event. -/
def otherCell : Notice :=
  { event := 5, eventNumber := 9, sheet := 1, effective := 0, blob := [], entries := [7] }

/-- The swept part as its cursor reaches bucket 129, with 160 cells in the sweep queue and a full assembly cell one
placement short: the visit would make it 161. -/
def overfull : State :=
  let s := withHolder (holder 129) (withZone 0 (fun zone => { zone with sweep := List.replicate 160 otherCell })
    (swept { firstLeg with cells := Vector.replicate 4 (List.replicate 47 7) }))
  { s with gate := { s.gate with walker := { s.gate.walker with cursor := 129 } } }

theorem witness_SweepVisitGoesAheadOrParks :
    ((swept firstLeg).gate.leg 0 .current = some firstLeg ∧ firstLeg.walking = true ∧
      (visitBucket (swept firstLeg).gate).fits = true ∧ Turn (swept firstLeg).gate .sweepWalker) ∧
    ((overfull.gate.leg 0 .current).map Leg.walking = some true ∧
      ((visitBucket overfull.gate).zone 0).sweep.length = 161 ∧ overfull.gate.walker.parked = false) := by decide +kernel

theorem witness_SweepVisitPlacesGrantEligibleDecoders :
    let s := withHolder (holder 129) (swept { firstLeg with remaining := 2 })
    s.gate.leg 0 .current = some { firstLeg with remaining := 2 } ∧ firstLeg.walking = true ∧
      firstLeg.owesFlush = false ∧ 1 < (2 : Fin 8193).val ∧ (∀ z : ZoneIndex, (firstLeg.cells[z]).length + 4 < 48) ∧
      (visitBucket s.gate).fits = true ∧ Turn s.gate .sweepWalker := by decide +kernel

theorem witness_SweepVisitPlacesGrantEligibleDecoders_moves :
    let full := swept { firstLeg with cells := Vector.replicate 4 (List.replicate 47 7), late := true }
    let placed := placeFor (holder 129) (0, .current) full.gate
    let owing := swept { firstLeg with owesFlush := true, cells := Vector.replicate 4 [7] }
    let flushed := flushOwed (0, .current) owing.gate
    let notice : Notice := { event := 0, eventNumber := 5120, sheet := 100, effective := 8000000, blob := [], entries := [7] }
    (zoneCounter placed 0 .lateGrants = 1 ∧ (placed.zone 0).sweep.map Notice.entries = [List.replicate 47 7 ++ [129]] ∧
      (placed.leg 0 .current).map (fun leg => (leg.cells[0], leg.emitted[0])) = some ([], 48)) ∧
    (flushed.leg 0 .current = some { firstLeg with emitted := Vector.replicate 4 1 } ∧
      (flushed.zone 0).sweep = [notice] ∧ (flushed.zone 3).sweep = [notice]) ∧
    (grantEligible (holder 129) 0 (full.gate.event 0) = true ∧
      grantEligible { holder 129 with bought := 0 } 0 (full.gate.event 0) = false) := by decide +kernel

theorem witness_SweepVisitPlacesGrantEligibleDecoders_laps :
    let ending := { firstLeg with remaining := 0 }
    let waiting := { firstLeg with walking := false, lap := 65535 }
    let alone := endLap (0, .current) (withLeg .pending waiting (swept ending)).gate
    let behind := endLap (0, .current) (withLeg .pending firstLeg (swept ending)).gate
    let later := endLap (0, .current) (withLeg .pending waiting (swept { ending with lap := 2 })).gate
    (alone.leg 0 .current = some { firstLeg with lap := 2, join := 0, deadline := none } ∧
      alone.leg 0 .pending = some { firstLeg with lap := 65535, join := 0 } ∧ eventCount alone 0 .lapsCompleted = 1) ∧
    (behind.leg 0 .current = some { ending with walking := false, deadline := none } ∧
      behind.leg 0 .pending = some firstLeg) ∧
    (later.leg 0 .current = some { firstLeg with lap := 3, join := 0, deadline := none } ∧
      later.leg 0 .pending = some waiting) := by decide +kernel

theorem witness_SweepVisitPlacesGrantEligibleDecoders_joins_and_drops :
    let waiting := { firstLeg with walking := false, lap := 2 }
    let later := { firstLeg with lap := 2 }
    let joined := joinLeg 0 .pending (withLeg .current later (atTime 1 (withEvent liveEvent (running 0)))).gate
    let dropped := dropLeg 0 .current (withLeg .pending waiting (swept firstLeg)).gate
    let kept := dropLeg 0 .current (withLeg .pending waiting (swept later)).gate
    (joined.leg 0 .current = some { later with walking := false, owesFlush := true } ∧
      (joined.leg 0 .pending).map Leg.lap = some 1) ∧
    (dropped.leg 0 .current = none ∧ dropped.leg 0 .pending = some { firstLeg with lap := 3, join := 0 }) ∧
    kept.leg 0 .pending = some waiting := by decide +kernel

theorem witness_EligibilityAndFreshRule :
    let entry := openEntry 0 9
    let full := withZone 0 (fun zone => { zone with fresh := List.replicate 256 entry }) (running 0)
    (entry ∈ (full.gate.zone 0).fresh ∧ openEntry 0 8 ∉ (full.gate.zone 0).fresh ∧
      256 ≤ (full.gate.zone 0).fresh.length ∧ entry ∉ ((running 0).gate.zone 0).fresh ∧
      ((running 0).gate.zone 0).fresh.length < 256) ∧
    ((running 0).gate.event 0).phase ∉ [Phase.live, .extra, .windDown] ∧
    ((swept firstLeg).gate.event 0).phase ∈ [Phase.live, .extra, .windDown] ∧
    (swept firstLeg).gate.sheet 0 .pending = none ∧
    (swept firstLeg).gate.sheet 0 .current = some (sheet 100 8000000 .listedClass false) ∧
    ((swept firstLeg).gate.leg 0 .current = some firstLeg ∧ firstLeg.walking = true ∧
      ¬ ((129 + 8192 - firstLeg.join.val) % 8192 < 8192 - firstLeg.remaining.val)) ∧
    (({ firstLeg with join := 129, remaining := 8191 } : Leg).walking = true ∧
      (129 + 8192 - 129) % 8192 < 8192 - 8191) := by decide +kernel

theorem witness_BucketRule :
    HoldersOk invariantState.gate.holders ∧ Sparse.get invariantState.gate.holders 516 = some (holder 129) ∧
      (∃ t, step invariantState = .next t ∧ Sparse.get t.gate.holders 516 = some (holder 129)) ∧
      findHolder 129 invariantState.gate = some (516, holder 129) :=
  ⟨witness_EveryStepKeepsTheHolderTable, by decide +kernel, ⟨_, rfl, by decide +kernel⟩, by decide +kernel⟩

/-- A part with the LIVE event, its holder 129 and the live count of it. -/
def counted : State :=
  withHolder (holder 129) (withEvent { event .live with counts := Vector.replicate 4 1 } (running 1))

theorem witness_RecordChangeMovesCountsAndPurges :
    let moved : Holder := { holder 129 with zone := 1 }
    eligible (holder 129) 0 (counted.gate.event 0) = true ∧ 0 < ((counted.gate.event 0).counts[(0 : Fin 4)]).val ∧
      eligible moved 0 (counted.gate.event 0) = true ∧ ((counted.gate.event 0).counts[(1 : Fin 4)]).val < 32768 ∧
      grantEligible (holder 129) 0 (counted.gate.event 0) = true ∧
      (some moved).any (fun r => grantEligible r 0 (counted.gate.event 0) && decide (r.zone = 0)) = false := by
  decide +kernel

theorem witness_RecordChangeMovesCountsAndPurges_shadow_and_fresh :
    let moved : Holder := { holder 129 with zone := 1 }
    let recounting := withTasks [.retire 0 true] 130 counted
    let shadow := { recounting.gate with upkeep := { recounting.gate.upkeep with shadow := Vector.replicate 4 5 } }
    let h := changeRecord 516 (some (holder 129)) (some moved) shadow
    let bought := changeRecord 516 (some { holder 129 with bought := 0 }) (some (holder 129)) (swept firstLeg).gate
    let passed := changeRecord 516 (some { holder 129 with bought := 0 }) (some (holder 129))
      (swept { firstLeg with join := 129, remaining := 8191 }).gate
    (516 / 4 < shadow.upkeep.cursor.val ∧ shadow.upkeep.tasks.head? = some (.retire 0 true) ∧
      h.upkeep.shadow = #v[4, 6, 5, 5]) ∧
    (grantEligible (holder 129) 0 ((swept firstLeg).gate.event 0) = true ∧
      grantEligible { holder 129 with bought := 0 } 0 ((swept firstLeg).gate.event 0) = false ∧
      (bought.zone 0).fresh = [] ∧ (passed.zone 0).fresh = [listedEntry 129 0 100]) := by decide +kernel

theorem witness_MaintenanceVisitAppliesItsTask :
    ∀ task ∈ [Task.recount 0, .retire 0 false, .ageScan],
      (withTasks [task] 8190 counted).gate.upkeep.tasks = task :: [] ∧
        (withTasks [task] 8190 counted).gate.upkeep.cursor.val < 8191 ∧
        (withTasks [task] 0 counted).gate.upkeep.cursor.val < 8191 ∧
        ((withTasks [task] 0 counted).gate.upkeep.shadow[(0 : Fin 4)]).val + 1 ≤ 32768 ∧
        Turn (withTasks [task] 8190 counted).gate .maintenanceWalker := by decide +kernel

theorem witness_MaintenanceVisitAppliesItsTask_bucket :
    let s := withTasks [.retire 0 false] 129 counted
    s.gate.upkeep.cursor.val < 8191 ∧ Turn s.gate .maintenanceWalker ∧
      eligibleIn s.gate 129 0 0 = 1 ∧ eligibleIn s.gate 129 0 0 ≤ ((s.gate.event 0).counts[(0 : Fin 4)]).val ∧
      (((after .maintenanceVisit s).gate.event 0).counts[(0 : Fin 4)]).val = 0 ∧
      agedOut (withTasks [.ageScan] 129 (withHolder { holder 129 with bought := 0, ageMark := false } counted)).gate 129 = 1 ∧
      (after .maintenanceVisit
        (withTasks [.ageScan] 129
          (withHolder { holder 129 with bought := 0, ageMark := false } counted))).gate.holders = [] := by
  decide +kernel

theorem witness_WalkEndFinishesItsTask :
    ∀ task ∈ [Task.recount 0, .retire 0 false, .ageScan], ∀ rest ∈ [[], [Task.recount 5]],
      (withTasks (task :: rest) 8191 counted).gate.upkeep.tasks = task :: rest ∧
        (withTasks (task :: rest) 8191 counted).gate.upkeep.cursor.val = 8191 ∧
        ((withTasks (task :: rest) 8191 counted).gate.upkeep.shadow[(0 : Fin 4)]).val + 1 ≤ 32768 ∧
        Turn (withTasks (task :: rest) 8191 counted).gate .maintenanceWalker := by decide +kernel

/-! ## Witnesses: command queue, replies, status cells -/

/-- A command cell for another part. -/
def foreignCell : List Byte :=
  controlCell 4094 0 ([9, 0, 1, 0x14, 2, 0x14, 0])

theorem witness_ManagementCellJoinsTheQueue :
    let cell := command 0x14 [0x14, 0]
    let waiting := fun n => withHandoff (.management cell) (withQueue (List.replicate n cell) (running 0))
    (handed (withHandoff (.management foreignCell) (running 0)) (.management foreignCell) ∧
      ¬ (byteAt foreignCell 5 = unitOf (running 0).gate ∨ byteAt foreignCell 5 = 255)) ∧
    (handed (waiting 32) (.management cell) ∧ byteAt cell 5 = 255 ∧ 32 ≤ (waiting 32).gate.command.queue.length) ∧
    ((waiting 23).gate.command.queue.length < 32 ∧ (waiting 23).gate.command.queue.length = 23 ∧
      (waiting 23).gate.command.busy = false ∧ (waiting 31).gate.command.queue.length < 32 ∧
      ¬ (waiting 31).gate.command.queue.length = 23) ∧
    ((waiting 9).gate.command.queue = cell :: List.replicate 8 cell ∧ (List.replicate 8 cell).length = 8 ∧
      (waiting 9).gate.command.busy = false) ∧
    (let g := { (waiting 9).gate with command := { (waiting 9).gate.command with busy := true } };
      g.command.queue = cell :: List.replicate 8 cell ∧ g.command.busy = true) := by decide +kernel

theorem witness_ReturnSlotSendsInOrder :
    let replied := after .readEvent (holding 0x14 [0x14, 0] (running 0))
    State.reset.gate.loader.loading = true ∧ (running 0).gate.loader.loading = false ∧
      (running 0).gate.command.replies = [] ∧ (running 0).gate.command.status = [] ∧
      replied.gate.loader.loading = false ∧
      replied.gate.command.replies = { tag := 1, code := 0x14, result := .noEvent, body := [] } :: [] ∧
      invariantState.gate.loader.loading = false ∧ invariantState.gate.command.replies = [] ∧
      invariantState.gate.command.status ≠ [] := by decide +kernel

theorem witness_CommandsTurnedAwayUnread :
    let s := holding 0x77 [] (running 0)
    let long := holding 0x14 (List.replicate 229 0) (running 0)
    let full := { running 0 with gate := { (running 0).gate with command := { (running 0).gate.command with
      replies := List.replicate 16 { tag := 0, code := 0x14, result := .ok, body := [] } } } }
    (s.gate.command.queue = command 0x77 [] :: [] ∧ s.gate.command.work = .ready ∧
      s.gate.command.replies.length < 16 ∧ (request 0x77 []).code ∉ codeTable.map Prod.fst) ∧
    (long.gate.command.queue = command 0x14 (List.replicate 229 0) :: [] ∧
      ((request 0x14 (List.replicate 229 0)).code, Instr.readEvent) ∈ codeTable ∧
      228 < (request 0x14 (List.replicate 229 0)).length ∧ ((0x10 : Byte), Instr.loadEvent) ∈ codeTable ∧
      (request 0x14 (List.replicate 229 0)).code ≠ 0x10) ∧
    ((after .restart (holding 0x36 [] (running 0))).gate.command.work ≠ .ready ∧
      16 ≤ full.gate.command.replies.length) := by decide +kernel

/-! ## Witnesses: commands on event records -/

/-- A LOAD_EVENT body with its mask byte replaced. -/
def maskedBody (mask : Byte) : List Byte :=
  loadBody.set 12 mask

theorem begins_running (code : Byte) (body : List Byte) (reads : requestOf (command code body) = request code body)
    (length : body.length ≤ 228) : Begins (holding code body (running 0)).gate (request code body) :=
  begins_holding code body (running 0) rfl (show 0 < 16 by decide) reads length

theorem begins_withEvent (code : Byte) (body : List Byte) (ev : Event)
    (reads : requestOf (command code body) = request code body) (length : body.length ≤ 228) :
    Begins (holding code body (withEvent ev (running 0))).gate (request code body) :=
  begins_holding code body (withEvent ev (running 0)) rfl (show 0 < 16 by decide) reads length

/-- Every record loaded. -/
def crowded : State :=
  { running 0 with gate := { (running 0).gate with events := Vector.replicate 24 (event .onSale) } }

theorem loadBody_named : loadNamed loadBody = [300, 301, 310, 320] := by decide +kernel

theorem witness_LoadEventTakesTheLowestVacantRecord_form_and_range :
    Begins (holding 0x10 [0, 0, 1] (running 0)).gate (request 0x10 [0, 0, 1]) ∧
      ((request 0x10 [0, 0, 1]).code = 0x10 ∧ ¬ LoadForm (request 0x10 [0, 0, 1]) ∧
        LoadForm (request 0x10 (maskedBody 2))) ∧
      ¬ LoadRange (running 0).gate (request 0x10 (maskedBody 2)).body :=
  ⟨begins_running 0x10 [0, 0, 1] (by decide +kernel) (by decide), by decide +kernel,
    fun range => absurd range.2.2.2.2.1 (by decide +kernel)⟩

theorem witness_LoadEventTakesTheLowestVacantRecord_taken :
    Begins (holding 0x10 loadBody (running 0)).gate (request 0x10 loadBody) ∧
      (LoadForm (request 0x10 loadBody) ∧ (running 0).gate.findEvent (halfAt loadBody 0) = none ∧
        ¬ occupied (running 0).gate 0) ∧
      LoadRange (running 0).gate loadBody ∧ LanesFree (running 0).gate loadBody := by
  refine ⟨begins_running 0x10 loadBody (by decide +kernel) (by decide +kernel), by decide +kernel, ?_, ?_, ?_⟩
  · refine ⟨by decide +kernel, by decide +kernel, by decide +kernel, ?_, by decide +kernel, ?_, by decide +kernel,
      by decide +kernel, by decide +kernel⟩
    · rw [loadBody_named]
      intro lane mem
      simp only [List.mem_cons, List.not_mem_nil, or_false] at mem
      rcases mem with h | h | h | h <;> subst h <;> decide +kernel
    · have none : loadRanges loadBody = [] := by decide +kernel
      rw [none]
      intro range mem
      cases mem
  · rw [loadBody_named]
    intro lane mem
    simp only [List.mem_cons, List.not_mem_nil, or_false] at mem
    rcases mem with h | h | h | h <;> subst h <;> decide +kernel
  · rw [loadBody_named]
    decide +kernel

/-- Lane 301 is taken. -/
def takenState : State :=
  { running 0 with gate := { (running 0).gate with lanes := [(301, .content 5)] } }

theorem witness_LoadEventTakesTheLowestVacantRecord_refused :
    let number := halfAt loadBody 0
    let busy := withEvent { event .retiring with number := 7001 } (running 0)
    let twice := withEvent { event .live with number := 7001 } (running 0)
    ((busy.gate.findEvent number = some 0 ∧ (busy.gate.event 0).phase = .retiring) ∧
      (twice.gate.findEvent number = some 0 ∧ (twice.gate.event 0).phase ≠ .retiring) ∧
      (crowded.gate.findEvent number = none ∧ ∀ e, occupied crowded.gate e) ∧ ¬ occupied takenState.gate 0) ∧
    ¬ LanesFree takenState.gate loadBody :=
  ⟨by decide +kernel, fun free => absurd (free.1 301 (by rw [loadBody_named]; decide)) (by decide +kernel)⟩

/-- An AMEND_EVENT of every field of event 5,120, with a mask, a range, a start, and bounds at their limits. -/
def amendBody : List Byte :=
  [0x14, 0, 0x3F, 1, 1, 0, 40, 0, 49] ++ field 6 19800000 ++ [240, 120, 0]

theorem witness_AmendEventWritesItsFields_refused :
    Begins (holding 0x11 [0x14, 0, 0x40] (running 0)).gate (request 0x11 [0x14, 0, 0x40]) ∧
      (amendFormGood (request 0x11 [0x14, 0, 0x40]) = false ∧
        amendFormGood (request 0x11 [0x14, 0, 0x08, 241]) = true ∧
        (amendFields (request 0x11 [0x14, 0, 0x08, 241]).body).cutoff = some 241 ∧
        (running 0).gate.findEvent (amendFields (request 0x11 [0x14, 0, 0x08, 241]).body).number = none) :=
  ⟨begins_running _ _ (by decide +kernel) (by decide), by decide +kernel⟩

theorem witness_AmendEventWritesItsFields :
    Begins (holding 0x11 amendBody (withEvent (event .onSale) (running 0))).gate (request 0x11 amendBody) ∧
      ((request 0x11 amendBody).code = 0x11 ∧ amendFormGood (request 0x11 amendBody) = true ∧
        amendFields amendBody
          = { number := 5120
              mask := some 1
              ranges := some [{ low := 40, high := 49 }]
              start := some (some 19800000)
              cutoff := some 240
              extraLimit := some 120
              grace := some 0 } ∧
        ∀ p ∈ [Phase.onSale, .live, .retiring],
          (withEvent (event p) (running 0)).gate.findEvent 5120 = some 0 ∧
            ((withEvent (event p) (running 0)).gate.event 0).phase = p) :=
  ⟨begins_withEvent _ _ _ (by decide +kernel) (by decide), by decide +kernel⟩

/-- Each way in which a RECOUNT joins the list with new ranges: restarting, merged, into an empty list, at the tail. -/
theorem witness_AmendEventWritesItsFields_recount :
    let s := fun tasks => withTasks tasks 3 (withEvent (event .onSale) (running 0))
    (amendFields amendBody).ranges ≠ none ∧
      (s [.recount 0]).gate.upkeep.tasks.head? = some (.recount 0) ∧
      ((s [.ageScan, .recount 0]).gate.upkeep.tasks.head? ≠ some (.recount 0) ∧
        Task.recount 0 ∈ (s [.ageScan, .recount 0]).gate.upkeep.tasks) ∧
      (s []).gate.upkeep.tasks = [] ∧
      ((s [.ageScan]).gate.upkeep.tasks ≠ [] ∧ Task.recount 0 ∉ (s [.ageScan]).gate.upkeep.tasks) := by decide +kernel

/-- Each way in which a RETIRE joins the list. -/
theorem witness_SteerAndRetireEvents_retire :
    let s := fun tasks => withTasks tasks 3 (withEvent (event .closed) (running 0))
    (Task.recount 0 ∉ (s []).gate.upkeep.tasks ∧ (s []).gate.upkeep.tasks = []) ∧
      (Task.recount 0 ∉ (s [.ageScan]).gate.upkeep.tasks ∧ (s [.ageScan]).gate.upkeep.tasks ≠ []) ∧
      (Task.recount 0 ∈ (s [.recount 0]).gate.upkeep.tasks ∧
        (s [.recount 0]).gate.upkeep.tasks.head? = some (.recount 0)) ∧
      (Task.recount 0 ∈ (s [.ageScan, .recount 0]).gate.upkeep.tasks ∧
        (s [.ageScan, .recount 0]).gate.upkeep.tasks.head? ≠ some (.recount 0)) := by decide +kernel

theorem witness_SteerAndRetireEvents :
    let task := request 0x12 [0x14, 0, 2, 0]
    let extend := request 0x12 [0x14, 0, 6, 31]
    let live := withEvent (event .live) (running 0)
    let sale := withEvent (event .onSale) (running 0)
    let retiring := withEvent (event .retiring) (running 0)
    let closed := withEvent (event .closed) (running 0)
    (Begins (holding 0x12 [0x14, 0, 2, 0] sale).gate task ∧ task.code = 0x12 ∧ task.length = 4 ∧
      byteAt task.body 2 = PhaseTask.goLive.number ∧ sale.gate.findEvent (halfAt task.body 0) = some 0 ∧
      (applyTask 0 .goLive 0 (leaveQueue (holding 0x12 [0x14, 0, 2, 0] sale).gate)).isSome = true ∧
      applyTask 0 .goLive 0 (leaveQueue (holding 0x12 [0x14, 0, 2, 0] live).gate) = none ∧
      (running 0).gate.findEvent (halfAt task.body 0) = none ∧ (retiring.gate.event 0).phase = .retiring) ∧
    (byteAt extend.body 2 = PhaseTask.extendPreview.number ∧ ¬ (byteAt extend.body 3).toNat ≤ 30 ∧
      (byteAt (request 0x12 [0x14, 0, 8, 0]).body 2).toNat ∉ [1, 2, 3, 4, 5, 6, 7] ∧
      (request 0x12 [0x14, 0, 8]).length ≠ 4) ∧
    (Begins (holding 0x13 [0x14, 0] closed).gate (request 0x13 [0x14, 0]) ∧ (request 0x13 [0x14, 0]).length = 2 ∧
      (request 0x13 [0x14]).length ≠ 2 ∧ closed.gate.findEvent (halfAt (request 0x13 [0x14, 0]).body 0) = some 0 ∧
      (closed.gate.event 0).phase = .closed ∧ (live.gate.event 0).phase ≠ .closed ∧
      Task.recount 0 ∉ closed.gate.upkeep.tasks ∧ Task.recount 0 ∈ (withTasks [.recount 0] 3 closed).gate.upkeep.tasks) := by
  refine ⟨⟨begins_withEvent _ _ _ (by decide +kernel) (by decide), by decide +kernel⟩, by decide +kernel,
    begins_withEvent _ _ _ (by decide +kernel) (by decide), by decide +kernel⟩

theorem witness_ReadEventAndDumpChangeNothing :
    let read := request 0x14 [0x14, 0]
    (Begins (holding 0x14 [0x14, 0] (withEvent (event .live) (running 0))).gate read ∧ read.code = 0x14 ∧
      read.length = 2 ∧ (request 0x14 [0x14]).length ≠ 2 ∧ (running 0).gate.findEvent (halfAt read.body 0) = none ∧
      (withEvent (event .live) (running 0)).gate.findEvent (halfAt read.body 0) = some 0) ∧
    (Begins (holding 0x29 [31, 255] (running 0)).gate (request 0x29 [31, 255]) ∧
      Turn (holding 0x29 [31, 255] (running 0)).gate .command ∧ (event .live).moreLanes.length ≤ 5 ∧
      (event .live).ranges.length ≤ 8 ∧
      (halfAt (request 0x29 [31, 255]).body 0).toNat ≤ 8191 ∧ 8191 < (halfAt (request 0x29 [32, 0]).body 0).toNat ∧
      (request 0x29 [32, 0, 0]).length ≠ 2) := by
  refine ⟨⟨begins_withEvent _ _ _ (by decide +kernel) (by decide), by decide +kernel⟩,
    begins_running _ _ (by decide +kernel) (by decide), by decide +kernel⟩

theorem witness_ReadHolderReturnsTheRecord :
    let read := request 0x28 (field 3 129)
    Begins (holding 0x28 (field 3 129) (running 0)).gate read ∧ Turn (holding 0x28 (field 3 129) (running 0)).gate .command ∧
      read.code = 0x28 ∧ read.length = 3 ∧
      decoderAt read.body 0 ≠ 0 ∧ decoderAt read.body 0 ≠ 16777215 ∧
      decoderAt (request 0x28 (field 3 16777215)).body 0 = 16777215 ∧ decoderAt (request 0x28 (field 3 0)).body 0 = 0 ∧
      (request 0x28 [1, 2]).length ≠ 3 ∧ findHolder (decoderAt read.body 0) (running 0).gate = none ∧
      findHolder (decoderAt read.body 0) (withHolder (holder 129) (running 0)).gate = some (516, holder 129) :=
  ⟨begins_running _ _ (by decide +kernel) (by decide), by decide +kernel⟩

/-! ## Witnesses: purchases and commands on holder records -/

theorem witness_PurchaseIsTakenItemByItem :
    let buying := after .purchase (holding 0x20 purchaseBody (running 0))
    let two := after .purchase (holding 0x20 (purchaseBody ++ purchaseBody) (running 0))
    let item : PurchaseItem := { decoder := 129, event := 5120, zone := 0, region := 12 }
    Begins (holding 0x20 purchaseBody (running 0)).gate (request 0x20 purchaseBody) ∧
      ((request 0x20 purchaseBody).length ≠ 0 ∧ (request 0x20 purchaseBody).length ≤ 224 ∧
        (request 0x20 purchaseBody).length % 8 = 0 ∧ (request 0x20 []).length = 0 ∧
        224 < (request 0x20 (List.replicate 225 0)).length ∧ (request 0x20 [0]).length % 8 ≠ 0 ∧
        buying.gate.command.work = .purchasing 1 (item :: []) [] ∧
        two.gate.command.work = .purchasing 1 (item :: [item]) [] ∧ Turn buying.gate .command ∧ Turn two.gate .command) :=
  ⟨begins_running _ _ (by decide +kernel) (by decide +kernel), by decide +kernel⟩

/-- The purchase of event 5,120 by a decoder in a zone, region 12. -/
def buys (d : Decoder) (zone : Byte) : PurchaseItem :=
  { decoder := d, event := 5120, zone := zone, region := 12 }

/-- A table of 32,768 records is full; a list of that many would be one way to write it. -/
theorem full_table_has_32768_records (h : Holder) :
    32768 ≤ ((List.range 32768).map (fun key => (key, h))).length := by
  rw [List.length_map, List.length_range]

theorem witness_PurchaseItemIsJudgedInOrder :
    let sale := (withEvent (event .onSale) (running 0)).gate
    let closed := (withEvent (event .closed) (running 0)).gate
    let late := (atTime 8200000 (withEvent { event .live with liveStamp := some 7000000 } (running 0))).gate
    let masked := (withEvent { event .onSale with mask := 1 } (running 0)).gate
    let ranged := (withEvent { event .onSale with ranges := [{ low := 12, high := 12 }] } (running 0)).gate
    let held := fun h => (withHolder h (withEvent (event .onSale) (running 0))).gate
    ((running 0).gate.loader.zoneStraps.toNat < (buys 129 1).zone.toNat ∧ BadDecoder (buys 0 0).decoder ∧
      ¬ (sale.loader.zoneStraps.toNat < (buys 129 0).zone.toNat) ∧ ¬ BadDecoder (buys 129 0).decoder) ∧
    ((running 0).gate.findEvent 5120 = none ∧ sale.findEvent 5120 = some 0 ∧
      (0 : ZoneIndex).val = (buys 129 0).zone.toNat) ∧
    (sale.settings.profile.onSale.accept = true ∧ closed.settings.profile.closed.accept = false) ∧
    ((late.event 0).phase = .live ∧ (late.event 0).cutoff = 20 ∧ (late.event 0).liveStamp = some 7000000 ∧
      late.clock.siteTime.toNat = 7000000 + 20 * 60000) ∧
    ((masked.event 0).mask.getLsbD 0 = true ∧ (ranged.event 0).ranges = [{ low := 12, high := 12 }] ∧
      findHolder 129 ranged = none) ∧
    (findHolder 129 (held { holder 129 with bought := 0 }) = some (516, { holder 129 with bought := 0 }) ∧
      findHolder 129 (held (holder 129)) = some (516, holder 129) ∧
      findHolder 129 (held { holder 129 with barred := true }) = some (516, { holder 129 with barred := true }) ∧
      findHolder 129 (held { holder 129 with region := 13 }) = some (516, { holder 129 with region := 13 })) ∧
    (findHolder 129 sale = none ∧ sale.holders.length < 32768 ∧ Sparse.get sale.holders (wayKey 129 0) = none) := by
  unfold BadDecoder
  decide +kernel

/-- Four records in bucket 129: a fifth decoder of the bucket finds it full (Table 49). -/
def fullBucket : State :=
  { running 0 with gate := { (running 0).gate with
    holders := [(516, holder 129), (517, holder 8320), (518, holder 16515), (519, holder 24706)] } }

theorem witness_full_bucket : findHolder 1048577 fullBucket.gate = none ∧ BucketFull fullBucket.gate 1048577 := by
  refine ⟨by decide +kernel, fun way less => ?_⟩
  have all : ∀ way : Fin 4, Sparse.get fullBucket.gate.holders (wayKey 1048577 way.val) ≠ none := by decide +kernel
  exact all ⟨way, less⟩

theorem witness_lowest_free_way :
    LowestFree { fullBucket.gate with holders := [(516, holder 129), (518, holder 16515)] } 1048577 1 := by
  refine ⟨by decide, by decide +kernel, fun v less => ?_⟩
  have zero : v = 0 := by omega
  subst zero
  decide +kernel

/-- A part with event 5,120 on sale and its holder 129. -/
def sold : State :=
  withHolder (holder 129) (withEvent (event .onSale) (running 0))

theorem sold_loaded : AllLoaded sold.gate [5120] := by
  intro number mem
  rw [List.mem_singleton] at mem
  subst mem
  exact ⟨0, by decide +kernel, by decide +kernel⟩

theorem sold_bad : FirstBad sold.gate [5120, 9] .noEvent :=
  ⟨[5120], 9, [], rfl, sold_loaded, .inl ⟨by decide +kernel, rfl⟩⟩

theorem retiring_bad : FirstBad (withHolder (holder 129) (withEvent (event .retiring) (running 0))).gate [5120] .busy :=
  ⟨[], 5120, [], rfl, fun _ mem => (by cases mem), .inr ⟨0, by decide +kernel, by decide +kernel, rfl⟩⟩

theorem begins_sold (code : Byte) (body : List Byte) (reads : requestOf (command code body) = request code body)
    (length : body.length ≤ 228) : Begins (holding code body sold).gate (request code body) :=
  begins_holding code body sold rfl (show 0 < 16 by decide) reads length

theorem witness_HolderCommandsAreRefusedInOrder :
    Begins (holding 0x21 (field 3 129 ++ [2, 0x14, 0, 0, 9]) sold).gate (request 0x21 (field 3 129 ++ [2, 0x14, 0, 0, 9])) ∧
      FirstBad sold.gate (numbersAt (field 3 129 ++ [2, 0x14, 0, 0, 9]) 4 2) .noEvent ∧
      (findHolder 129 sold.gate ≠ none ∧
        Turn (holding 0x21 (field 3 129 ++ [2, 0x14, 0, 0, 9]) sold).gate .command) ∧
      (let cancel := request 0x21 (field 3 129 ++ [2, 0x14, 0, 0, 9]);
        4 ≤ cancel.length ∧ cancel.length = 4 + 2 * (byteAt cancel.body 3).toNat ∧
        ¬ BadDecoder (decoderAt cancel.body 0) ∧ 1 ≤ (byteAt cancel.body 3).toNat ∧
        ¬ 4 ≤ (request 0x21 (field 3 129)).length ∧ ¬ 1 ≤ (byteAt (field 3 129 ++ [0]) 3).toNat ∧
        25 = (byteAt (field 3 129 ++ [25]) 3).toNat) ∧
      findHolder 129 (running 0).gate = none := by
  unfold BadDecoder
  refine ⟨begins_sold _ _ (by decide +kernel) (by decide +kernel), ?_, by decide +kernel, by decide +kernel,
    by decide +kernel⟩
  have numbers : numbersAt (field 3 129 ++ [2, 0x14, 0, 0, 9]) 4 2 = [5120, 9] := by decide +kernel
  rw [numbers]
  exact sold_bad

theorem witness_HolderCommandsAreRefusedInOrder_forms :
    let force := request 0x24 (field 3 129 ++ [1, 1, 0x14, 0])
    let put := request 0x22 (field 3 129 ++ [0, 0, 12, 1, 1, 0x14, 0])
    (∀ code ∈ [(0x23 : Byte), 0x26, 0x27],
      (request code (field 3 129)).length = 3 ∧ ¬ BadDecoder (decoderAt (request code (field 3 129)).body 0) ∧
        BadDecoder (decoderAt (request code (field 3 16777215)).body 0) ∧ (request code []).length ≠ 3) ∧
    (5 ≤ force.length ∧ force.length = 5 + 2 * (byteAt force.body 4).toNat ∧ byteAt force.body 3 = 1 ∧
      numbersAt force.body 5 1 = [5120]) ∧
    (8 ≤ put.length ∧ put.length = 8 + 2 * (byteAt put.body 7).toNat ∧ (byteAt put.body 3).toNat ≤ 0 ∧
      (byteAt put.body 6).toNat ≤ 1 ∧ numbersAt put.body 8 1 = [5120]) := by
  unfold BadDecoder
  decide +kernel

theorem witness_CancelForceReleaseChangeTheSets :
    let cancel := request 0x21 (field 3 129 ++ [1, 0x14, 0])
    let force := request 0x24 (field 3 129 ++ [2, 1, 0x14, 0])
    let release := request 0x25 (field 3 129 ++ [1, 1, 0x14, 0])
    Begins (holding 0x21 (field 3 129 ++ [1, 0x14, 0]) sold).gate cancel ∧
      Begins (holding 0x24 (field 3 129 ++ [2, 1, 0x14, 0]) sold).gate force ∧
      Begins (holding 0x25 (field 3 129 ++ [1, 1, 0x14, 0]) sold).gate release ∧
      AllLoaded sold.gate [5120] ∧
      (findHolder 129 sold.gate = some (516, holder 129) ∧ decoderAt cancel.body 0 = 129 ∧
        cancel.length = 4 + 2 * (byteAt cancel.body 3).toNat ∧ numbersAt cancel.body 4 1 = [5120] ∧
        force.length = 5 + 2 * (byteAt force.body 4).toNat ∧ byteAt force.body 3 = 2 ∧
        numbersAt force.body 5 1 = [5120] ∧ byteAt release.body 3 = 1 ∧ numbersAt release.body 5 1 = [5120] ∧
        Turn (holding 0x21 (field 3 129 ++ [1, 0x14, 0]) sold).gate .command ∧
        Turn (holding 0x24 (field 3 129 ++ [2, 1, 0x14, 0]) sold).gate .command ∧
        Turn (holding 0x25 (field 3 129 ++ [1, 1, 0x14, 0]) sold).gate .command) :=
  ⟨begins_sold _ _ (by decide +kernel) (by decide +kernel), begins_sold _ _ (by decide +kernel) (by decide +kernel),
    begins_sold _ _ (by decide +kernel) (by decide +kernel), sold_loaded, by decide +kernel⟩

theorem witness_PutDropBarAndUnbar :
    let put := request 0x22 (field 3 129 ++ [0, 0, 12, 1, 1, 0x14, 0])
    Begins (holding 0x22 (field 3 129 ++ [0, 0, 12, 1, 1, 0x14, 0]) sold).gate put ∧
      Begins (holding 0x23 (field 3 129) sold).gate (request 0x23 (field 3 129)) ∧
      Begins (holding 0x26 (field 3 129) sold).gate (request 0x26 (field 3 129)) ∧
      Begins (holding 0x27 (field 3 129) sold).gate (request 0x27 (field 3 129)) ∧
      (put.length = 8 + 2 * (byteAt put.body 7).toNat ∧ (0 : ZoneIndex).val = (byteAt put.body 3).toNat ∧
        (byteAt put.body 6).toNat ≤ 1 ∧ numbersAt put.body 8 1 = [5120] ∧
        findHolder 129 sold.gate = some (516, holder 129) ∧ (holder 129).barred = false ∧
        findHolder 129 (withHolder { holder 129 with barred := true } sold).gate
          = some (516, { holder 129 with barred := true }) ∧
        Turn (holding 0x22 (field 3 129 ++ [0, 0, 12, 1, 1, 0x14, 0]) sold).gate .command ∧
        ∀ code ∈ [(0x23 : Byte), 0x26, 0x27], Turn (holding code (field 3 129) sold).gate .command) :=
  ⟨begins_sold _ _ (by decide +kernel) (by decide +kernel), begins_sold _ _ (by decide +kernel) (by decide +kernel),
    begins_sold _ _ (by decide +kernel) (by decide +kernel), begins_sold _ _ (by decide +kernel) (by decide +kernel),
    by decide +kernel⟩

/-! ## Witnesses: settings, counters, image, restart -/

theorem witness_SettingCommandsReplaceTheirSettings :
    let zone := request 0x30 [0, 2, 0, 1]
    let map := request 0x32 [2, 9, 6, 30, 10, 5, 0]
    let timing := request 0x33 [0x27, 0x10, 0x75, 0x30, 30, 0, 255, 1, 1]
    Begins (holding 0x30 [0, 2, 0, 1] (running 0)).gate zone ∧
      Begins (holding 0x31 (List.replicate 12 1) (running 0)).gate (request 0x31 (List.replicate 12 1)) ∧
      Begins (holding 0x32 [2, 9, 6, 30, 10, 5, 0] (running 0)).gate map ∧
      Begins (holding 0x33 [0x27, 0x10, 0x75, 0x30, 30, 0, 255, 1, 1] (running 0)).gate timing ∧
      (zone.length = 4 ∧ (byteAt zone.body 0).toNat ≤ 0 ∧ (byteAt zone.body 3).toNat ≤ 1 ∧
        ¬ (byteAt [1, 2, 0, 1] 0).toNat ≤ 0 ∧ ¬ (byteAt [0, 2, 0, 2] 3).toNat ≤ 1 ∧ (request 0x30 []).length ≠ 4) ∧
      ((request 0x31 (List.replicate 12 1)).length = 12 ∧ (∀ b ∈ List.replicate 12 (1 : Byte), b.toNat ≤ 1) ∧
        ¬ (byteAt (List.replicate 12 2) 11).toNat ≤ 1 ∧ (request 0x31 []).length ≠ 12) ∧
      (map.length = 1 + 3 * (byteAt map.body 0).toNat ∧ [(9 : Byte), 10].Nodup ∧ ¬ [(9 : Byte), 9].Nodup ∧
        ¬ (byteAt [1, 9, 8, 0] 2).toNat ≤ 7 ∧ ¬ 1 ≤ (byteAt [1, 9, 6, 0] 3).toNat ∧ (request 0x32 []).length = 0 ∧
        16 < (byteAt [17] 0).toNat) ∧
      (timing.length = 9 ∧ (halfAt timing.body 0).toNat = 10000 ∧ (halfAt timing.body 2).toNat = 30000 ∧
        (byteAt timing.body 4).toNat = 30 ∧ (halfAt [0x27, 0x11] 0).toNat = 10001 ∧ (request 0x33 []).length ≠ 9) :=
  ⟨begins_running _ _ (by decide +kernel) (by decide +kernel), begins_running _ _ (by decide +kernel) (by decide +kernel),
    begins_running _ _ (by decide +kernel) (by decide +kernel), begins_running _ _ (by decide +kernel) (by decide +kernel),
    by decide +kernel⟩

/-- SET_TIMING with an open lead of 10,000 ms: the pending sheet's entries are offered at once where its new instant is
reached, on the zones not blacked out. -/
theorem witness_SettingCommandsReplaceTheirSettings_offers :
    let timing := holding 0x33 [0x27, 0x10, 0x75, 0x30, 30, 0, 255, 1, 1] (atTime 8055000 (withEvent
      { previewEvent with
        openLead := some 8058000, pendingSheet := some (sheet 9 8060000 .openClass false) } (running 1)))
    let t := after .setTiming timing
    ((timing.gate.event 0).openLead ≠ none ∧ Reached timing.gate 8050000 ∧ unblacked timing.gate 0 0 ∧
      ¬ unblacked timing.gate 0 1) ∧
    ((t.gate.event 0).openLead = none ∧ (t.gate.event 0).pendingSheet = some (sheet 9 8060000 .openClass true) ∧
      (t.gate.zone 0).fresh = [openEntry 0 9] ∧ t.gate.zone 1 = timing.gate.zone 1) := by
  decide +kernel

theorem witness_OffersNow :
    OffersNow (atTime 8055000 (withEvent
      { previewEvent with
        openLead := some 8058000, pendingSheet := some (sheet 9 8060000 .openClass false) } (running 1))).gate 10000 0
      (sheet 9 8060000 .openClass false) :=
  ⟨by decide +kernel, by decide +kernel, by decide +kernel⟩

theorem witness_ReadCountersReturnsAndClears :
    Begins (holding 0x34 [2, 23, 1] (running 0)).gate (request 0x34 [2, 23, 1]) ∧
      ((request 0x34 [2, 23, 1]).length = 3 ∧ (byteAt [2, 23, 1] 0).toNat = 2 ∧ (23 : EventIndex).val = (byteAt [2, 23, 1] 1).toNat ∧
        (byteAt [1, 0, 0] 1).toNat ≤ (running 0).gate.loader.zoneStraps.toNat ∧
        (0 : ZoneIndex).val = (byteAt [1, 0, 0] 1).toNat ∧ (byteAt [0, 0, 0] 0).toNat = 0 ∧
        ¬ (byteAt [3, 0, 0] 0).toNat ≤ 2 ∧ ¬ (byteAt [2, 24, 0] 1).toNat ≤ 23 ∧ (request 0x34 []).length ≠ 3) :=
  ⟨begins_running _ _ (by decide +kernel) (by decide +kernel), by decide +kernel⟩

/-- An EEPROM that holds the image of the built-in settings, saved whole. -/
def savedEeprom : List Host.Cell :=
  Memory.write (Memory.writeAll [] 1 (imageSaved (running 0).gate)) 0 0xA5

/-- A part at its image load with an EEPROM. -/
def loadingFrom (eeprom : List Host.Cell) : State :=
  { State.reset with gate := { State.reset.gate with
    loader := { State.reset.gate.loader with eeprom := eeprom } } }

theorem witness_ImageLoadEndTakesOrDefaults :
    (loadingFrom savedEeprom).gate.loader.loading = true ∧
      (byteAt (imageOf savedEeprom) 0 = 0xA5 ∧ SumGood (imageOf savedEeprom) ∧
        imageFailure (imageOf savedEeprom) 88 = none) ∧
      byteAt (imageOf []) 0 ≠ 0xA5 ∧
      (byteAt (imageOf (Memory.write savedEeprom 2 7)) 0 = 0xA5 ∧ ¬ SumGood (imageOf (Memory.write savedEeprom 2 7))) := by
  unfold SumGood
  decide +kernel

/-- The same image with a repeat interval of 0, out of range, and its sum still good. -/
def unfitEeprom : List Host.Cell :=
  Memory.write (Memory.write savedEeprom 75 0) 78 65

theorem witness_out_of_range_image : SumGood (imageOf unfitEeprom) ∧ ¬ ImageInRange (imageOf unfitEeprom) :=
  ⟨by unfold SumGood; decide +kernel, fun range => absurd range.2.2.2.2.2.2.2.2.1 (by decide +kernel)⟩

theorem witness_ImageInRange : ImageInRange (imageOf savedEeprom) := by
  unfold ImageInRange
  decide +kernel

theorem witness_SaveImageWritesTheImage :
    let saving := after .saveImage (holding 0x35 [] (running 0))
    Begins (holding 0x35 [] (running 0)).gate (request 0x35 []) ∧
      ((request 0x35 []).length = 0 ∧ (request 0x35 [0]).length ≠ 0 ∧
        saving.gate.command.work = .saving 1 (imageSaved (running 0).gate) ∧
        (imageSaved (running 0).gate).length = 87) :=
  ⟨begins_running _ _ (by decide +kernel) (by decide +kernel), by decide +kernel⟩

theorem witness_SavedImageReadsBack : SettingsOk invariantState.gate :=
  witness_EveryStepKeepsTheEepromAndTheSettings.2

theorem witness_PowerOnAndRestarts :
    let restarting := after .restart (holding 0x36 [] (running 0))
    Begins (holding 0x36 [] (running 0)).gate (request 0x36 []) ∧
      ((request 0x36 []).length = 0 ∧ (request 0x36 [0]).length ≠ 0 ∧
        (after .returnSlot restarting).gate.command.work = .restarting ∧
        (after .returnSlot restarting).gate.command.replies = [] ∧ (running 0).gate.loader.loading = false ∧
        (running 0).gate.command.work = .ready) :=
  ⟨begins_running _ _ (by decide +kernel) (by decide +kernel), by decide +kernel⟩

theorem witness_PowerOnAndRestarts_reforms :
    let s := atTime 8060000 (withEvent { event .preview with
      current := some (sheet 8 8000000 .noClass false), pendingSheet := some (sheet 9 8060000 .openClass true), mask := 2 }
      (running 1))
    let t := after .restartLine s
    let swept := after .restartLine (atTime 8060000 (withEvent liveEvent (running 0)))
    let late := sweptAgain (running 0).gate .current (sheet 100 8000000 .listedClass false)
    (OfferedAgain s.gate (openEntry 0 8) 0 ∧ OfferedAgain s.gate (openEntry 0 9) 0) ∧
    ((t.gate.zone 0).fresh = [openEntry 0 8, openEntry 0 9] ∧ (t.gate.zone 1).fresh = [] ∧
      (t.gate.event 0).openRepeat = some 8065000 ∧ zoneCounter t.gate 0 .entriesQueued = 2) ∧
    (swept.gate.leg 0 .current = some { late with late := true, deadline := none } ∧
      swept.gate.leg 0 .pending = some (sweptAgain (running 0).gate .pending (sheet 101 8060000 .listedClass false)) ∧
      eventCount swept.gate 0 .legsJoined = 2 ∧ eventCount swept.gate 0 .lateLegs = 1 ∧
      swept.gate.command.status.map Item.kind = [.restarted, .legLate]) := by
  refine ⟨⟨⟨0, _, by decide +kernel, by decide +kernel, .inl rfl, rfl⟩,
    ⟨0, _, by decide +kernel, by decide +kernel, .inr ⟨rfl, rfl, rfl⟩, rfl⟩⟩, by decide +kernel, ?_⟩
  decide +kernel

/-! ## Witnesses: input and zone outputs -/

/-- The part with a sync state and runs. -/
def synced (sync : Sync) (good : Fin 5) (bad : Fin 4) (nominal : Bool) : State :=
  { running 0 with gate := { (running 0).gate with
    intake := { Intake.powerOn with sync := sync, goodRun := good, badRun := bad, nominalTiming := nominal } } }

theorem witness_InputCellsLockAndLose :
    let bad := idleCell.set 4 0
    let reserved := headerOf 0x10 4095 0 ++ List.replicate 235 0
    State.reset.gate.loader.loading = true ∧ (running 0).gate.loader.loading = false ∧
      (synced .lost 0 3 true).gate.intake.nominalTiming = true ∧ (running 0).gate.intake.nominalTiming = false ∧
      (synced .searching 2 0 true).gate.intake.sync ≠ .locked ∧
      (byteAt idleCell 0 = 0x5C ∧ byteSum (idleCell.take 5) % 256 = 0 ∧ ¬ byteSum (bad.take 5) % 256 = 0) ∧
      ((3 : Fin 5).val = (synced .searching 2 0 true).gate.intake.goodRun.val + 1 ∧ (3 : Fin 5).val < 4 ∧
        3 ≤ (synced .lost 3 0 true).gate.intake.goodRun.val) ∧
      ((synced .locked 4 1 false).gate.intake.sync = .locked ∧
        (2 : Fin 4).val = (synced .locked 4 1 false).gate.intake.badRun.val + 1 ∧ (2 : Fin 4).val < 3 ∧
        2 ≤ (synced .locked 4 2 false).gate.intake.badRun.val ∧ byteAt (0 :: idleCell.tail) 0 ≠ 0x5C) ∧
      (byteAt bad 0 = 0x5C ∧ ¬ (byteSum (bad.take 5) % 256 = 0 ∧ byteAt bad 1 &&& 0x70 = 0) ∧
        byteAt reserved 0 = 0x5C ∧ byteSum (reserved.take 5) % 256 = 0 ∧ ¬ byteAt reserved 1 &&& 0x70 = 0) := by
  decide +kernel

/-- A cell on a lane, scrambled or clear. -/
def cellOn (lane : Lane) (flag : Byte) : List Byte :=
  headerOf flag lane 0 ++ List.replicate 235 0

/-- The part with the event in a phase, its alternate lane 220, and lane 200 its content. -/
def laned (ev : Event) : State :=
  { withEvent { ev with alternateLane := some 220 } (running 0) with
    gate := { (withEvent { ev with alternateLane := some 220 } (running 0)).gate with
      lanes := [(200, .content 0), (210, .key 0), (220, .alternate 0)] } }

theorem witness_InputCellsAreDispatchedByLane :
    let s := laned (event .live)
    (s.gate.loader.loading = false ∧ s.gate.intake.sync = .locked ∧ s.gate.intake.handoff = none ∧
      HeaderGood (cellOn 200 0x80)) ∧
    (laneNumber (cellOn 4092 0) = 4092 ∧ laneNumber (cellOn 4095 0) = 4095 ∧ laneNumber (cellOn 4080 0) = 4080 ∧
      BodyGood idleCell ∧ ¬ BodyGood ((idleCell.take 239) ++ [1])) ∧
    (s.gate.laneKind (laneNumber (cellOn 210 0)) = .key 0 ∧ s.gate.laneKind (laneNumber (cellOn 300 0)) = .free ∧
      s.gate.laneKind (laneNumber (cellOn 200 0x80)) = .content 0 ∧
      s.gate.laneKind (laneNumber (cellOn 220 0)) = .alternate 0) ∧
    (s.gate.driven 0 = true ∧ s.gate.driven 1 = false ∧ (s.gate.zone 0).dark = false ∧
      s.gate.settings.profile.live.pass = true ∧ (s.gate.event 0).mask.getLsbD 0 = false ∧
      ((laned { event .live with mask := 1 }).gate.event 0).mask.getLsbD 0 = true ∧
      (byteAt (cellOn 200 0) 1).getLsbD 7 = false ∧ (byteAt (cellOn 200 0x80) 1).getLsbD 7 = true) := by
  unfold HeaderGood BodyGood
  decide +kernel

theorem witness_InputCellsAreDispatchedByLane_waiting :
    let s := withHandoff (.cue (cueCellOf 42 5)) (laned (event .live))
    let received : State := { s with gate := { bump .cellsReceived s.gate with
      intake := { s.gate.intake with badRun := 0 } } }
    let t := after (.inputCell (.arrives (cellOn 200 0x80) 0)) s
    (LookedUp s (after .cueCell received) ∧ LookedUp (running 0) { running 0 with
      gate := { bump .cellsReceived (running 0).gate with intake := { (running 0).gate.intake with badRun := 0 } } }) ∧
    (((after .cueCell received).gate.event 0).phase = .closed ∧ zoneCounter t.gate 0 .cellsBlanked = 1 ∧
      zoneCounter t.gate 0 .idleCellsSent = 1 ∧ (t.gate.zone 0).port = some idleCell) :=
  ⟨⟨.inr ⟨_, rfl, rfl⟩, .inl ⟨rfl, rfl⟩⟩, by decide +kernel⟩

theorem witness_InputCellsAreDispatchedByLane_slots :
    (divided.gate.driven 1 = true ∧
      (divided.gate.zone 1).slot = some (.content 0 (headerOf 0x80 200 0 ++ List.replicate 235 0)) ∧
      (2 : BitVec 4).getLsbD 0 = false ∧ (2 : BitVec 4).getLsbD 1 = true) ∧
    (let leak := takeSlot (.content 0 (cellOn 200 0)) 0 (laned (event .live)).gate;
      zoneCounter leak 0 .clearLeakBlanks = 1 ∧ (leak.zone 0).port = some idleCell) ∧
    (let shown := takeSlot (.alternate 0 (cellOn 220 0)) 0 (laned { event .live with mask := 1 }).gate;
      zoneCounter shown 0 .substitutesSent = 1 ∧ (shown.zone 0).port = some (cellOn 200 0)) := by decide +kernel

theorem witness_HoldMessagesReplaceTheHoldCount :
    (running 0).gate.driven 0 = true ∧ (running 0).gate.driven 1 = false ∧
      (∃ t, exec (.powerOn 0 0 none) (running 0) = .next t) ∧ (running 0).gate.loader.loading = false ∧
      (∃ t, exec .restartLine (running 0) = .next t) :=
  ⟨by decide +kernel, by decide +kernel, ⟨_, rfl⟩, by decide +kernel, ⟨_, rfl⟩⟩

theorem witness_IdleOpportunityAndArbiter :
    let ready := fun (turn : Fin 8) (fresh : List FreshEntry) (sweep : List Notice) =>
      (withZone 0 (fun zone => { zone with credit := 64, turn := turn, fresh := fresh, sweep := sweep })
        (running 0)).gate.zone 0
    let listed := listedEntry 129 0 100
    ((withZone 0 (fun zone => { zone with hold := 1 }) (running 0)).gate.zone 0).hold ≠ 0 ∧
      (ready 0 [] []).hold = 0 ∧ 256 ≤ min ((ready 0 [] []).credit.val + (ready 0 [] []).share.toNat) 1023 ∧
      (ready 7 [listed] [otherCell]).turn.val = 7 ∧ (ready 6 [] [otherCell]).fresh = [] ∧
      (ready 7 [listed] [otherCell]).sweep ≠ [] ∧ (ready 6 [openEntry 0 9] [otherCell]).turn.val ≠ 7 ∧
      (openEntry 0 9).form = .openAll ∧ listed.form = .listed ∧ (1 : ZoneIndex) ≠ 0 := by decide +kernel

theorem witness_IdleOpportunityAndArbiter_notices :
    let sent := fun entry => (idleOpportunity 0 (withZone 0 (fun zone => { zone with
      credit := 64, fresh := [entry, listedEntry 7 0 100, listedEntry 8 0 9] }) (swept firstLeg)).gate).zone 0
    let told := fun (form : Byte) (entries : List Byte) => controlCell 4091 0
      ([form, 0, 0x14, 0] ++ field 4 100 ++ field 6 8000000 ++ List.replicate 72 0 ++ entries)
    HeldMaterial ((swept firstLeg).gate.event 0) 100 8000000 [] ∧
    ((sent (openEntry 0 100)).port = some (told 2 (1 :: field 3 16777215)) ∧
      (sent (openEntry 0 100)).fresh = [listedEntry 7 0 100, listedEntry 8 0 9]) ∧
    ((sent (listedEntry 129 0 100)).port = some (told 1 ([2] ++ field 3 129 ++ field 3 7)) ∧
      (sent (listedEntry 129 0 100)).fresh = [listedEntry 8 0 9]) := by
  refine ⟨⟨fun held at_ _ => ?_, fun held at_ _ => ?_⟩, by decide +kernel, by decide +kernel⟩
  · obtain rfl := Option.some.inj at_
    exact ⟨rfl, rfl⟩
  · cases at_

end Sys2Proof.Tests
end

