-- ==== Sys2Proof/Proofs/SiteClock.lean ====
section
/-! PROOF. A time cell taken while SET (R20–R22): what the correction and the judgement of an offset do to the Site Clock,
which counters it raises, which item it posts, and the statement LaterTimeCellCorrectsTheClock built from these. -/

namespace Sys2Proof.Machine

open Sys2Proof.Safety Sys2Proof.Claims

/-! ## Part-level counters -/

/-- Table 78 gives every part-level counter its own position: the order in which the counters are declared. -/
theorem PartCounter.pos_injective : Function.Injective PartCounter.pos := by
  have pos_eq : ∀ k : PartCounter, k.pos.val = k.ctorIdx := fun k => by cases k <;> rfl
  intro j k same
  have index : j.ctorIdx = k.ctorIdx := by rw [← pos_eq, ← pos_eq, same]
  rw [← PartCounter.ofNat_ctorIdx j, index, PartCounter.ofNat_ctorIdx]

theorem partCount_bump (j k : PartCounter) (g : Gate) :
    partCount (bump j g) k = if k = j then countUp (partCount g k) 1 else partCount g k := by
  by_cases h : k = j
  · subst h
    simp [partCount, bump]
  · have apart : (j.pos : Nat) ≠ k.pos := fun same => h (PartCounter.pos_injective (Fin.ext same)).symm
    simp [partCount, bump, h, Vector.getElem_set_ne, apart]

/-! ## The correction (R20, R21) -/

theorem laterTime_toNat (t : Time) (ms : Nat) :
    (laterTime t ms).toNat = min (t.toNat + ms) 281474976710655 := by
  unfold laterTime
  rw [BitVec.toNat_ofNat]
  omega

@[simp] theorem Clock.correct_isSet (d : Int) (clock : Clock) : (clock.correct d).isSet = clock.isSet := by
  unfold Clock.correct; split <;> rfl
@[simp] theorem Clock.correct_largeRun (d : Int) (clock : Clock) : (clock.correct d).largeRun = clock.largeRun := by
  unfold Clock.correct; split <;> rfl
@[simp] theorem Clock.correct_fault (d : Int) (clock : Clock) : (clock.correct d).fault = clock.fault := by
  unfold Clock.correct; split <;> rfl

/-- R20: only an offset above 0 moves site time. An offset of 0 steps it by 0, which the limit of site time leaves as
it is. -/
theorem Clock.correct_siteTime_toNat (d : Int) (clock : Clock) :
    (clock.correct d).siteTime.toNat
      = if 0 < d then min (clock.siteTime.toNat + min d.natAbs 10) 281474976710655 else clock.siteTime.toNat := by
  have limit := clock.siteTime.isLt
  unfold Clock.correct
  split
  · rw [if_neg (by omega)]
  · change (laterTime clock.siteTime (min d.natAbs 10)).toNat = _
    rw [laterTime_toNat]
    split <;> omega

theorem Clock.correct_withhold_val (d : Int) (clock : Clock) :
    (clock.correct d).withhold.val = if d < 0 then max clock.withhold.val (min d.natAbs 10) else 0 := by
  have limit := clock.withhold.isLt
  unfold Clock.correct
  split
  · change max clock.withhold.val (min d.natAbs 10) % 11 = _
    omega
  · rfl

/-! ## The large-offset run and the fault flag (R22) -/

@[simp] theorem Clock.judge_siteTime (d : Int) (clock : Clock) : (clock.judge d).siteTime = clock.siteTime := by
  unfold Clock.judge; split <;> rfl
@[simp] theorem Clock.judge_isSet (d : Int) (clock : Clock) : (clock.judge d).isSet = clock.isSet := by
  unfold Clock.judge; split <;> rfl
@[simp] theorem Clock.judge_withhold (d : Int) (clock : Clock) : (clock.judge d).withhold = clock.withhold := by
  unfold Clock.judge; split <;> rfl

theorem Clock.judge_largeRun_val (d : Int) (clock : Clock) :
    (clock.judge d).largeRun.val = if 10 < d.natAbs then min (clock.largeRun.val + 1) 8 else 0 := by
  unfold Clock.judge
  split
  · change min (clock.largeRun.val + 1) 8 % 9 = _
    omega
  · rfl

theorem Clock.judge_fault (d : Int) (clock : Clock) :
    (clock.judge d).fault
      = if 10 < d.natAbs then clock.fault || decide (8 ≤ clock.largeRun.val + 1) else false := by
  unfold Clock.judge; split <;> rfl

/-! ## The counters and the item of a time cell (R20–R22) -/

theorem countOffset_eq (d : Int) (g : Gate) :
    countOffset d g = { g with counters := (countOffset d g).counters } := by
  unfold countOffset
  rcases lt_trichotomy 0 d with forward | still | backward
  · simp only [if_pos forward]
    split <;> rfl
  · subst still
    rfl
  · simp only [if_neg (not_lt.2 backward.le), if_pos backward]
    split <;> rfl

/-- Each of the three counters of an offset rises in the case that names it, and no other counter rises. -/
theorem partCount_countOffset (d : Int) (k : PartCounter) (g : Gate) :
    partCount (countOffset d g) k
      = if (k = .forwardCorrections ∧ 0 < d) ∨ (k = .backwardCorrections ∧ d < 0) ∨
          (k = .largeOffsets ∧ 10 < d.natAbs)
        then countUp (partCount g k) 1 else partCount g k := by
  unfold countOffset
  rcases lt_trichotomy 0 d with forward | still | backward
  · simp only [if_pos forward]
    grind [partCount_bump]
  · subst still
    simp
  · simp only [if_neg (not_lt.2 backward.le), if_pos backward]
    grind [partCount_bump]

/-- R22, R25: TIME FAULT or TIME CLEAR is posted where the flag is no longer what it was, and nothing else changes. -/
theorem postFault_eq (was : Bool) (g : Gate) :
    postFault was g = { g with
      command := { g.command with
        status :=
          if g.clock.fault = was then g.command.status
          else insertItem
            { kind := .time
              object := 0xFF
              detail := (if g.clock.fault then 0x02 else 0x03) :: field 5 g.clock.siteTime.toNat }
            g.command.status } } := by
  unfold postFault
  split
  · rfl
  · cases g.clock.fault <;> rfl

/-! ## TIME_CELL -/

theorem exec_timeCell_handed {s : State} {cell : List Byte} (h : handed s (.time cell)) :
    exec .timeCell s = .next { s with gate := takeTime cell (clearHandoff s.gate) } := by
  have taken : timeCell s.gate = takeTime cell (clearHandoff s.gate) := by simp [timeCell, h]
  rw [← taken]
  rfl

/-- The Site Clock after a time cell with offset d taken while SET. -/
def Clock.taken (d : Int) (clock : Clock) : Clock :=
  (clock.correct d).judge d

@[simp] theorem Clock.taken_isSet (d : Int) (clock : Clock) : (clock.taken d).isSet = clock.isSet := by
  simp [Clock.taken]

theorem Clock.taken_siteTime_toNat (d : Int) (clock : Clock) :
    (clock.taken d).siteTime.toNat
      = if 0 < d then min (clock.siteTime.toNat + min d.natAbs 10) 281474976710655 else clock.siteTime.toNat := by
  rw [Clock.taken, Clock.judge_siteTime, Clock.correct_siteTime_toNat]

theorem Clock.taken_withhold_val (d : Int) (clock : Clock) :
    (clock.taken d).withhold.val = if d < 0 then max clock.withhold.val (min d.natAbs 10) else 0 := by
  rw [Clock.taken, Clock.judge_withhold, Clock.correct_withhold_val]

theorem Clock.taken_largeRun_val (d : Int) (clock : Clock) :
    (clock.taken d).largeRun.val = if 10 < d.natAbs then min (clock.largeRun.val + 1) 8 else 0 := by
  rw [Clock.taken, Clock.judge_largeRun_val, Clock.correct_largeRun]

theorem Clock.taken_fault (d : Int) (clock : Clock) :
    (clock.taken d).fault
      = if 10 < d.natAbs then clock.fault || decide (8 ≤ clock.largeRun.val + 1) else false := by
  rw [Clock.taken, Clock.judge_fault, Clock.correct_fault, Clock.correct_largeRun]

/-- R20–R22 taken together: a time cell taken while SET changes the clock, the counters and the pending status set. -/
theorem takeTime_of_isSet (cell : List Byte) {g : Gate} (isSet : g.clock.isSet = true) :
    let d := g.clock.offset (timeAt cell 5)
    let clock := g.clock.taken d
    takeTime cell g = { g with
      clock := clock
      counters := (countOffset d { bump .timeCellsTaken g with clock := clock }).counters
      command := { g.command with
        status :=
          if clock.fault = g.clock.fault then g.command.status
          else insertItem
            { kind := .time
              object := 0xFF
              detail := (if clock.fault then 0x02 else 0x03) :: field 5 clock.siteTime.toNat }
            g.command.status } } := by
  intro d clock
  have taken : takeTime cell g
      = postFault g.clock.fault (countOffset d { bump .timeCellsTaken g with clock := clock }) := by
    simp [takeTime, isSet, d, clock, Clock.taken]
  rw [taken, postFault_eq, countOffset_eq]
  rfl

/-- The cell itself counts once, beside the counters of its offset. -/
theorem partCount_timeCell (d : Int) (clock : Clock) (k : PartCounter) (g : Gate) :
    partCount (countOffset d { bump .timeCellsTaken g with clock := clock }) k
      = if k = .timeCellsTaken ∨ (k = .forwardCorrections ∧ 0 < d) ∨ (k = .backwardCorrections ∧ d < 0) ∨
          (k = .largeOffsets ∧ 10 < d.natAbs)
        then countUp (partCount g k) 1 else partCount g k := by
  rw [partCount_countOffset]
  change (if _ then countUp (partCount (bump .timeCellsTaken g) k) 1 else partCount (bump .timeCellsTaken g) k) = _
  rw [partCount_bump]
  by_cases cellCount : k = .timeCellsTaken
  · subst cellCount
    simp
  · simp [cellCount]

end Sys2Proof.Machine

namespace Sys2Proof.Proofs

open Sys2Proof.Machine Sys2Proof.Safety Sys2Proof.Claims

/-- Settles O15: the clock is corrected by the offset and then judged by it, and each clause reads off one of the two
(R20–R22). -/
theorem laterTimeCellCorrectsTheClock : Obligations.LaterTimeCellCorrectsTheClock := by
  unfold Obligations.LaterTimeCellCorrectsTheClock
  intro s cell handedOver isSet clock d
  have isSet' : (clearHandoff s.gate).clock.isSet = true := isSet
  rw [exec_timeCell_handed handedOver, takeTime_of_isSet cell isSet']
  refine ⟨_, rfl, rfl, rfl, ?isSet, ?siteTime, ?withhold, ?largeRun, ?fault, rfl, ?counters⟩
  case isSet => exact (clock.taken_isSet d).trans isSet
  case siteTime => exact clock.taken_siteTime_toNat d
  case withhold => exact clock.taken_withhold_val d
  case largeRun => exact clock.taken_largeRun_val d
  case fault => exact clock.taken_fault d
  case counters => exact fun k => partCount_timeCell d (clock.taken d) k (clearHandoff s.gate)

end Sys2Proof.Proofs
end

