-- ==== Sys2Proof/Proofs/CueUnit.lean ====
section
/-! PROOF. The Cue Unit (R28–R30): what the look-up of an event and of a cue code find, what CUE_CELL does in each of its
cases, and the statement CueCellOutcomes built from these. -/

namespace Sys2Proof.Machine

open Sys2Proof.Safety Sys2Proof.Claims

/-! ## The look-ups (R26, R28) -/

theorem mem_allEvents (e : EventIndex) : e ∈ allEvents := by
  revert e
  decide

theorem findEvent_eq_none_iff (g : Gate) (number : Half) : g.findEvent number = none ↔ ¬ Carried g number := by
  simp [Gate.findEvent, Carried, List.find?_eq_none, mem_allEvents]

theorem findEvent_some {g : Gate} {number : Half} {e : EventIndex} (found : g.findEvent number = some e) :
    occupied g e ∧ (g.event e).number = number := by
  simpa using List.find?_some found

theorem cueEntry_eq_none_iff (g : Gate) (code : Byte) :
    g.cueEntry code = none ↔ ∀ entry ∈ g.settings.cueMap, entry.code ≠ code := by
  simp [Gate.cueEntry, List.find?_eq_none]

theorem cueEntry_some {g : Gate} {code : Byte} {entry : CueEntry} (found : g.cueEntry code = some entry) :
    entry ∈ g.settings.cueMap ∧ entry.code = code :=
  ⟨List.mem_of_find?_eq_some found, by simpa using List.find?_some found⟩

/-! ## CUE_CELL, case by case (R28–R30) -/

theorem exec_cueCell_handed {s : State} {cell : List Byte} (h : handed s (.cue cell)) :
    exec .cueCell s = .next { s with gate := takeCue cell (clearHandoff s.gate) } := by
  have taken : cueCell s.gate = takeCue cell (clearHandoff s.gate) := by simp [cueCell, h]
  rw [← taken]
  rfl

section TakeCue

variable {cell : List Byte} {g : Gate} {e : EventIndex} {entry : CueEntry}

theorem takeCue_stray (stray : g.findEvent (halfAt cell 5) = none) : takeCue cell g = bump .strayCues g := by
  simp [takeCue, stray]

theorem takeCue_unmapped (found : g.findEvent (halfAt cell 5) = some e)
    (unmapped : g.cueEntry (byteAt cell 8) = none) : takeCue cell g = bumpEvent e .unmappedCues g := by
  simp [takeCue, found, unmapped]

theorem takeCue_mapped (found : g.findEvent (halfAt cell 5) = some e)
    (mapped : g.cueEntry (byteAt cell 8) = some entry) : takeCue cell g = takeMapped e entry (byteAt cell 7) g := by
  simp [takeCue, found, mapped]

end TakeCue

section TakeMapped

variable {e : EventIndex} {entry : CueEntry} {sequence : Byte} {g : Gate}

theorem takeMapped_repeat (held : (g.event e).lastCue = some sequence) :
    takeMapped e entry sequence g = bumpEvent e .repeatCues g :=
  if_pos held

theorem takeMapped_fresh (fresh : (g.event e).lastCue ≠ some sequence) :
    takeMapped e entry sequence g
      = applyCue e entry sequence (modEvent e (fun ev => { ev with lastCue := some sequence }) g) :=
  if_neg fresh

theorem applyCue_applied {applied : Gate}
    (allowed : applyTask e entry.task ((entry.minutes.getD 0).toNat) g = some applied) :
    applyCue e entry sequence g = bumpEvent e .appliedCues applied := by
  unfold applyCue
  rw [allowed]

theorem applyCue_rejected (rejected : applyTask e entry.task ((entry.minutes.getD 0).toNat) g = none) :
    applyCue e entry sequence g
      = post .cueRejected (eventObject e)
          [entry.code, sequence, entry.task.number, ((g.event e).judgedPhase entry.task).number, 0, 0]
          (bumpEvent e .rejectedCues g) := by
  unfold applyCue
  rw [rejected]

end TakeMapped

/-- R29: the recording of a sequence changes neither the phase nor the resume phase a task is judged against. -/
theorem judgedPhase_record_sequence (e : EventIndex) (sequence : Byte) (task : PhaseTask) (g : Gate) :
    ((modEvent e (fun ev => { ev with lastCue := some sequence }) g).event e).judgedPhase task
      = (g.event e).judgedPhase task := by
  rw [modEvent_event_same]
  rfl

end Sys2Proof.Machine

namespace Sys2Proof.Proofs

open Sys2Proof.Machine Sys2Proof.Safety Sys2Proof.Claims

/-- Settles O18: the look-ups find what they should, and CUE_CELL follows R28–R30 down its cases. -/
theorem cueCellOutcomes : Obligations.CueCellOutcomes := by
  unfold Obligations.CueCellOutcomes
  refine ⟨fun g number => ⟨findEvent_eq_none_iff g number, fun _ => findEvent_some⟩,
    fun g code => ⟨cueEntry_eq_none_iff g code, fun _ => cueEntry_some⟩, ?_⟩
  intro s cell handedOver g
  have runs : exec .cueCell s = .next { s with gate := takeCue cell g } := exec_cueCell_handed handedOver
  rw [runs]
  refine ⟨fun stray => ?_, fun e found => ⟨fun unmapped => ?_, fun entry mapped => ?_⟩⟩
  · rw [takeCue_stray (g := g) stray]
  · rw [takeCue_unmapped (g := g) found unmapped]
  · rw [takeCue_mapped (g := g) found mapped]
    refine ⟨fun held => ?_, fun fresh => ⟨fun applied allowed => ?_, fun rejected => ?_⟩⟩
    · rw [takeMapped_repeat (g := g) held]
    · rw [takeMapped_fresh (g := g) fresh, applyCue_applied allowed]
    · rw [takeMapped_fresh (g := g) fresh, applyCue_rejected rejected, judgedPhase_record_sequence,
        (cueEntry_some mapped).2]
      rfl

end Sys2Proof.Proofs
end

