-- ==== Sys2Proof/Proofs/SteerRetire.lean ====
section
/-! PROOF. The phase commands STEER_EVENT and RETIRE_EVENT (R51, R55): what a task leaves of an event record
(R38–R50), what each command answers at each of its checks, what RETIRE(e) does to the maintenance list (R87, R92), and
the statement SteerAndRetireEvents built from these. -/

namespace Sys2Proof.Machine

open Sys2Proof.Safety Sys2Proof.Claims

/-! ## What delivery leaves of an event record -/

/-- An event record with everything set aside that delivery writes in one: sheets, open instants and counters. -/
def Event.withoutDelivery (ev : Event) : Event :=
  { ev with
    current := none
    pendingSheet := none
    openLead := none
    openRepeat := none
    counters := Vector.replicate 27 0 }

theorem Event.lastCue_eq_of_withoutDelivery {a b : Event} (same : a.withoutDelivery = b.withoutDelivery) :
    a.lastCue = b.lastCue := by
  change a.withoutDelivery.lastCue = b.withoutDelivery.lastCue
  rw [same]

theorem modEvent_withoutDelivery {f : Event → Event} (keeps : ∀ ev, (f ev).withoutDelivery = ev.withoutDelivery)
    (e i : EventIndex) (g : Gate) :
    ((modEvent e f g).event i).withoutDelivery = (g.event i).withoutDelivery := by
  rw [modEvent_event]
  split
  · subst i
    exact keeps _
  · rfl

@[simp] theorem Event.setSheet_withoutDelivery (slot : SheetSlot) (sheet : Option Sheet) (ev : Event) :
    (Event.setSheet slot sheet ev).withoutDelivery = ev.withoutDelivery := by
  cases slot <;> rfl

@[simp] theorem bumpEvent_withoutDelivery (e i : EventIndex) (k : EventCounter) (g : Gate) :
    ((bumpEvent e k g).event i).withoutDelivery = (g.event i).withoutDelivery :=
  modEvent_withoutDelivery (fun _ => by rfl) e i g

@[simp] theorem makeLate_withoutDelivery (e i : EventIndex) (slot : SheetSlot) (leg : Leg) (g : Gate) :
    ((makeLate e slot leg g).event i).withoutDelivery = (g.event i).withoutDelivery := by
  unfold makeLate
  split
  · exact bumpEvent_withoutDelivery e i .lateLegs _
  · rfl

@[simp] theorem joinLeg_withoutDelivery (e i : EventIndex) (slot : SheetSlot) (g : Gate) :
    ((joinLeg e slot g).event i).withoutDelivery = (g.event i).withoutDelivery := by
  have entered : ∀ leg, ((enterLeg e slot leg g).event i).withoutDelivery = (g.event i).withoutDelivery :=
    fun leg => bumpEvent_withoutDelivery e i .legsJoined _
  unfold joinLeg lateAtJoin
  split
  · dsimp only
    split
    · split
      · rw [makeLate_withoutDelivery, entered]
      · exact entered _
    · exact entered _
  · rfl

@[simp] theorem openOffer_withoutDelivery (e i : EventIndex) (slot : SheetSlot) (g : Gate) :
    ((openOffer e slot g).event i).withoutDelivery = (g.event i).withoutDelivery := by
  cases held : g.sheet e slot with
  | none => rw [openOffer_none held]
  | some sheet =>
    rw [openOffer_eq held, modEvent_withoutDelivery (Event.setSheet_withoutDelivery slot _), onZones_event]

@[simp] theorem setOpenLead_withoutDelivery (e i : EventIndex) (g : Gate) :
    ((setOpenLead e g).event i).withoutDelivery = (g.event i).withoutDelivery := by
  unfold setOpenLead
  split
  · rfl
  · dsimp only
    split
    · rw [openOffer_withoutDelivery]
      exact modEvent_withoutDelivery (fun _ => by rfl) e i g
    · exact modEvent_withoutDelivery (fun _ => by rfl) e i g

@[simp] theorem classPendingOpen_withoutDelivery (e i : EventIndex) (g : Gate) :
    ((classPendingOpen e g).event i).withoutDelivery = (g.event i).withoutDelivery := by
  unfold classPendingOpen
  split
  · rfl
  · exact modEvent_withoutDelivery (Event.setSheet_withoutDelivery .pending _) e i g

@[simp] theorem judgePending_withoutDelivery (e i : EventIndex) (g : Gate) :
    ((judgePending e g).event i).withoutDelivery = (g.event i).withoutDelivery := by
  unfold judgePending
  split
  · rfl
  · split
    · exact bumpEvent_withoutDelivery e i .previewTails g
    · split
      · exact modEvent_withoutDelivery (fun _ => by rfl) e i g
      · rfl

@[simp] theorem enterListed_withoutDelivery (e i : EventIndex) (g : Gate) :
    ((enterListed e g).event i).withoutDelivery = (g.event i).withoutDelivery := by
  simp [enterListed]

@[simp] theorem enterOpen_withoutDelivery (e i : EventIndex) (g : Gate) :
    ((enterOpen e g).event i).withoutDelivery = (g.event i).withoutDelivery := by
  have again : ∀ h : Gate, ((setOpenRepeat e h).event i).withoutDelivery = (h.event i).withoutDelivery :=
    fun h => modEvent_withoutDelivery (fun _ => by rfl) e i h
  simp [enterOpen, again]

@[simp] theorem purgeFreshAll_event (p : FreshEntry → Bool) (g : Gate) (i : EventIndex) :
    (purgeFreshAll p g).event i = g.event i := by
  simp [purgeFreshAll, allZones, purgeFresh]

@[simp] theorem purgeSweepAll_event (p : Notice → Bool) (g : Gate) (i : EventIndex) :
    (purgeSweepAll p g).event i = g.event i := by
  simp [purgeSweepAll, allZones, purgeSweep]

@[simp] theorem removeSweep_event (e i : EventIndex) (g : Gate) : (removeSweep e g).event i = g.event i := by
  unfold removeSweep afterFirstLap
  dsimp only
  split <;> rfl

/-- R47: the entry into a NONE phase takes back legs and queued work, and writes no event record. -/
@[simp] theorem enterNone_event (e i : EventIndex) (g : Gate) : (enterNone e g).event i = g.event i := by
  simp [enterNone]

/-- Table 34: of an event record the entry actions write sheets, open instants and counters at most. -/
theorem entryActions_withoutDelivery (e i : EventIndex) (left entered : GrantMode) (g : Gate) :
    ((entryActions e left entered g).event i).withoutDelivery = (g.event i).withoutDelivery := by
  cases left <;> cases entered <;> simp [entryActions]

/-! ## What a task leaves of an event record (R38–R50) -/

theorem changePhase_lastCue (e : EventIndex) (p : Phase) (g : Gate) :
    ((changePhase e p g).event e).lastCue = (g.event e).lastCue := by
  have stamped (now : Time) (ev : Event) :
      (Event.startStarvation now (Event.stamp p now ev.leavePreview)).lastCue = ev.lastCue := by
    unfold Event.startStarvation Event.leavePreview
    split <;> split <;> rfl
  have renewed (left : Phase) (now : Time) (ev : Event) : (Event.renewDeadline left now ev).lastCue = ev.lastCue := by
    unfold Event.renewDeadline
    split <;> rfl
  unfold changePhase postPhase
  rw [post_event, modEvent_event_same, renewed,
    Event.lastCue_eq_of_withoutDelivery (entryActions_withoutDelivery e e _ p.mode _), modEvent_event_same, stamped]

theorem dropStart_lastCue (task : PhaseTask) (e : EventIndex) (g : Gate) :
    ((dropStart task e g).event e).lastCue = (g.event e).lastCue := by
  unfold dropStart
  split
  · rw [modEvent_event_same]
  · rfl

theorem extendPreview_lastCue (e : EventIndex) (minutes : Nat) (g : Gate) :
    ((extendPreview e minutes g).event e).lastCue = (g.event e).lastCue := by
  rw [extendPreview, modEvent_event_same]

theorem changeResume_lastCue (e : EventIndex) (left entered : Phase) (g : Gate) :
    ((changeResume e left entered g).event e).lastCue = (g.event e).lastCue := by
  unfold changeResume postPhase
  rw [post_event, modEvent_event_same]

/-- R51: a task, whoever asks for it, leaves the last cue sequence as it is; the Cue Unit alone records one (R29). -/
theorem applyTask_lastCue {e : EventIndex} {task : PhaseTask} {minutes : Nat} {g applied : Gate}
    (allowed : applyTask e task minutes g = some applied) : (applied.event e).lastCue = (g.event e).lastCue := by
  unfold applyTask at allowed
  dsimp only at allowed
  split at allowed
  · cases allowed
    split
    · exact extendPreview_lastCue e minutes g
    · split
      · rw [changeResume_lastCue, dropStart_lastCue]
      · rw [changePhase_lastCue, dropStart_lastCue]
  · cases allowed

/-! ## A command that begins (R171, R172) -/

/-- The leaving command changes the Command Unit alone. -/
theorem leaveQueue_eq_command (g : Gate) : leaveQueue g = { g with command := (leaveQueue g).command } := by
  rw [leaveQueue_eq]

@[simp] theorem leaveQueue_event (g : Gate) (e : EventIndex) : (leaveQueue g).event e = g.event e := by
  rw [leaveQueue_eq]; rfl
@[simp] theorem leaveQueue_upkeep (g : Gate) : (leaveQueue g).upkeep = g.upkeep := by
  rw [leaveQueue_eq]
@[simp] theorem leaveQueue_replies (g : Gate) : (leaveQueue g).command.replies = g.command.replies := by
  rw [leaveQueue_eq]
@[simp] theorem leaveQueue_findEvent (g : Gate) (number : Half) :
    (leaveQueue g).findEvent number = g.findEvent number := by
  simp [Gate.findEvent]

/-- The state after command q has been answered: the part as the answer leaves it, the reply placed (R172, R173). -/
def answered (s : State) (q : Request) (a : Answer) : State :=
  { s with gate := placeReply q.tag q.code a.result a.body a.gate }

theorem answered_refuse (s : State) (q : Request) (r : Result) :
    answered s q (refuse r (leaveQueue s.gate)) = turnedAway s q r := rfl

/-- R172: a command of one step that begins is answered by its meaning. -/
theorem executeCommand_of_begins {s : State} {q : Request} {code : Byte} {meaning : Request → Gate → Answer}
    (begins : Begins s.gate q) (coded : q.code = code) :
    s.onGate (executeCommand code meaning) = .next (answered s q (meaning q (leaveQueue s.gate))) := by
  obtain ⟨cell, rest, queue, rfl⟩ := begins.head
  have ready : s.gate.canBegin = true := by simp [Gate.canBegin, begins.ready, begins.room]
  rw [onGate_eq, executeCommand_runs queue ready coded begins.length]
  rfl

/-! ## STEER_EVENT, check by check (R51) -/

theorem taskOfNumber_number (task : PhaseTask) : taskOfNumber task.number = some task := by
  cases task <;> rfl

theorem taskOfNumber_eq_none {n : Byte} (undefined : n.toNat ∉ [1, 2, 3, 4, 5, 6, 7]) : taskOfNumber n = none := by
  have apart : ∀ k : Byte, k.toNat ∈ [1, 2, 3, 4, 5, 6, 7] → n ≠ k := fun k listed same => undefined (same ▸ listed)
  simp [taskOfNumber, apart]

theorem steerBody_eq (e : EventIndex) (g : Gate) :
    steerBody e g = [(g.event e).phase.number, ((g.event e).resumePhase.map Phase.number).getD 0xFF] := by
  unfold steerBody optionalPhase
  cases (g.event e).resumePhase <;> rfl

section SteerEvent

variable {q : Request} {g : Gate} {e : EventIndex} {task : PhaseTask} {minutes : Nat}

theorem steerEvent_badForm (form : q.length ≠ 4) : steerEvent q g = refuse .badForm g :=
  if_pos form

theorem steerEvent_undefined_task (form : q.length = 4) (undefined : taskOfNumber (byteAt q.body 2) = none) :
    steerEvent q g = refuse .range g := by
  simp [steerEvent, form, undefined]

theorem steerEvent_minutes_outside (form : q.length = 4) (number : byteAt q.body 2 = task.number)
    (extending : task = .extendPreview)
    (outside : ¬ (1 ≤ (byteAt q.body 3).toNat ∧ (byteAt q.body 3).toNat ≤ 30)) :
    steerEvent q g = refuse .range g := by
  simp only [steerEvent, form, number, taskOfNumber_number, ne_eq, not_true_eq_false, if_false]
  exact if_pos ⟨extending, outside⟩

theorem steerEvent_noEvent (form : q.length = 4) (number : byteAt q.body 2 = task.number)
    (inside : task = .extendPreview → 1 ≤ (byteAt q.body 3).toNat ∧ (byteAt q.body 3).toNat ≤ 30)
    (absent : g.findEvent (halfAt q.body 0) = none) : steerEvent q g = refuse .noEvent g := by
  simp only [steerEvent, form, number, taskOfNumber_number, absent, ne_eq, not_true_eq_false, if_false]
  exact if_neg (fun outside => outside.2 (inside outside.1))

/-- Past the checks on its body a STEER_EVENT is judged by the event that it names. -/
theorem steerEvent_found (form : q.length = 4) (number : byteAt q.body 2 = task.number)
    (inside : task = .extendPreview → 1 ≤ (byteAt q.body 3).toNat ∧ (byteAt q.body 3).toNat ≤ 30)
    (found : g.findEvent (halfAt q.body 0) = some e) :
    steerEvent q g = steerTask e task (byteAt q.body 3).toNat g := by
  simp only [steerEvent, form, number, taskOfNumber_number, found, ne_eq, not_true_eq_false, if_false]
  exact if_neg (fun outside => outside.2 (inside outside.1))

theorem steerTask_retiring (retiring : (g.event e).phase = .retiring) :
    steerTask e task minutes g = { result := .busy, body := steerBody e g, gate := g } :=
  if_pos retiring

theorem steerTask_rejected (steerable : (g.event e).phase ≠ .retiring) (rejected : applyTask e task minutes g = none) :
    steerTask e task minutes g = { result := .wrongPhase, body := steerBody e g, gate := g } := by
  simp [steerTask, steerable, rejected]

theorem steerTask_applied {applied : Gate} (steerable : (g.event e).phase ≠ .retiring)
    (allowed : applyTask e task minutes g = some applied) :
    steerTask e task minutes g
      = { result := .ok, body := steerBody e applied, gate := bumpEvent e .appliedSteers applied } := by
  simp [steerTask, steerable, allowed]

end SteerEvent

/-! ## RETIRE_EVENT, check by check (R55) -/

section RetireEvent

variable {q : Request} {g : Gate} {e : EventIndex}

theorem retireEvent_badForm (form : q.length ≠ 2) : retireEvent q g = refuse .badForm g :=
  if_pos form

theorem retireEvent_noEvent (form : q.length = 2) (absent : g.findEvent (halfAt q.body 0) = none) :
    retireEvent q g = refuse .noEvent g := by
  simp [retireEvent, form, absent]

theorem retireEvent_retiring (form : q.length = 2) (found : g.findEvent (halfAt q.body 0) = some e)
    (retiring : (g.event e).phase = .retiring) : retireEvent q g = refuse .busy g := by
  simp [retireEvent, form, found, retiring]

theorem retireEvent_wrongPhase (form : q.length = 2) (found : g.findEvent (halfAt q.body 0) = some e)
    (notRetiring : (g.event e).phase ≠ .retiring) (notClosed : (g.event e).phase ≠ .closed) :
    retireEvent q g = refuse .wrongPhase g := by
  simp [retireEvent, form, found, notRetiring, notClosed]

theorem retireEvent_closed (form : q.length = 2) (found : g.findEvent (halfAt q.body 0) = some e)
    (closed : (g.event e).phase = .closed) :
    retireEvent q g = { result := .ok, body := [], gate := changePhase e .retiring (queueRetire e g) } := by
  simp [retireEvent, form, found, closed]

end RetireEvent

/-! ## RETIRE(e) in the maintenance list (R87, R92) -/

/-- R87: where the head stays, writing the list changes the list alone. -/
theorem setTasks_same_head {tasks : List Task} {g : Gate} (same : tasks.head? = g.upkeep.tasks.head?) :
    setTasks tasks g = { g with upkeep := { g.upkeep with tasks := tasks } } :=
  if_pos same

/-- R87: where the head changes, the new head's walk begins. -/
theorem setTasks_new_head {tasks : List Task} {g : Gate} (other : tasks.head? ≠ g.upkeep.tasks.head?) :
    setTasks tasks g = { g with
      upkeep := { g.upkeep with tasks := tasks, cursor := 0, shadow := Vector.replicate 4 0 } } :=
  if_neg other

theorem setTasks_eq_upkeep (tasks : List Task) (g : Gate) :
    setTasks tasks g = { g with upkeep := (setTasks tasks g).upkeep } := by
  by_cases same : tasks.head? = g.upkeep.tasks.head?
  · rw [setTasks_same_head same]
  · rw [setTasks_new_head same]

/-- R92: RETIRE(e) carrying the recount stands where RECOUNT(e) stood. -/
def carryRecount (e : EventIndex) (tasks : List Task) : List Task :=
  tasks.map (fun task => if task = .recount e then .retire e true else task)

/-- The list changes its head where RECOUNT(e) was at it, and there alone. -/
theorem carryRecount_head_eq_iff (e : EventIndex) (tasks : List Task) :
    (carryRecount e tasks).head? = tasks.head? ↔ tasks.head? ≠ some (.recount e) := by
  cases tasks with
  | nil => simp [carryRecount]
  | cons task rest => by_cases running : task = .recount e <;> simp [carryRecount, running]

section QueueRetire

variable {e : EventIndex} {g : Gate}

theorem queueRetire_carrying (counted : Task.recount e ∈ g.upkeep.tasks) :
    queueRetire e g = setTasks (carryRecount e g.upkeep.tasks) g :=
  if_pos counted

theorem queueRetire_adding (uncounted : Task.recount e ∉ g.upkeep.tasks) :
    queueRetire e g = setTasks (g.upkeep.tasks ++ [.retire e false]) g :=
  if_neg uncounted

theorem queueRetire_eq_upkeep (e : EventIndex) (g : Gate) :
    queueRetire e g = { g with upkeep := (queueRetire e g).upkeep } := by
  unfold queueRetire
  split <;> exact setTasks_eq_upkeep _ g

theorem queueRetire_upkeep_of_empty (empty : g.upkeep.tasks = []) :
    (queueRetire e g).upkeep
      = { g.upkeep with tasks := [.retire e false], cursor := 0, shadow := Vector.replicate 4 0 } := by
  rw [queueRetire_adding (by simp [empty]), setTasks_new_head (by simp [empty]), empty]
  rfl

theorem queueRetire_upkeep_of_waiting (uncounted : Task.recount e ∉ g.upkeep.tasks) (waiting : g.upkeep.tasks ≠ []) :
    (queueRetire e g).upkeep = { g.upkeep with tasks := g.upkeep.tasks ++ [.retire e false] } := by
  rw [queueRetire_adding uncounted, setTasks_same_head (List.head?_append_of_ne_nil _ waiting)]

theorem queueRetire_upkeep_of_running (running : g.upkeep.tasks.head? = some (.recount e)) :
    (queueRetire e g).upkeep
      = { g.upkeep with
          tasks := carryRecount e g.upkeep.tasks, cursor := 0, shadow := Vector.replicate 4 0 } := by
  rw [queueRetire_carrying (List.mem_of_mem_head? running),
    setTasks_new_head (fun same => (carryRecount_head_eq_iff e _).1 same running)]

theorem queueRetire_upkeep_of_queued (counted : Task.recount e ∈ g.upkeep.tasks)
    (notRunning : g.upkeep.tasks.head? ≠ some (.recount e)) :
    (queueRetire e g).upkeep = { g.upkeep with tasks := carryRecount e g.upkeep.tasks } := by
  rw [queueRetire_carrying counted, setTasks_same_head ((carryRecount_head_eq_iff e _).2 notRunning)]

end QueueRetire

/-- R87: the list does not depend on the Command Unit, so RETIRE(e) joins it the same before and after the command has
left its queue. -/
theorem queueRetire_leaveQueue (e : EventIndex) (g : Gate) :
    queueRetire e (leaveQueue g)
      = { g with upkeep := (queueRetire e g).upkeep, command := (leaveQueue g).command } := by
  have upkeep : (queueRetire e (leaveQueue g)).upkeep = (queueRetire e g).upkeep := by
    unfold queueRetire setTasks beginWalk
    simp only [leaveQueue_upkeep]
    split <;> split <;> rfl
  rw [queueRetire_eq_upkeep, upkeep, leaveQueue_eq_command]

/-! ## The change from CLOSED to RETIRING (R39–R42) -/

/-- A CLOSED event's record as the change into RETIRING leaves it. -/
def Event.retired (now : Time) (ev : Event) : Event :=
  { ev with
    phase := .retiring
    resumePhase := none
    currentEntry := now
    previousEntry := some ev.currentEntry
    previousPhase := some .closed
    deadline := none }

/-- Neither phase grants, so no entry action and no starvation base comes in; the stamps are written and the deadline
is Table 33's, none. -/
theorem Event.retired_eq {ev : Event} (closed : ev.phase = .closed) (now : Time) :
    Event.renewDeadline .closed now (Event.startStarvation now (Event.stamp .retiring now ev.leavePreview))
      = ev.retired now := by
  simp [Event.leavePreview, Event.stamp, Event.startStarvation, Event.renewDeadline, Event.deadlineFor, Event.retired,
    Phase.mode, closed]

theorem modEvent_modEvent (e : EventIndex) (first second : Event → Event) (g : Gate) :
    modEvent e second (modEvent e first g) = g.setEvent e (second (first (g.event e))) := by
  simp [modEvent, Gate.setEvent, Gate.event]

/-- A change between two phases that grant nothing has no entry action (Table 34): it writes the event's record and
posts its item. -/
theorem changePhase_of_noGrant {e : EventIndex} {p : Phase} {g : Gate} (left : (g.event e).phase.mode = .noGrant)
    (entered : p.mode = .noGrant) :
    changePhase e p g
      = postPhase e (g.event e).phase.number p.number
          (g.setEvent e (Event.renewDeadline (g.event e).phase g.clock.siteTime
            (Event.startStarvation g.clock.siteTime (Event.stamp p g.clock.siteTime (g.event e).leavePreview)))) := by
  simp only [changePhase, left, entered, entryActions, id_eq, modEvent_modEvent]

theorem changePhase_closed_retiring {e : EventIndex} {g : Gate} (closed : (g.event e).phase = .closed) :
    changePhase e .retiring g
      = postPhase e 6 8 (g.setEvent e ((g.event e).retired g.clock.siteTime)) := by
  rw [changePhase_of_noGrant (by rw [closed]; rfl) rfl, closed, Event.retired_eq closed]
  rfl

/-- R55: the part once a RETIRE_EVENT of a CLOSED event has left the queue and been carried out and answered. -/
theorem retired_gate {e : EventIndex} {g : Gate} (tag : Half) (closed : (g.event e).phase = .closed) :
    placeReply tag 0x13 .ok [] (changePhase e .retiring (queueRetire e (leaveQueue g))) = { g with
      events := g.events.set e ((g.event e).retired g.clock.siteTime)
      upkeep := (queueRetire e g).upkeep
      command := { (leaveQueue g).command with
        replies := g.command.replies ++ [{ tag := tag, code := 0x13, result := .ok, body := [] }]
        status := insertItem
          { kind := .phase, object := eventObject e, detail := [6, 8] ++ field 4 g.clock.siteTime.toNat }
          (leaveQueue g).command.status }
      counters := (bump .commandsExecuted g).counters } := by
  have closed' : ((queueRetire e (leaveQueue g)).event e).phase = .closed := by
    rw [queueRetire_leaveQueue]
    exact closed
  rw [changePhase_closed_retiring closed', queueRetire_leaveQueue, ← leaveQueue_replies g]
  rfl

end Sys2Proof.Machine

namespace Sys2Proof.Proofs

open Sys2Proof.Machine Sys2Proof.Safety Sys2Proof.Claims

/-- Settles O43: each check of R51 and of R55 gives its answer in turn. A task that Table 31 allows leaves the last cue
sequence as it is (R51), and a CLOSED event becomes RETIRING with RETIRE(e) in the maintenance list (R87, R92). -/
theorem steerAndRetireEvents : Obligations.SteerAndRetireEvents := by
  unfold Obligations.SteerAndRetireEvents
  refine ⟨fun s q begins coded => ?steer, fun s q begins coded => ?retire⟩
  case steer =>
    have runs : exec .steerEvent s = .next (answered s q (steerEvent q (leaveQueue s.gate))) :=
      executeCommand_of_begins begins coded
    dsimp only
    rw [runs]
    refine ⟨fun form => ?_, fun form undefined => ?_,
      fun task form number => ⟨fun extending outside => ?_, fun inside => ⟨fun absent => ?_, ?_⟩⟩⟩
    · rw [steerEvent_badForm form, answered_refuse]
    · rw [steerEvent_undefined_task form (taskOfNumber_eq_none undefined), answered_refuse]
    · rw [steerEvent_minutes_outside form number extending outside, answered_refuse]
    · rw [steerEvent_noEvent form number inside (by simpa using absent), answered_refuse]
    have steered (e : EventIndex) (found : s.gate.findEvent (halfAt q.body 0) = some e) :=
      steerEvent_found (g := leaveQueue s.gate) form number inside (by simpa using found)
    refine ⟨fun e found retiring => ?_,
      fun e found steerable => ⟨fun rejected => ?_, fun applied allowed => ⟨?_, ?_⟩⟩⟩
    · rw [steered e found, steerTask_retiring (by simpa using retiring), answered, steerBody_eq, leaveQueue_event,
        coded]
    · rw [steered e found, steerTask_rejected (by simpa using steerable) rejected, answered, steerBody_eq,
        leaveQueue_event, coded]
    · rw [applyTask_lastCue allowed, leaveQueue_event]
    · rw [steered e found, steerTask_applied (by simpa using steerable) allowed, answered, steerBody_eq, coded]
  case retire =>
    have runs : exec .retireEvent s = .next (answered s q (retireEvent q (leaveQueue s.gate))) :=
      executeCommand_of_begins begins coded
    dsimp only
    rw [runs]
    refine ⟨fun form => ?_, fun form => ⟨fun absent => ?_, fun e found => ?_⟩⟩
    · rw [retireEvent_badForm form, answered_refuse]
    · rw [retireEvent_noEvent form (by simpa using absent), answered_refuse]
    have found' : (leaveQueue s.gate).findEvent (halfAt q.body 0) = some e := by simpa using found
    refine ⟨fun retiring => ?_, fun notRetiring notClosed => ?_, fun closed => ?_⟩
    · rw [retireEvent_retiring form found' (by simpa using retiring), answered_refuse]
    · rw [retireEvent_wrongPhase form found' (by simpa using notRetiring) (by simpa using notClosed), answered_refuse]
    · rw [retireEvent_closed form found' (by simpa using closed), answered, coded]
      dsimp only
      rw [retired_gate q.tag closed]
      refine ⟨_, rfl, rfl, rfl, fun uncounted => ⟨fun empty => ?_, queueRetire_upkeep_of_waiting uncounted⟩,
        fun counted => ⟨queueRetire_upkeep_of_running, queueRetire_upkeep_of_queued counted⟩⟩
      dsimp only
      rw [queueRetire_upkeep_of_empty empty]

end Sys2Proof.Proofs
end

/-! PROOF. The Holder Table's buckets (R82): the bucket of a decoder number, what a lookup examines, which commands leave
the table alone, that the others keep every record in its number's bucket, and the statement BucketRule built from these. -/

namespace Sys2Proof.Machine

/-! ## Buckets and keys (R82) -/

/-- The 11 high bits of a decoder number, 24 bits wide, come out in the low 11 bits of its bucket's 13. -/
theorem decoder_high_lt (d : Decoder) : d.toNat / 8192 < 2048 := by
  have limit := d.isLt
  omega

theorem bucketOf_val (d : Decoder) : (bucketOf d).val = (d.toNat % 8192) ^^^ (d.toNat / 8192) := by
  have high := decoder_high_lt d
  have low_bits : (d.extractLsb' 0 13).toNat = d.toNat % 8192 := by
    simp [BitVec.extractLsb'_toNat]
  have high_bits : ((d.extractLsb' 13 11).zeroExtend 13).toNat = d.toNat / 8192 := by
    rw [BitVec.toNat_setWidth, BitVec.extractLsb'_toNat, Nat.shiftRight_eq_div_pow]
    omega
  calc (bucketOf d).val
      = (d.extractLsb' 0 13).toNat ^^^ ((d.extractLsb' 13 11).zeroExtend 13).toNat := BitVec.toNat_xor ..
    _ = (d.toNat % 8192) ^^^ (d.toNat / 8192) := by rw [low_bits, high_bits]

theorem mem_allWays {way : Nat} : way ∈ allWays ↔ way < 4 := by
  simp only [allWays, List.mem_cons, List.not_mem_nil, or_false]
  omega

theorem bucketOfKey_slotKey (b : Bucket) {way : Nat} (listed : way ∈ allWays) : bucketOfKey (slotKey b way) = b.val := by
  have below := mem_allWays.1 listed
  unfold bucketOfKey slotKey
  omega

/-! ## Lookups (R82) -/

/-- Two parts that hold the same in the four ways of a decoder's bucket answer its lookup alike. -/
theorem findHolder_congr {d : Decoder} {g h : Gate}
    (same : ∀ way ∈ allWays,
      Sparse.get g.holders (slotKey (bucketOf d) way) = Sparse.get h.holders (slotKey (bucketOf d) way)) :
    findHolder d g = findHolder d h := by
  unfold findHolder
  generalize allWays = ways at same
  induction ways with
  | nil => rfl
  | cons way rest ih =>
    have tail := ih (fun other listed => same other (List.mem_cons_of_mem _ listed))
    simp only [List.findSome?_cons, same way List.mem_cons_self, tail]

/-- What a lookup finds: the decoder's own record, in a way of the decoder's bucket. -/
theorem findHolder_some {d : Decoder} {g : Gate} {key : Nat} {h : Holder} (found : findHolder d g = some (key, h)) :
    Sparse.get g.holders key = some h ∧ h.decoder = d ∧ bucketOfKey key = (bucketOf d).val := by
  obtain ⟨way, listed, read⟩ := List.exists_of_findSome?_eq_some found
  cases at_way : Sparse.get g.holders (slotKey (bucketOf d) way) with
  | none => simp [at_way] at read
  | some held =>
    simp only [at_way, Option.ite_none_right_eq_some, Option.some.injEq, Prod.mk.injEq] at read
    obtain ⟨own, rfl, rfl⟩ := read
    exact ⟨at_way, own, bucketOfKey_slotKey _ listed⟩

/-- R83: a new record goes into a way of its decoder's bucket. -/
theorem bucketOfKey_of_placement {d : Decoder} {g : Gate} {key : Nat} (placed : placement d g = .ok key) :
    bucketOfKey key = (bucketOf d).val := by
  unfold placement at placed
  split at placed
  · cases placed
  · split at placed
    · next way free =>
      cases placed
      exact bucketOfKey_slotKey _ (List.mem_of_find?_eq_some free)
    · cases placed

theorem get_of_mem_bucketRecords {b : Bucket} {g : Gate} {entry : Nat × Holder} (listed : entry ∈ bucketRecords b g) :
    Sparse.get g.holders entry.1 = some entry.2 := by
  obtain ⟨way, -, read⟩ := List.mem_filterMap.1 listed
  obtain ⟨h, at_way, rfl⟩ := Option.map_eq_some_iff.1 read
  exact at_way

/-! ## What leaves the table as it is -/

theorem foldl_holders {α : Type} {f : α → Gate → Gate} (keeps : ∀ a g, (f a g).holders = g.holders) (items : List α)
    (g : Gate) : (items.foldl (fun acc a => f a acc) g).holders = g.holders :=
  List.foldlRecOn (motive := fun acc => acc.holders = g.holders) items _ rfl
    (fun acc kept a _ => (keeps a acc).trans kept)

theorem forDrivenZones_holders {f : ZoneIndex → Gate → Gate} (keeps : ∀ z g, (f z g).holders = g.holders) (g : Gate) :
    (forDrivenZones f g).holders = g.holders := by
  refine foldl_holders (f := fun z acc => if acc.driven z then f z acc else acc) (fun z acc => ?_) allZones g
  split
  · exact keeps z acc
  · rfl

/-! ### Delivery, phases and the Key Unit -/

@[simp] theorem openOffer_holders (e : EventIndex) (slot : SheetSlot) (g : Gate) :
    (openOffer e slot g).holders = g.holders := (openOffer_delivers e slot g).holders
@[simp] theorem setOpenLead_holders (e : EventIndex) (g : Gate) : (setOpenLead e g).holders = g.holders :=
  (setOpenLead_delivers e g).holders
@[simp] theorem setOpenRepeat_holders (e : EventIndex) (g : Gate) : (setOpenRepeat e g).holders = g.holders :=
  (setOpenRepeat_delivers e g).holders
@[simp] theorem discardSheet_holders (e : EventIndex) (slot : SheetSlot) (g : Gate) :
    (discardSheet e slot g).holders = g.holders := (discardSheet_delivers e slot g).holders
@[simp] theorem joinLeg_holders (e : EventIndex) (slot : SheetSlot) (g : Gate) :
    (joinLeg e slot g).holders = g.holders := (joinLeg_delivers e slot g).holders
@[simp] theorem rejoinPending_holders (e : EventIndex) (g : Gate) : (rejoinPending e g).holders = g.holders :=
  (rejoinPending_delivers e g).holders
@[simp] theorem makeLate_holders (e : EventIndex) (slot : SheetSlot) (leg : Leg) (g : Gate) :
    (makeLate e slot leg g).holders = g.holders := by
  unfold makeLate
  split <;> rfl
@[simp] theorem purgeFresh_holders (p : FreshEntry → Bool) (z : ZoneIndex) (g : Gate) :
    (purgeFresh p z g).holders = g.holders := (purgeFresh_delivers p z g).holders
@[simp] theorem purgeFreshAll_holders (p : FreshEntry → Bool) (g : Gate) : (purgeFreshAll p g).holders = g.holders :=
  (purgeFreshAll_delivers p g).holders
@[simp] theorem discardCells_holders (e : EventIndex) (z : ZoneIndex) (g : Gate) :
    (discardCells e z g).holders = g.holders := (discardCells_delivers e z g).holders
@[simp] theorem purgeDecoder_holders (d : Decoder) (g : Gate) : (purgeDecoder d g).holders = g.holders :=
  ((purgeFreshAll_delivers _ g).trans (takeOutEverywhere_delivers d _)).holders
@[simp] theorem changePhase_holders (e : EventIndex) (p : Phase) (g : Gate) :
    (changePhase e p g).holders = g.holders := (changePhase_delivers e p g).holders
@[simp] theorem takeKey_holders (e : EventIndex) (cell : List Byte) (g : Gate) :
    (takeKey e cell g).holders = g.holders := (takeKey_delivers e cell g).holders

theorem applyTask_holders {e : EventIndex} {task : PhaseTask} {minutes : Nat} {g applied : Gate}
    (allowed : applyTask e task minutes g = some applied) : applied.holders = g.holders :=
  (applyTask_delivers allowed).holders

theorem phaseDeadlineExpiry_holders (e : EventIndex) (g : Gate) : (phaseDeadlineExpiry e g).holders = g.holders := by
  have expired : (expireDeadline e g).holders = g.holders := by
    unfold expireDeadline
    dsimp only
    split
    · cases applied : applyTask e _ 0 (bumpEvent e .deadlineExpiries (modEvent e _ g)) with
      | none => rfl
      | some after => exact (applyTask_holders applied :)
    · rfl
  unfold phaseDeadlineExpiry
  split
  · split
    · exact expired
    · rfl
  · rfl

theorem promotion_holders (e : EventIndex) (g : Gate) : (promotion e g).holders = g.holders := by
  have offered (h : Gate) : (offerPromoted e h).holders = h.holders := by
    unfold offerPromoted
    split
    · split <;> simp
    · rfl
  unfold promotion
  split
  · simp [promote, offered, movePending]
  · rfl

theorem openLeadInstant_holders (e : EventIndex) (g : Gate) : (openLeadInstant e g).holders = g.holders := by
  unfold openLeadInstant
  split <;> simp

@[simp] theorem reofferPending_holders (e : EventIndex) (g : Gate) : (reofferPending e g).holders = g.holders := by
  unfold reofferPending
  split
  · split <;> simp
  · rfl

theorem openRepeat_holders (e : EventIndex) (g : Gate) : (openRepeat e g).holders = g.holders := by
  unfold openRepeat
  split <;> simp

theorem starvationInstant_holders (e : EventIndex) (g : Gate) : (starvationInstant e g).holders = g.holders := by
  have warned (h : Gate) : (warnStarvation e h).holders = h.holders := by
    unfold warnStarvation
    dsimp only
    split <;> simp
  have stalled (h : Gate) : (stallStarved e h).holders = h.holders := by
    unfold stallStarved
    split <;> simp
  have starved : (starve e g).holders = g.holders := by
    unfold starve
    dsimp only
    split <;> simp [warned, stalled]
  unfold starvationInstant
  split
  · exact starved
  · rfl

theorem legLate_holders (e : EventIndex) (slot : SheetSlot) (g : Gate) : (legLate e slot g).holders = g.holders := by
  unfold legLate
  split
  · rfl
  · split
    · rfl
    · split <;> simp

/-! ### Site Clock and Cue Unit -/

@[simp] theorem takeTime_holders (cell : List Byte) (g : Gate) : (takeTime cell g).holders = g.holders := by
  unfold takeTime
  dsimp only
  split
  · rw [postFault_eq, countOffset_eq]
    rfl
  · rfl

theorem timeCell_holders (g : Gate) : (timeCell g).holders = g.holders := by
  unfold timeCell
  split <;> simp

theorem closeWindow_holders (z : ZoneIndex) (g : Gate) : (closeWindow z g).holders = g.holders := by
  have risked (risk : Bool) (event : Byte) (n s : Nat) (h : Gate) : (setRisk z risk event n s h).holders = h.holders := by
    unfold setRisk
    split <;> rfl
  have projected (h : Gate) : (project z h).holders = h.holders := by
    unfold project
    dsimp only
    split <;> exact risked ..
  unfold closeWindow
  dsimp only
  split
  · exact projected _
  · rfl

theorem windowClose_holders (g : Gate) : (windowClose g).holders = g.holders := by
  unfold windowClose
  split
  · rfl
  · exact forDrivenZones_holders closeWindow_holders _

@[simp] theorem takeCue_holders (cell : List Byte) (g : Gate) : (takeCue cell g).holders = g.holders := by
  have applied (e : EventIndex) (entry : CueEntry) (sequence : Byte) (h : Gate) :
      (applyCue e entry sequence h).holders = h.holders := by
    unfold applyCue
    split
    · next allowed => rw [bumpEvent_holders, applyTask_holders allowed]
    · rfl
  unfold takeCue takeMapped
  split
  · rfl
  · split
    · rfl
    · split
      · rfl
      · exact applied ..

theorem cueCell_holders (g : Gate) : (cueCell g).holders = g.holders := by
  unfold cueCell
  split <;> simp

theorem keyCell_holders (g : Gate) : (keyCell g).holders = g.holders := by
  unfold keyCell
  split <;> simp

/-! ### Commands taken, begun and answered -/

@[simp] theorem leaveQueue_holders (g : Gate) : (leaveQueue g).holders = g.holders := by
  rw [leaveQueue_eq]

@[simp] theorem joinQueue_holders (cell : List Byte) (g : Gate) : (joinQueue cell g).holders = g.holders := by
  rw [joinQueue_eq]

theorem managementCell_holders (g : Gate) : (managementCell g).holders = g.holders := by
  have taken (cell : List Byte) (h : Gate) : (takeManagement cell h).holders = h.holders := by
    unfold takeManagement
    split
    · split <;> simp
    · rfl
  unfold managementCell
  split
  · exact taken ..
  · rfl

/-- What a command's run keeps of the table is kept by the step that begins it, whether or not it begins. -/
theorem beginWhere_table {P : List (Nat × Holder) → Prop} {p : Request → Bool} {run : Request → Gate → Gate} {g : Gate}
    (held : P g.holders) (runs : ∀ q h, P h.holders → P (run q h).holders) : P (beginWhere p run g).holders := by
  rcases beginWhere_cases p run g with idle | ⟨cell, rest, -, -, -, ⟨-, refused⟩ | ⟨-, begun⟩⟩
  · rwa [idle]
  · rwa [refused, placeReply_holders, leaveQueue_holders]
  · rw [begun]
    exact runs _ _ (by rwa [leaveQueue_holders])

theorem beginCommand_holders {code : Byte} {run : Request → Gate → Gate}
    (keeps : ∀ q h, (run q h).holders = h.holders) (g : Gate) : (beginCommand code run g).holders = g.holders :=
  beginWhere_table (P := (· = g.holders)) rfl (fun q h same => (keeps q h).trans same)

theorem executeCommand_holders {code : Byte} {meaning : Request → Gate → Answer}
    (keeps : ∀ q h, (meaning q h).gate.holders = h.holders) (g : Gate) :
    (executeCommand code meaning g).holders = g.holders := by
  refine beginCommand_holders (fun q h => ?_) g
  rw [placeReply_holders, keeps]

theorem executeAtTable_table {P : List (Nat × Holder) → Prop} {code : Byte} {meaning : Request → Gate → Answer} {g : Gate}
    (held : P g.holders) (answers : ∀ q h, P h.holders → P (meaning q h).gate.holders) :
    P (executeAtTable code meaning g).holders :=
  beginWhere_table held (fun q h kept => answers q (granted .command h) kept)

theorem executeAtTable_holders {code : Byte} {meaning : Request → Gate → Answer}
    (keeps : ∀ q h, (meaning q h).gate.holders = h.holders) (g : Gate) :
    (executeAtTable code meaning g).holders = g.holders :=
  executeAtTable_table (P := (· = g.holders)) rfl (fun q h same => (keeps q h).trans same)

theorem unknownCommand_holders (g : Gate) : (unknownCommand g).holders = g.holders := by
  unfold unknownCommand
  split
  · rfl
  · dsimp only
    split <;> simp

theorem returnSlot_holders (g : Gate) : (returnSlot g).holders = g.holders := by
  unfold returnSlot
  split
  · rfl
  · split
    · rfl
    · split <;> rfl

/-! ### Input and zone outputs -/

theorem ZoneStep.holders {z : ZoneIndex} {g h : Gate} (p : ZoneStep z g h) : h.holders = g.holders := by
  rw [p.gate]

@[simp] theorem giveSlot_holders (slot : Slot) (behind : BitVec 4) (g : Gate) :
    (giveSlot slot behind g).holders = g.holders := by
  rw [(giveSlot_frame slot behind g).1]

theorem nominalSlot_holders (g : Gate) : (nominalSlot g).holders = g.holders := by
  unfold nominalSlot
  split
  · exact forDrivenZones_holders (fun z h => (sendIdle_step z h).holders) g
  · split <;> simp

theorem holdMessage_holders (z : ZoneIndex) (value : Option Half) (g : Gate) :
    (holdMessage z value g).holders = g.holders := by
  unfold holdMessage
  split
  · split <;> rfl
  · rfl

@[simp] theorem badSync_holders (g : Gate) : (badSync g).holders = g.holders := by
  unfold badSync
  split <;> rfl

theorem missingCell_holders (g : Gate) : (missingCell g).holders = g.holders := by
  unfold missingCell
  split
  · rfl
  · split <;> simp

@[simp] theorem huntCell_holders (cell : List Byte) (g : Gate) : (huntCell cell g).holders = g.holders := by
  unfold huntCell
  split
  · split <;> rfl
  · rfl

@[simp] theorem deliverWaiting_holders (g : Gate) : (deliverWaiting g).holders = g.holders := by
  unfold deliverWaiting
  split
  · exact timeCell_holders g
  · exact cueCell_holders g
  · exact managementCell_holders g
  · exact keyCell_holders g
  · rfl

@[simp] theorem controlSlot_holders (kind : ControlKind) (cell : List Byte) (behind : BitVec 4) (g : Gate) :
    (controlSlot kind cell behind g).holders = g.holders := by
  have continued : (checkContinuity kind cell g).holders = g.holders := by
    unfold checkContinuity
    dsimp only
    split <;> rfl
  have checked (h : Gate) : (checkBody kind cell h).holders = h.holders := by
    unfold checkBody
    split <;> rfl
  rw [controlSlot, giveSlot_holders, checked, continued]

@[simp] theorem dispatchCell_holders (cell : List Byte) (behind : BitVec 4) (g : Gate) :
    (dispatchCell cell behind g).holders = g.holders := by
  have reserved : (reservedSlot cell behind g).holders = g.holders := by
    unfold reservedSlot
    split_ifs <;> simp
  unfold dispatchCell
  split
  · exact reserved
  · simp
  · simp
  · simp
  · simp

@[simp] theorem lockedCell_holders (cell : List Byte) (behind : BitVec 4) (g : Gate) :
    (lockedCell cell behind g).holders = g.holders := by
  unfold lockedCell
  dsimp only
  split
  · simp
  · split <;> simp [deliverCell]

theorem cellStep_holders (step : CellStep) (g : Gate) : (cellStep step g).holders = g.holders := by
  cases step with
  | arrives cell behind =>
    show (inputCell cell behind g).holders = g.holders
    unfold inputCell
    split
    · rfl
    · split <;> simp
  | taken z =>
    show (slotTaken z g).holders = g.holders
    unfold slotTaken
    split
    · exact (catchUp_step z g).holders
    · rfl

/-! ### Sweep Walker and maintenance list -/

theorem visitBucket_holders (g : Gate) : (visitBucket g).holders = g.holders := by
  have flushed (h : Gate) := (Visits.foldl (fun r acc => flushOwed_visits r acc) rosterOrder h).holders
  have moved (h : Gate) := (Visits.foldl (fun r acc => flushLapEnd_visits r acc) rosterOrder h).holders
  have ended (h : Gate) := (Delivers.foldl (fun r acc => endLap_delivers r acc) rosterOrder h).holders
  rw [visitBucket, ended, moved, mapLegs_holders, (placeBucket_visits _).holders, flushed]

theorem sweepVisit_holders (g : Gate) : (sweepVisit g).holders = g.holders := by
  have parked : (park g).holders = g.holders := by
    unfold park
    split <;> rfl
  unfold sweepVisit
  split
  · dsimp only
    split
    · exact parked
    · split
      · simp [visitBucket_holders]
      · rfl
  · rfl

@[simp] theorem setTasks_holders (tasks : List Task) (g : Gate) : (setTasks tasks g).holders = g.holders := by
  rw [setTasks_eq_upkeep]

@[simp] theorem queueRetire_holders (e : EventIndex) (g : Gate) : (queueRetire e g).holders = g.holders := by
  rw [queueRetire_eq_upkeep]

@[simp] theorem queueRecount_holders (e : EventIndex) (g : Gate) : (queueRecount e g).holders = g.holders := by
  unfold queueRecount
  split
  · rfl
  · split <;> simp

theorem ageInstant_holders (g : Gate) : (ageInstant g).holders = g.holders := by
  have queued : (queueAgeScan g).holders = g.holders := by
    unfold queueAgeScan
    split <;> simp
  unfold ageInstant
  split
  · exact queued
  · rfl

/-! ### Commands on event records, settings and counters -/

@[simp] theorem refuse_gate (r : Result) (g : Gate) : (refuse r g).gate = g := rfl

theorem takeRecord_holders (e : EventIndex) (f : LoadFields) (g : Gate) : (takeRecord e f g).holders = g.holders := by
  have claimed (claim : LaneClaim) (lanes : List Half) (h : Gate) :
      (lanes.foldl (fun acc lane => claimLane claim lane acc) h).holders = h.holders :=
    foldl_holders (f := claimLane claim) (fun _ _ => rfl) lanes h
  have cleared (h : Gate) : (clearSubstitutes e h).holders = h.holders :=
    foldl_holders (f := fun z => modZone z (fun zone => { zone with substitutes := zone.substitutes.set e 0 }))
      (fun _ _ => rfl) allZones h
  rw [takeRecord, postPhase, post_holders, cleared, setEvent_holders]
  exact (claimed _ f.alternate.toList _).trans (claimed _ f.lanes g)

theorem loadEvent_holders (q : Request) (g : Gate) : (loadEvent q g).gate.holders = g.holders := by
  unfold loadEvent
  dsimp only
  split
  · rfl
  · split
    · rfl
    · split
      · rfl
      · split
        · rfl
        · split
          · exact takeRecord_holders ..
          · rfl

theorem amendMask_holders (e : EventIndex) (mask : Byte) (g : Gate) : (amendMask e mask g).holders = g.holders := by
  have blacked (old : BitVec 4) (z : ZoneIndex) (h : Gate) : (blackZone e old z h).holders = h.holders := by
    unfold blackZone
    split <;> simp
  rw [amendMask, foldl_holders (blacked _), modEvent_holders]

theorem applyGiven_holders {α : Type} {write : α → Gate → Gate} (keeps : ∀ a h, (write a h).holders = h.holders)
    (given : Option α) (g : Gate) : (applyGiven given write g).holders = g.holders := by
  cases given with
  | none => rfl
  | some value => exact keeps value g

theorem writeAmend_holders (e : EventIndex) (f : AmendFields) (g : Gate) : (writeAmend e f g).holders = g.holders := by
  have grace := applyGiven_holders (write := amendGrace e) (fun _ _ => rfl) f.grace
  have extra := applyGiven_holders (write := amendExtra e) (fun _ _ => rfl) f.extraLimit
  have cutoff := applyGiven_holders (write := fun cutoff => modEvent e (fun ev => { ev with cutoff := cutoff }))
    (fun _ _ => rfl) f.cutoff
  have start := applyGiven_holders (write := amendStart e) (fun _ _ => rfl) f.start
  have ranges := applyGiven_holders (write := amendRanges e) (fun _ _ => by simp [amendRanges]) f.ranges
  rw [writeAmend, grace, extra, cutoff, start, ranges, applyGiven_holders (amendMask_holders e)]

theorem amendEvent_holders (q : Request) (g : Gate) : (amendEvent q g).gate.holders = g.holders := by
  unfold amendEvent
  dsimp only
  split
  · rfl
  · split
    · rfl
    · split
      · rfl
      · split
        · rfl
        · split
          · rfl
          · exact writeAmend_holders ..

theorem steerEvent_holders (q : Request) (g : Gate) : (steerEvent q g).gate.holders = g.holders := by
  have steered (e : EventIndex) (task : PhaseTask) (minutes : Nat) :
      (steerTask e task minutes g).gate.holders = g.holders := by
    unfold steerTask
    split
    · rfl
    · split
      · next allowed => exact (applyTask_holders allowed :)
      · rfl
  unfold steerEvent
  split
  · rfl
  · split
    · rfl
    · dsimp only
      split
      · rfl
      · split
        · rfl
        · exact steered ..

theorem retireEvent_holders (q : Request) (g : Gate) : (retireEvent q g).gate.holders = g.holders := by
  unfold retireEvent
  split
  · rfl
  · split
    · rfl
    · split
      · rfl
      · split
        · rfl
        · simp

theorem readEvent_holders (q : Request) (g : Gate) : (readEvent q g).gate.holders = g.holders := by
  unfold readEvent
  split
  · rfl
  · split <;> rfl

theorem setZoneCommand_holders (q : Request) (g : Gate) : (setZone q g).gate.holders = g.holders := by
  unfold setZone
  dsimp only
  split
  · rfl
  · split
    · rfl
    · split <;> rfl

theorem setProfile_holders (q : Request) (g : Gate) : (setProfile q g).gate.holders = g.holders := by
  unfold setProfile
  split
  · rfl
  · split <;> rfl

theorem setCueMap_holders (q : Request) (g : Gate) : (setCueMap q g).gate.holders = g.holders := by
  unfold setCueMap
  dsimp only
  split
  · rfl
  · split
    · rfl
    · split
      · rfl
      · split <;> rfl

theorem setTiming_holders (q : Request) (g : Gate) : (setTiming q g).gate.holders = g.holders := by
  have recomputed (e : EventIndex) (h : Gate) : (recomputeLead e h).holders = h.holders := by
    unfold recomputeLead
    split <;> simp
  unfold setTiming
  split
  · rfl
  · split
    · rfl
    · dsimp only
      rw [writeTiming, foldl_holders recomputed]

theorem readCounters_holders (q : Request) (g : Gate) : (readCounters q g).gate.holders = g.holders := by
  have part (clear : Bool) : (readPartCounters clear g).gate.holders = g.holders := by
    cases clear <;> rfl
  have zone (z : ZoneIndex) (clear : Bool) : (readZoneCounters z clear g).gate.holders = g.holders := by
    cases clear <;> rfl
  have event (e : EventIndex) (clear : Bool) : (readEventCounters e clear g).gate.holders = g.holders := by
    cases clear <;> rfl
  unfold readCounters
  dsimp only
  split
  · rfl
  · split
    · rfl
    · split
      · exact part _
      · split
        · split
          · rfl
          · exact zone ..
        · split
          · rfl
          · exact event ..

/-! ### Start-up Loader and the beginning of a restart -/

theorem imageLoadEnd_holders (acknowledged : Nat) (g : Gate) : (imageLoadEnd acknowledged g).holders = g.holders := by
  have image (bytes : List Byte) (h : Gate) : (takeImage bytes h).holders = h.holders := by
    unfold takeImage
    dsimp only
    rw [foldl_holders (f := loadZone bytes) (fun _ _ => rfl)]
  have defaults (h : Gate) : (takeDefaults h).holders = h.holders := by
    unfold takeDefaults
    dsimp only
    rw [foldl_holders (f := defaultZone) (fun _ _ => rfl)]
  unfold imageLoadEnd
  split
  · unfold endLoad
    dsimp only
    split
    · rw [postImage, post_holders, finishLoad, image]
    · rw [postImage, post_holders, finishLoad, defaults]
  · rfl

theorem saveImage_holders (g : Gate) : (saveImage g).holders = g.holders := by
  refine beginCommand_holders (fun q h => ?_) g
  split <;> rfl

theorem saveImageEnd_holders (acknowledged : Nat) (g : Gate) : (saveImageEnd acknowledged g).holders = g.holders := by
  have ended (tag : Half) (ok : Bool) (h : Gate) : (endSave tag ok h).holders = h.holders := by
    cases ok <;> rfl
  have part (bytes : List Byte) (h : Gate) : (writePart bytes acknowledged h).holders = h.holders := by
    unfold writePart unackedTransfer
    dsimp only
    split <;> rfl
  unfold saveImageEnd
  split
  · split
    · exact ended ..
    · exact (ended ..).trans (part _ g)
  · rfl

theorem restart_holders (g : Gate) : (restart g).holders = g.holders := by
  refine beginCommand_holders (fun q h => ?_) g
  split <;> rfl

theorem purchase_holders (g : Gate) : (purchase g).holders = g.holders := by
  refine beginCommand_holders (fun q h => ?_) g
  split <;> rfl

/-! ## Commands on one decoder's record -/

/-- R96, R97, R115, R116: a command on a decoder's record is refused with the part as it was, or runs on what the lookup
finds. -/
theorem withHolder_gate {P : Gate → Prop} {q : Request} {run : Nat → Holder → Answer} {g : Gate} (held : P g)
    (runs : ∀ d key h, findHolder d g = some (key, h) → P (run key h).gate) : P (withHolder q run g).gate := by
  unfold withHolder
  dsimp only
  split
  · exact held
  · split
    · exact held
    · split
      · exact held
      · next found => exact runs _ _ _ found

/-- R111, R113: FORCE and RELEASE likewise. -/
theorem withOverride_gate {P : Gate → Prop} {q : Request} {run : Nat → Holder → Bool → EventSet → Answer} {g : Gate}
    (held : P g) (runs : ∀ d key h mode named, findHolder d g = some (key, h) → P (run key h mode named).gate) :
    P (withOverride q run g).gate := by
  unfold withOverride
  dsimp only
  split
  · exact held
  · split
    · exact held
    · split
      · exact held
      · split
        · exact held
        · exact runs _ _ _ _ _ ‹findHolder _ g = some _›

theorem readHolder_holders (q : Request) (g : Gate) : (readHolder q g).gate.holders = g.holders :=
  withHolder_gate (P := fun h => h.holders = g.holders) rfl (fun _ _ _ _ => rfl)

theorem dump_holders (q : Request) (g : Gate) : (dump q g).gate.holders = g.holders := by
  unfold dump
  dsimp only
  split
  · rfl
  · split <;> rfl

/-! ## The commands that can write the table -/

/-- The commands that can change a holder record, make one or remove one: those that empty or restart the table, those
that change records (R86), and the maintenance walker's visit (R88). -/
def writesHolders : Instr → Bool
  | .powerOn _ _ _ | .restartStep | .restartLine => true
  | .purchaseItem | .cancel | .putHolder | .dropHolder | .force | .release | .bar | .unbar => true
  | .maintenanceVisit => true
  | _ => false

theorem holders_of_onGate {f : Gate → Gate} {s t : State} (keeps : ∀ g, (f g).holders = g.holders)
    (runs : s.onGate f = .next t) : t.gate.holders = s.gate.holders := by
  cases runs
  exact keeps s.gate

/-- Every other command leaves the Holder Table as it is. -/
theorem exec_holders {i : Instr} {s t : State} (reads : writesHolders i = false) (runs : exec i s = .next t) :
    t.gate.holders = s.gate.holders := by
  cases i with
  | imageLoadEnd acknowledged => exact holders_of_onGate (imageLoadEnd_holders acknowledged) runs
  | inputCell step => exact holders_of_onGate (cellStep_holders step) runs
  | missingCell => exact holders_of_onGate missingCell_holders runs
  | nominalSlot => exact holders_of_onGate nominalSlot_holders runs
  | holdMessage zone value => exact holders_of_onGate (holdMessage_holders zone value) runs
  | siteClockTick => exact holders_of_onGate (f := siteClockTick) (fun _ => rfl) runs
  | timeCell => exact holders_of_onGate timeCell_holders runs
  | windowClose => exact holders_of_onGate windowClose_holders runs
  | cueCell => exact holders_of_onGate cueCell_holders runs
  | phaseDeadlineExpiry e => exact holders_of_onGate (phaseDeadlineExpiry_holders e) runs
  | keyCell => exact holders_of_onGate keyCell_holders runs
  | promotion e => exact holders_of_onGate (promotion_holders e) runs
  | openLeadInstant e => exact holders_of_onGate (openLeadInstant_holders e) runs
  | openRepeat e => exact holders_of_onGate (openRepeat_holders e) runs
  | starvationInstant e => exact holders_of_onGate (starvationInstant_holders e) runs
  | legLate e slot => exact holders_of_onGate (legLate_holders e slot) runs
  | sweepVisit => exact holders_of_onGate sweepVisit_holders runs
  | ageInstant => exact holders_of_onGate ageInstant_holders runs
  | managementCell => exact holders_of_onGate managementCell_holders runs
  | returnSlot => exact holders_of_onGate returnSlot_holders runs
  | unknownCommand => exact holders_of_onGate unknownCommand_holders runs
  | loadEvent => exact holders_of_onGate (executeCommand_holders loadEvent_holders) runs
  | amendEvent => exact holders_of_onGate (executeCommand_holders amendEvent_holders) runs
  | steerEvent => exact holders_of_onGate (executeCommand_holders steerEvent_holders) runs
  | retireEvent => exact holders_of_onGate (executeCommand_holders retireEvent_holders) runs
  | readEvent => exact holders_of_onGate (executeCommand_holders readEvent_holders) runs
  | purchase => exact holders_of_onGate purchase_holders runs
  | readHolder => exact holders_of_onGate (executeAtTable_holders readHolder_holders) runs
  | dump => exact holders_of_onGate (executeAtTable_holders dump_holders) runs
  | setZone => exact holders_of_onGate (executeCommand_holders setZoneCommand_holders) runs
  | setProfile => exact holders_of_onGate (executeCommand_holders setProfile_holders) runs
  | setCueMap => exact holders_of_onGate (executeCommand_holders setCueMap_holders) runs
  | setTiming => exact holders_of_onGate (executeCommand_holders setTiming_holders) runs
  | readCounters => exact holders_of_onGate (executeCommand_holders readCounters_holders) runs
  | saveImage => exact holders_of_onGate saveImage_holders runs
  | saveImageEnd acknowledged => exact holders_of_onGate (saveImageEnd_holders acknowledged) runs
  | restart => exact holders_of_onGate restart_holders runs
  | _ => cases reads

/-! ## Records in their buckets -/

/-- R82: every record stands in a way of its decoder's own bucket. -/
def InBuckets (holders : List (Nat × Holder)) : Prop :=
  ∀ entry ∈ holders, (bucketOf entry.2.decoder).val = bucketOfKey entry.1

theorem InBuckets.of_get {holders : List (Nat × Holder)} {key : Nat} {h : Holder} (placed : InBuckets holders)
    (listed : Sparse.get holders key = some h) : (bucketOf h.decoder).val = bucketOfKey key :=
  placed (key, h) (Sparse.mem_of_get listed)

/-- R86: a record change writes one key of the table; what it does besides is delivery work. -/
theorem changeRecord_inBuckets {key : Nat} {before after : Option Holder} {g : Gate} (placed : InBuckets g.holders)
    (fits : ∀ h, after = some h → (bucketOf h.decoder).val = bucketOfKey key) :
    InBuckets (changeRecord key before after g).holders := by
  rw [(changeRecord_delivers key before after g).holders]
  intro entry listed
  cases after with
  | none => exact placed entry (Sparse.mem_erase.1 listed).1
  | some h =>
    rcases Sparse.mem_set listed with rfl | old
    · exact fits h rfl
    · exact placed entry old

/-- A record that keeps its decoder and its key stays in its bucket. -/
theorem changeRecord_inBuckets_of_decoder {key : Nat} {before : Option Holder} {h after : Holder} {g : Gate}
    (placed : InBuckets g.holders) (held : (bucketOf h.decoder).val = bucketOfKey key) (same : after.decoder = h.decoder) :
    InBuckets (changeRecord key before (some after) g).holders := by
  refine changeRecord_inBuckets placed (fun record is_after => ?_)
  cases is_after
  rwa [same]

theorem findHolder_inBucket {d : Decoder} {g : Gate} {key : Nat} {h : Holder} (found : findHolder d g = some (key, h)) :
    (bucketOf h.decoder).val = bucketOfKey key := by
  obtain ⟨-, rfl, bucket⟩ := findHolder_some found
  exact bucket.symm

theorem rewriteHolder_inBuckets {d : Decoder} {key : Nat} {h after : Holder} {g : Gate} (placed : InBuckets g.holders)
    (found : findHolder d g = some (key, h)) (same : after.decoder = h.decoder) :
    InBuckets (rewriteHolder key h after g).holders :=
  changeRecord_inBuckets_of_decoder placed (findHolder_inBucket found) same

/-- R83: a new record of a decoder, where the placement puts it. -/
theorem newRecord_inBuckets {d : Decoder} {key : Nat} {record : Holder} {g : Gate} (placed : InBuckets g.holders)
    (free : placement d g = .ok key) (own : record.decoder = d) :
    InBuckets (changeRecord key none (some record) g).holders := by
  refine changeRecord_inBuckets placed (fun h is_record => ?_)
  cases is_record
  rw [own, bucketOfKey_of_placement free]

@[simp] theorem countRefusal_holders (r : Result) (g : Gate) : (countRefusal r g).holders = g.holders := by
  unfold countRefusal
  split <;> rfl

@[simp] theorem bumpEach_holders (k : EventCounter) (set : EventSet) (g : Gate) :
    (bumpEach k set g).holders = g.holders := by
  have counted (e : EventIndex) (acc : Gate) :
      (if set.getLsbD e.val then bumpEvent e k acc else acc).holders = acc.holders := by
    split <;> rfl
  rw [bumpEach, foldl_holders counted]

@[simp] theorem answerChanged_gate (changed : Bool) (g : Gate) : (answerChanged changed g).gate = g := rfl

theorem forced_decoder (grant : Bool) (named : EventSet) (h : Holder) : (h.forced grant named).decoder = h.decoder := by
  cases grant <;> rfl

/-! ### Purchase items (R104–R109) -/

theorem buyFor_inBuckets {e : EventIndex} {z : ZoneIndex} {item : PurchaseItem} {g : Gate}
    (placed : InBuckets g.holders) : InBuckets (buyFor e z item g).2.holders := by
  have held {key : Nat} {h : Holder} (found : findHolder item.decoder g = some (key, h)) :
      InBuckets (buyHeld e z item key h g).2.holders := by
    unfold buyHeld
    split
    · exact placed
    · split
      · exact placed
      · split
        · exact placed
        · exact changeRecord_inBuckets_of_decoder placed (findHolder_inBucket found) rfl
  have new : InBuckets (buyNew e z item g).2.holders := by
    unfold buyNew
    split
    · simpa using placed
    · next free =>
      dsimp only
      rw [bumpEvent_holders, bump_holders]
      exact newRecord_inBuckets placed free rfl
  unfold buyFor
  split
  · exact placed
  · split
    · exact placed
    · split
      · exact placed
      · split
        · next found => exact held found
        · exact new

theorem buyItem_inBuckets {item : PurchaseItem} {g : Gate} (placed : InBuckets g.holders) :
    InBuckets (buyItem item g).2.holders := by
  unfold buyItem
  split
  · exact placed
  · split
    · split
      · exact placed
      · exact buyFor_inBuckets placed
    · exact placed

theorem purchaseItem_inBuckets {g : Gate} (placed : InBuckets g.holders) : InBuckets (purchaseItem g).holders := by
  have after (tag : Half) (left : List PurchaseItem) (results : List Result) (h : Gate) :
      (afterItem tag left results h).holders = h.holders := by
    cases left <;> rfl
  unfold purchaseItem takeItem
  split
  · split
    · dsimp only
      rw [after]
      exact buyItem_inBuckets placed
    · exact placed
  · exact placed

/-! ### Commands on holder records (R95, R96, R110–R116) -/

theorem cancel_inBuckets {q : Request} {g : Gate} (placed : InBuckets g.holders) :
    InBuckets (cancel q g).gate.holders := by
  unfold cancel
  dsimp only
  split
  · exact placed
  · split
    · exact placed
    · split
      · exact placed
      · split
        · exact placed
        · rw [cancelSets, answerChanged_gate, bumpEach_holders]
          exact rewriteHolder_inBuckets placed ‹findHolder _ g = some _› rfl

theorem putHolder_inBuckets {q : Request} {g : Gate} (placed : InBuckets g.holders) :
    InBuckets (putHolder q g).gate.holders := by
  have put (d : Decoder) (z : ZoneIndex) (region : Half) (exempt : Bool) (bought : EventSet) :
      InBuckets (putRecord d z region exempt bought g).gate.holders := by
    unfold putRecord
    split
    · next found => exact rewriteHolder_inBuckets placed found rfl
    · split
      · simpa using placed
      · next free => exact newRecord_inBuckets placed free rfl
  unfold putHolder
  dsimp only
  split
  · exact placed
  · split
    · exact placed
    · split
      · exact placed
      · split
        · exact placed
        · exact put _ _ _ _ _

theorem dropHolder_inBuckets {q : Request} {g : Gate} (placed : InBuckets g.holders) :
    InBuckets (dropHolder q g).gate.holders :=
  withHolder_gate (P := fun h => InBuckets h.holders) placed
    (fun _ key h _ => changeRecord_inBuckets (key := key) (before := some h) (after := none) placed
      (fun _ gone => nomatch gone))

theorem force_inBuckets {q : Request} {g : Gate} (placed : InBuckets g.holders) :
    InBuckets (force q g).gate.holders := by
  refine withOverride_gate (P := fun h => InBuckets h.holders) placed (fun d key h grant named found => ?_)
  rw [answerChanged_gate, bumpEach_holders]
  exact rewriteHolder_inBuckets placed found (forced_decoder grant named h)

theorem release_inBuckets {q : Request} {g : Gate} (placed : InBuckets g.holders) :
    InBuckets (release q g).gate.holders := by
  refine withOverride_gate (P := fun h => InBuckets h.holders) placed (fun d key h keep named found => ?_)
  rw [answerChanged_gate, bumpEach_holders]
  exact rewriteHolder_inBuckets placed found rfl

theorem bar_inBuckets {q : Request} {g : Gate} (placed : InBuckets g.holders) : InBuckets (bar q g).gate.holders := by
  refine withHolder_gate (P := fun h => InBuckets h.holders) placed (fun d key h found => ?_)
  split
  · exact placed
  · rw [answerChanged_gate, bump_holders, purgeDecoder_holders]
    exact rewriteHolder_inBuckets placed found rfl

theorem unbar_inBuckets {q : Request} {g : Gate} (placed : InBuckets g.holders) :
    InBuckets (unbar q g).gate.holders := by
  refine withHolder_gate (P := fun h => InBuckets h.holders) placed (fun d key h found => ?_)
  split
  · exact rewriteHolder_inBuckets placed found rfl
  · exact placed

/-! ### The maintenance walker (R88–R94) -/

theorem applyTo_inBuckets {task : Task} {key : Nat} {h : Holder} {g : Gate} (placed : InBuckets g.holders)
    (held : (bucketOf h.decoder).val = bucketOfKey key) : InBuckets (task.applyTo key h g).holders := by
  cases task with
  | retire e carried =>
    show InBuckets (retireRecord e key h g).holders
    unfold retireRecord
    split
    · exact placed
    · exact changeRecord_inBuckets_of_decoder placed held rfl
  | recount e =>
    show InBuckets (recountRecord e h g).holders
    unfold recountRecord
    split
    · rwa [(shiftShadow_delivers h.zone true g).holders]
    · exact placed
  | ageScan =>
    show InBuckets (ageRecord key h g).holders
    unfold ageRecord
    split
    · exact placed
    · split
      · split
        · exact changeRecord_inBuckets_of_decoder placed held rfl
        · exact changeRecord_inBuckets (after := none) placed (fun _ gone => nomatch gone)
      · split
        · exact placed
        · exact changeRecord_inBuckets_of_decoder placed held rfl

/-- R88: the records that a visit takes up stand in the visited bucket before it, and keep decoder and key through it. -/
theorem visitRecords_inBuckets {task : Task} {g : Gate} (placed : InBuckets g.holders) :
    InBuckets (visitRecords task g).holders :=
  List.foldlRecOn (motive := fun acc : Gate => InBuckets acc.holders) _ _ placed
    (fun _ kept _ listed => applyTo_inBuckets kept (placed.of_get (get_of_mem_bucketRecords listed)))

theorem endWalk_holders (task : Task) (rest : List Task) (g : Gate) : (endWalk task rest g).holders = g.holders := by
  cases task <;> cases rest <;> rfl

theorem maintenanceVisit_inBuckets {g : Gate} (placed : InBuckets g.holders) :
    InBuckets (maintenanceVisit g).holders := by
  unfold maintenanceVisit makeVisit
  split
  · exact placed
  · split
    · dsimp only
      split
      · rw [endWalk_holders]
        exact visitRecords_inBuckets placed
      · exact visitRecords_inBuckets placed
    · exact placed

/-! ### Restart (Table 82) -/

theorem reformEvent_holders (e : EventIndex) (g : Gate) : (reformEvent e g).holders = g.holders := by
  have delivered : (reformDelivery e g).holders = g.holders := by
    unfold reformDelivery
    split
    · simp
    · split <;> simp
  have requeued (h : Gate) : (requeueTask e h).holders = h.holders := by
    unfold requeueTask
    split
    · rfl
    · simp
  exact (requeued _).trans delivered

theorem holdersRestarted_inBuckets {hold : Bool} {holders : List (Nat × Holder)} (placed : InBuckets holders) :
    InBuckets (holdersRestarted hold holders) := by
  cases hold with
  | true => exact placed
  | false =>
    intro entry listed
    obtain ⟨old, member, rfl⟩ := List.mem_map.1 listed
    exact placed old member

theorem restartNow_inBuckets {cause : Byte} {g : Gate} (placed : InBuckets g.holders) :
    InBuckets (restartNow cause g).holders := by
  have cut : (cutSave g).holders = g.holders := by
    unfold cutSave
    split <;> rfl
  rw [restartNow, foldl_holders reformEvent_holders]
  exact holdersRestarted_inBuckets (cut.symm ▸ placed)

/-! ## Every step keeps every record in its bucket -/

theorem inBuckets_of_onGate {f : Gate → Gate} {s t : State} (keeps : InBuckets (f s.gate).holders)
    (runs : s.onGate f = .next t) : InBuckets t.gate.holders := by
  cases runs
  exact keeps

theorem exec_inBuckets {i : Instr} {s t : State} (placed : InBuckets s.gate.holders) (runs : exec i s = .next t) :
    InBuckets t.gate.holders := by
  cases writes : writesHolders i with
  | false => rwa [exec_holders writes runs]
  | true =>
    cases i with
    | powerOn unitStraps zoneStraps fitted =>
      exact inBuckets_of_onGate (f := powerOn unitStraps zoneStraps fitted) (fun _ gone => nomatch gone) runs
    | purchaseItem => exact inBuckets_of_onGate (purchaseItem_inBuckets placed) runs
    | cancel => exact inBuckets_of_onGate (executeAtTable_table placed fun _ _ => cancel_inBuckets) runs
    | putHolder => exact inBuckets_of_onGate (executeAtTable_table placed fun _ _ => putHolder_inBuckets) runs
    | dropHolder => exact inBuckets_of_onGate (executeAtTable_table placed fun _ _ => dropHolder_inBuckets) runs
    | force => exact inBuckets_of_onGate (executeAtTable_table placed fun _ _ => force_inBuckets) runs
    | release => exact inBuckets_of_onGate (executeAtTable_table placed fun _ _ => release_inBuckets) runs
    | bar => exact inBuckets_of_onGate (executeAtTable_table placed fun _ _ => bar_inBuckets) runs
    | unbar => exact inBuckets_of_onGate (executeAtTable_table placed fun _ _ => unbar_inBuckets) runs
    | maintenanceVisit => exact inBuckets_of_onGate (maintenanceVisit_inBuckets placed) runs
    | restartStep =>
      refine inBuckets_of_onGate (f := restartStep) ?_ runs
      unfold restartStep
      split
      · exact restartNow_inBuckets placed
      · exact placed
    | restartLine =>
      refine inBuckets_of_onGate (f := restartLine) ?_ runs
      unfold restartLine
      split
      · exact placed
      · exact restartNow_inBuckets placed
    | _ => cases writes

theorem step_inBuckets {s t : State} (placed : InBuckets s.gate.holders) (stepped : step s = .next t) :
    InBuckets t.gate.holders := by
  unfold step at stepped
  split at stepped
  · cases stepped
    exact placed
  · next rest _ => exact exec_inBuckets (s := { s with pending := rest }) placed stepped

end Sys2Proof.Machine

namespace Sys2Proof.Proofs

open Sys2Proof.Machine Sys2Proof.Safety

/-- Settles O33: the bucket's bits, a lookup's four ways, and every step's record changes, which write a record only in a
way of its own decoder's bucket (R82, R83). -/
theorem bucketRule : Obligations.BucketRule := by
  unfold Obligations.BucketRule
  refine ⟨fun d => ⟨bucketOf_val d, decoder_high_lt d⟩, ?standing, ?stepped, ?lookup, ?found⟩
  case standing =>
    intro holders key h ok listed
    exact (InBuckets.of_get ok.bucket listed).symm
  case stepped =>
    intro s t key h ok runs listed
    exact (InBuckets.of_get (step_inBuckets ok.bucket runs) listed).symm
  case lookup =>
    intro d g h same
    exact findHolder_congr (fun way listed => same way (mem_allWays.1 listed))
  case found =>
    intro d g key h hit
    exact findHolder_some hit

end Sys2Proof.Proofs

/-! PROOF. Eligibility and grant-eligibility (R100–R102), what an offer does to a fresh queue (R140), when the fresh rule
offers a sheet's listed entry (R141), and the statement EligibilityAndFreshRule built from these. -/

namespace Sys2Proof.Machine

open Sys2Proof.Claims

/-! ## Eligibility (R100–R102) -/

theorem Range.covers_iff (range : Range) (region : Half) :
    range.covers region = true ↔ range.low ≤ region ∧ region ≤ range.high := by
  simp [Range.covers]

theorem Event.blacksRegion_eq_false_iff (ev : Event) (region : Half) :
    ev.blacksRegion region = false ↔ ∀ range ∈ ev.ranges, ¬ (range.low ≤ region ∧ region ≤ range.high) := by
  simp only [Event.blacksRegion, List.any_eq_false, Range.covers_iff]

theorem eligible_iff (h : Holder) (e : EventIndex) (ev : Event) :
    eligible h e ev = true ↔
      h.barred = false ∧ (h.exempt = true ∨ ev.blacksRegion h.region = false) ∧
        (h.grants.getLsbD e.val = true ∨ (h.bought.getLsbD e.val = true ∧ h.denies.getLsbD e.val = false)) := by
  simp only [eligible, Bool.and_eq_true, Bool.or_eq_true, Bool.not_eq_true', and_assoc]

theorem grantEligible_iff (h : Holder) (e : EventIndex) (ev : Event) :
    grantEligible h e ev = true ↔ eligible h e ev = true ∧ ev.masks h.zone = false := by
  simp only [grantEligible, Bool.and_eq_true, Bool.not_eq_true']

/-! ## An offer to a fresh queue (R140) -/

section OfferFresh

variable {entry : FreshEntry} {z : ZoneIndex} {g : Gate}

theorem offerFresh_merged (held : entry ∈ (g.zone z).fresh) :
    offerFresh entry z g = modZone z (Zone.countBy .mergedEntries 1) g :=
  if_pos held

theorem offerFresh_refused (absent : entry ∉ (g.zone z).fresh) (full : Config.freshQueueSize ≤ (g.zone z).fresh.length) :
    offerFresh entry z g = modZone z (Zone.countBy .freshOverflows 1) g :=
  (if_neg absent).trans (if_pos full)

theorem offerFresh_joined (absent : entry ∉ (g.zone z).fresh) (room : (g.zone z).fresh.length < Config.freshQueueSize) :
    offerFresh entry z g
      = modZone z (fun zone => Zone.countBy .entriesQueued 1 { zone with fresh := zone.fresh ++ [entry] }) g :=
  (if_neg absent).trans (if_neg (Nat.not_le_of_lt room))

end OfferFresh

/-! ## The fresh rule (R141) -/

/-- Table 29: the LISTED phases. -/
theorem Phase.mode_eq_listedGrant_iff (p : Phase) : p.mode = .listedGrant ↔ p ∈ [Phase.live, .extra, .windDown] := by
  cases p <;> decide

theorem Leg.willReach_iff (leg : Leg) (b : Bucket) :
    leg.willReach b = true ↔
      leg.walking = true ∧ ¬ ((b.val + 8192 - leg.join.val) % 8192 < 8192 - leg.remaining.val) := by
  cases walking : leg.walking <;> simp [Leg.willReach, Leg.visited, walking]

section FreshRule

variable {h : Holder} {e : EventIndex} {slot : SheetSlot} {g : Gate}

theorem freshRule_of_listed (listed : (g.event e).phase.mode = .listedGrant) :
    freshRule h e g = freshForSheet h e .pending (freshForSheet h e .current g) :=
  if_pos listed

theorem freshRule_of_not_listed (unlisted : (g.event e).phase.mode ≠ .listedGrant) : freshRule h e g = g :=
  if_neg unlisted

theorem freshForSheet_of_no_sheet (empty : g.sheet e slot = none) : freshForSheet h e slot g = g := by
  simp only [freshForSheet, empty]

theorem legAhead_iff_willReach {leg : Leg} (held : g.leg e slot = some leg) (d : Decoder) :
    LegAhead g e slot d ↔ leg.willReach (bucketOf d) = true := by
  simp only [LegAhead, held, Option.some.injEq, exists_eq_left', Leg.willReach_iff]

theorem freshForSheet_of_legAhead (ahead : LegAhead g e slot h.decoder) : freshForSheet h e slot g = g := by
  have ⟨leg, walker, _⟩ := ahead
  rw [legAhead_iff_willReach walker] at ahead
  cases held : g.sheet e slot with
  | none => exact freshForSheet_of_no_sheet held
  | some sheet => simp only [freshForSheet, held, walker, if_pos ahead]

theorem freshForSheet_of_not_legAhead {sheet : Sheet} (held : g.sheet e slot = some sheet)
    (passed : ¬ LegAhead g e slot h.decoder) :
    freshForSheet h e slot g = offerFresh (listedEntry h.decoder e sheet.number) h.zone g := by
  cases walker : g.leg e slot with
  | none => simp only [freshForSheet, held, walker]
  | some leg =>
    rw [legAhead_iff_willReach walker] at passed
    simp only [freshForSheet, held, walker, if_neg passed]

end FreshRule

end Sys2Proof.Machine

namespace Sys2Proof.Proofs

open Sys2Proof.Machine

/-- Settles O32: eligibility by its three conditions, an offer by what its queue holds, and the fresh rule by the phase, the
sheet and the sheet's leg (R100–R102, R140, R141). -/
theorem eligibilityAndFreshRule : Obligations.EligibilityAndFreshRule := by
  unfold Obligations.EligibilityAndFreshRule
  refine ⟨fun h e ev => ⟨?eligibility, grantEligible_iff h e ev⟩,
    fun entry z g => ⟨offerFresh_merged, offerFresh_refused, offerFresh_joined⟩, ?unlisted, ?listed,
    fun h e slot g => freshForSheet_of_no_sheet, ?sheet⟩
  case eligibility => rw [eligible_iff, Event.blacksRegion_eq_false_iff]
  case unlisted =>
    intro h e g outside
    exact freshRule_of_not_listed (mt (Phase.mode_eq_listedGrant_iff _).1 outside)
  case listed =>
    intro h e g inside
    exact freshRule_of_listed ((Phase.mode_eq_listedGrant_iff _).2 inside)
  case sheet =>
    intro h e slot g sheet held
    exact ⟨freshForSheet_of_legAhead, freshForSheet_of_not_legAhead held⟩

end Sys2Proof.Proofs

/-! PROOF. The hold line of a zone (R154): what a hold message does in each of its cases, what a power-on and a restart
leave of a Zone Output Unit (Tables 68 and 82), and the statement HoldMessagesReplaceTheHoldCount built from these. -/

namespace Sys2Proof.Machine

/-! ## HOLD_MESSAGE, case by case (R154) -/

section HoldMessage

variable {z : ZoneIndex} {g : Gate}

theorem holdMessage_taken (driven : g.driven z = true) (count : Half) :
    holdMessage z (some count) g
      = modZone z (fun zone => Zone.countBy .holdMessages 1 { zone with hold := count }) g :=
  if_pos driven

theorem holdMessage_dropped (driven : g.driven z = true) :
    holdMessage z none g = modZone z (Zone.countBy .holdLineErrors 1) g :=
  if_pos driven

theorem holdMessage_undriven (undriven : g.driven z = false) (value : Option Half) : holdMessage z value g = g :=
  if_neg (Bool.eq_false_iff.1 undriven)

theorem exec_holdMessage (z : ZoneIndex) (value : Option Half) (s : State) :
    exec (.holdMessage z value) s = .next { s with gate := holdMessage z value s.gate } := rfl

end HoldMessage

/-! ## The Zone Output Units at power-on (Table 68) -/

theorem powerOn_zone (unitStraps : Byte) (zoneStraps : BitVec 2) (fitted : Option (List Byte)) (g : Gate)
    (z : ZoneIndex) : (powerOn unitStraps zoneStraps fitted g).zone z = Zone.powerOn := by
  simp [powerOn, Gate.atPowerOn, Gate.zone]

/-! ## The Zone Output Units at a restart (Table 82) -/

@[simp] theorem cutSave_zone (g : Gate) (z : ZoneIndex) : (cutSave g).zone z = g.zone z := by
  unfold cutSave
  split <;> rfl

@[simp] theorem clearBlocks_zone (g : Gate) (z : ZoneIndex) : (clearBlocks g).zone z = (g.zone z).restarted := by
  simp [clearBlocks, Gate.zone]

@[simp] theorem postRestarted_zone (cause : Byte) (g : Gate) (z : ZoneIndex) :
    (postRestarted cause g).zone z = g.zone z := rfl

@[simp] theorem setTasks_zone (tasks : List Task) (g : Gate) (z : ZoneIndex) :
    (setTasks tasks g).zone z = g.zone z := by
  rw [setTasks_eq_upkeep]
  rfl

@[simp] theorem requeueTask_zone (e : EventIndex) (g : Gate) (z : ZoneIndex) :
    (requeueTask e g).zone z = g.zone z := by
  unfold requeueTask
  split
  · rfl
  · rw [setTasks_zone, modEvent_zone]

theorem reofferPending_delivers (e : EventIndex) (g : Gate) : Delivers g (reofferPending e g) := by
  unfold reofferPending
  split
  · split
    · exact openOffer_delivers e .pending g
    · exact Delivers.refl g
  · exact Delivers.refl g

theorem reformDelivery_delivers (e : EventIndex) (g : Gate) : Delivers g (reformDelivery e g) := by
  unfold reformDelivery
  split
  · exact (joinLeg_delivers e .current g).trans (rejoinPending_delivers e _)
  · split
    · exact ((openOffer_delivers e .current g).trans (reofferPending_delivers e _)).trans (setOpenRepeat_delivers e _)
    · exact Delivers.refl g

/-- R58: the delivery that is re-formed changes the queues of a zone, its counters and its LATE_RISK flag alone; the task
queued beside it changes no zone. -/
theorem reformEvent_zoneKept (e : EventIndex) (g : Gate) (z : ZoneIndex) :
    ZoneKept (g.zone z) ((reformEvent e g).zone z) := by
  rw [reformEvent, requeueTask_zone]
  exact (reformDelivery_delivers e g).zone z

/-- Table 82: a zone after a restart is the restarted zone, but for what the delivery re-formed after it changes. -/
theorem restartNow_zoneKept (cause : Byte) (g : Gate) (z : ZoneIndex) :
    ZoneKept (g.zone z).restarted ((restartNow cause g).zone z) := by
  have cleared : ZoneKept (g.zone z).restarted ((postRestarted cause (clearBlocks (cutSave g))).zone z) := by
    rw [postRestarted_zone, clearBlocks_zone, cutSave_zone]
    exact ZoneKept.refl _
  exact List.foldlRecOn (motive := fun acc : Gate => ZoneKept (g.zone z).restarted (acc.zone z)) allEvents _ cleared
    (fun acc kept e _ => kept.trans (reformEvent_zoneKept e acc z))

theorem restartNow_hold (cause : Byte) (g : Gate) (z : ZoneIndex) : ((restartNow cause g).zone z).hold = 0 :=
  (restartNow_zoneKept cause g z).hold

theorem restartLine_of_loaded {g : Gate} (loaded : g.loader.loading = false) : restartLine g = restartNow 0x02 g :=
  if_neg (Bool.eq_false_iff.1 loaded)

theorem restartStep_of_due {g : Gate} (restarting : g.command.work = .restarting) (sent : g.command.replies = []) :
    restartStep g = restartNow 0x01 g :=
  if_pos ⟨restarting, sent⟩

end Sys2Proof.Machine

namespace Sys2Proof.Proofs

open Sys2Proof.Machine

/-- Settles O59: a hold message by the zone's being driven and the message's being taken whole, and the hold count that
power-on and the two ways to a restart leave (R154). -/
theorem holdMessagesReplaceTheHoldCount : Obligations.HoldMessagesReplaceTheHoldCount := by
  unfold Obligations.HoldMessagesReplaceTheHoldCount
  refine ⟨fun s z => ⟨fun driven => ⟨fun value => ?taken, ?dropped⟩, fun undriven value => ?undriven⟩,
    ?powerOn, ?restartLine, ?restartStep⟩
  case taken => rw [exec_holdMessage, holdMessage_taken driven]
  case dropped => rw [exec_holdMessage, holdMessage_dropped driven]
  case undriven => rw [exec_holdMessage, holdMessage_undriven undriven]
  case powerOn =>
    intro s t unit zones fitted z runs
    cases runs
    exact congrArg Zone.hold (powerOn_zone unit zones fitted s.gate z)
  case restartLine =>
    intro s t z loaded runs
    cases runs
    change ((restartLine s.gate).zone z).hold = 0
    rw [restartLine_of_loaded loaded, restartNow_hold]
  case restartStep =>
    intro s t z restarting sent runs
    cases runs
    change ((restartStep s.gate).zone z).hold = 0
    rw [restartStep_of_due restarting sent, restartNow_hold]

end Sys2Proof.Proofs

/-! PROOF. READ_COUNTERS (R175): which index a command's object byte names, what the command answers at each of its
checks, the reply and the clear of each group, and the statement ReadCountersReturnsAndClears built from these. -/

namespace Sys2Proof.Machine

open Sys2Proof.Safety Sys2Proof.Claims

/-! ## The objects that a command names (R169, R175) -/

theorem mem_allZones (z : ZoneIndex) : z ∈ allZones := by
  revert z
  decide

/-- R169: straps of v drive the zones 0 to v. -/
theorem driven_iff_le_straps (g : Gate) (z : ZoneIndex) : g.driven z = true ↔ z.val ≤ g.loader.zoneStraps.toNat := by
  simp [Gate.driven, Gate.zoneCount]

theorem strappedZone_of_driven {g : Gate} {z : ZoneIndex} {object : Byte} (named : z.val = object.toNat)
    (driven : g.driven z = true) : g.strappedZone object = some z := by
  cases found : g.strappedZone object with
  | none =>
    have absent := List.find?_eq_none.1 found z (mem_allZones z)
    exact absurd (by simp [named, driven]) absent
  | some other =>
    have ⟨same, _⟩ : other.val = object.toNat ∧ g.driven other = true := by simpa using List.find?_some found
    rw [Fin.ext (same.trans named.symm)]

theorem strappedZone_above_straps {g : Gate} {object : Byte} (above : g.loader.zoneStraps.toNat < object.toNat) :
    g.strappedZone object = none := by
  refine List.find?_eq_none.2 fun z _ found => ?_
  have ⟨named, driven⟩ : z.val = object.toNat ∧ g.driven z = true := by simpa using found
  have below := (driven_iff_le_straps g z).1 driven
  omega

theorem eventOfByte_of_named {e : EventIndex} {object : Byte} (named : e.val = object.toNat) :
    eventOfByte object = some e := by
  cases found : eventOfByte object with
  | none =>
    have absent := List.find?_eq_none.1 found e (mem_allEvents e)
    exact absurd (by simp [named]) absent
  | some other =>
    have same : other.val = object.toNat := by simpa using List.find?_some found
    rw [Fin.ext (same.trans named.symm)]

theorem eventOfByte_above {object : Byte} (above : 23 < object.toNat) : eventOfByte object = none := by
  refine List.find?_eq_none.2 fun e _ found => ?_
  have named : e.val = object.toNat := by simpa using found
  omega

/-! ## What the leaving command keeps (R171) -/

@[simp] theorem leaveQueue_counters (g : Gate) : (leaveQueue g).counters = g.counters := by
  rw [leaveQueue_eq]
@[simp] theorem leaveQueue_zone (g : Gate) (z : ZoneIndex) : (leaveQueue g).zone z = g.zone z := by
  rw [leaveQueue_eq]; rfl
@[simp] theorem leaveQueue_loader (g : Gate) : (leaveQueue g).loader = g.loader := by
  rw [leaveQueue_eq]

/-! ## READ_COUNTERS, check by check (R175) -/

/-- R175: the ranges of a READ_COUNTERS body: its group, its clear byte, and its object as the group has it. -/
def CountersInRange (body : List Byte) (g : Gate) : Prop :=
  (byteAt body 0).toNat ≤ 2 ∧ (byteAt body 2).toNat ≤ 1 ∧
    ((byteAt body 0).toNat = 1 → (byteAt body 1).toNat ≤ g.loader.zoneStraps.toNat) ∧
    ((byteAt body 0).toNat = 2 → (byteAt body 1).toNat ≤ 23)

section ReadCounters

variable {q : Request} {g : Gate}

theorem readCounters_badForm (form : q.length ≠ 3) : readCounters q g = refuse .badForm g :=
  if_pos form

/-- Past the checks on its length, its group and its clear byte a READ_COUNTERS is answered by the group. -/
theorem readCounters_of_group (form : q.length = 3) (group : (byteAt q.body 0).toNat ≤ 2)
    (clear : (byteAt q.body 2).toNat ≤ 1) :
    readCounters q g =
      if byteAt q.body 0 = 0 then readPartCounters (byteAt q.body 2 = 1) g
      else if byteAt q.body 0 = 1 then
        ((g.strappedZone (byteAt q.body 1)).map fun z => readZoneCounters z (byteAt q.body 2 = 1) g).getD
          (refuse .range g)
      else
        ((eventOfByte (byteAt q.body 1)).map fun e => readEventCounters e (byteAt q.body 2 = 1) g).getD
          (refuse .range g) := by
  have inside : ¬ (2 < (byteAt q.body 0).toNat ∨ 1 < (byteAt q.body 2).toNat) := by omega
  unfold readCounters
  simp only [form, inside, ne_eq, not_true_eq_false, if_false]
  cases g.strappedZone (byteAt q.body 1) <;> cases eventOfByte (byteAt q.body 1) <;> rfl

theorem readCounters_part (form : q.length = 3) (inRange : CountersInRange q.body g)
    (group : (byteAt q.body 0).toNat = 0) :
    readCounters q g = readPartCounters (byteAt q.body 2 = 1) g := by
  obtain ⟨known, clear, -⟩ := inRange
  have part : byteAt q.body 0 = 0 := BitVec.eq_of_toNat_eq group
  rw [readCounters_of_group form known clear, if_pos part]

theorem readCounters_zone {z : ZoneIndex} (form : q.length = 3) (inRange : CountersInRange q.body g)
    (group : (byteAt q.body 0).toNat = 1) (named : z.val = (byteAt q.body 1).toNat) :
    readCounters q g = readZoneCounters z (byteAt q.body 2 = 1) g := by
  obtain ⟨known, clear, object, -⟩ := inRange
  have zone : byteAt q.body 0 = 1 := BitVec.eq_of_toNat_eq group
  have driven : g.driven z = true := (driven_iff_le_straps g z).2 (named ▸ object group)
  rw [readCounters_of_group form known clear, strappedZone_of_driven named driven]
  simp [zone]

theorem readCounters_event {e : EventIndex} (form : q.length = 3) (inRange : CountersInRange q.body g)
    (group : (byteAt q.body 0).toNat = 2) (named : e.val = (byteAt q.body 1).toNat) :
    readCounters q g = readEventCounters e (byteAt q.body 2 = 1) g := by
  obtain ⟨known, clear, -⟩ := inRange
  have event : byteAt q.body 0 = 2 := BitVec.eq_of_toNat_eq group
  rw [readCounters_of_group form known clear, eventOfByte_of_named named]
  simp [event]

theorem readCounters_range (form : q.length = 3) (outside : ¬ CountersInRange q.body g) :
    readCounters q g = refuse .range g := by
  by_cases checked : (byteAt q.body 0).toNat ≤ 2 ∧ (byteAt q.body 2).toNat ≤ 1
  · obtain ⟨known, clear⟩ := checked
    have named : ((byteAt q.body 0).toNat = 1 ∧ g.loader.zoneStraps.toNat < (byteAt q.body 1).toNat) ∨
        ((byteAt q.body 0).toNat = 2 ∧ 23 < (byteAt q.body 1).toNat) := by
      unfold CountersInRange at outside
      omega
    rw [readCounters_of_group form known clear]
    obtain ⟨group, above⟩ | ⟨group, above⟩ := named
    · have zone : byteAt q.body 0 = 1 := BitVec.eq_of_toNat_eq group
      simp [zone, strappedZone_above_straps above]
    · have event : byteAt q.body 0 = 2 := BitVec.eq_of_toNat_eq group
      simp [event, eventOfByte_above above]
  · have unknown : 2 < (byteAt q.body 0).toNat ∨ 1 < (byteAt q.body 2).toNat := by omega
    simp [readCounters, form, unknown]

end ReadCounters

/-! ## The groups read (R175, Table 78) -/

/-- R175: an object byte is told back as it was named. -/
theorem ofNat_of_named {n : Nat} {object : Byte} (named : n = object.toNat) : BitVec.ofNat 8 n = object := by
  rw [named, BitVec.ofNat_toNat, BitVec.setWidth_eq]

/-- The reply tells the group's number of counters. -/
theorem countersBody_toList {n : Nat} (group object : Byte) (counters : Vector Counter n) :
    countersBody group object counters.toList
      = [group, object, BitVec.ofNat 8 n] ++ counters.toList.flatMap (fun c => field 4 c.toNat) := by
  simp [countersBody]

/-- With the clear option the part-level counters alone are set to 0. -/
theorem readPartCounters_gate (clear : Bool) (g : Gate) :
    (readPartCounters clear g).gate = { g with counters := if clear then Vector.replicate 37 0 else g.counters } := by
  cases clear <;> rfl

end Sys2Proof.Machine

namespace Sys2Proof.Proofs

open Sys2Proof.Machine Sys2Proof.Safety Sys2Proof.Claims

/-- Settles O52: READ_COUNTERS by its checks, and past them by the group that it names, whose reply and whose clear each
meaning states (R175). -/
theorem readCountersReturnsAndClears : Obligations.ReadCountersReturnsAndClears := by
  unfold Obligations.ReadCountersReturnsAndClears
  intro s q begins coded
  have runs : exec .readCounters s = .next (answered s q (readCounters q (leaveQueue s.gate))) :=
    executeCommand_of_begins begins coded
  have ranges : CountersInRange q.body (leaveQueue s.gate) ↔ CountersInRange q.body s.gate := by
    simp [CountersInRange]
  dsimp only
  rw [runs]
  refine ⟨fun form => ?_, fun form outside => ?_, fun form inside => ?_⟩
  · rw [readCounters_badForm form, answered_refuse]
  · rw [readCounters_range form (fun within => outside (ranges.1 within)), answered_refuse]
  have inRange : CountersInRange q.body (leaveQueue s.gate) := ranges.2 inside
  refine ⟨fun group => ?part, fun z group named => ?zone, fun e group named => ?event⟩
  case part =>
    rw [readCounters_part form inRange group, answered, readPartCounters_gate, coded]
    simp [readPartCounters, countersBody_toList]
  case zone =>
    rw [readCounters_zone form inRange group named, answered, coded]
    simp [readZoneCounters, countersBody_toList, ofNat_of_named named]
  case event =>
    rw [readCounters_event form inRange group named, answered, coded]
    simp [readEventCounters, countersBody_toList, eventObject, ofNat_of_named named]

end Sys2Proof.Proofs

/-! PROOF. What every command does, as one change of the part: the statements about the machine's step, and the rule by
which an invariant of the part that every command keeps is kept by every step. -/

namespace Sys2Proof.Machine

/-- The change of the part that a command makes. -/
def effect : Instr → Gate → Gate
  | .powerOn unitStraps zoneStraps fitted => powerOn unitStraps zoneStraps fitted
  | .imageLoadEnd acknowledged => imageLoadEnd acknowledged
  | .inputCell step => cellStep step
  | .missingCell => missingCell
  | .nominalSlot => nominalSlot
  | .holdMessage zone value => holdMessage zone value
  | .siteClockTick => siteClockTick
  | .timeCell => timeCell
  | .windowClose => windowClose
  | .cueCell => cueCell
  | .phaseDeadlineExpiry event => phaseDeadlineExpiry event
  | .keyCell => keyCell
  | .promotion event => promotion event
  | .openLeadInstant event => openLeadInstant event
  | .openRepeat event => openRepeat event
  | .starvationInstant event => starvationInstant event
  | .legLate event slot => legLate event slot
  | .sweepVisit => sweepVisit
  | .maintenanceVisit => maintenanceVisit
  | .ageInstant => ageInstant
  | .managementCell => managementCell
  | .returnSlot => returnSlot
  | .unknownCommand => unknownCommand
  | .loadEvent => executeCommand 0x10 loadEvent
  | .amendEvent => executeCommand 0x11 amendEvent
  | .steerEvent => executeCommand 0x12 steerEvent
  | .retireEvent => executeCommand 0x13 retireEvent
  | .readEvent => executeCommand 0x14 readEvent
  | .purchase => purchase
  | .purchaseItem => purchaseItem
  | .cancel => executeAtTable 0x21 cancel
  | .putHolder => executeAtTable 0x22 putHolder
  | .dropHolder => executeAtTable 0x23 dropHolder
  | .force => executeAtTable 0x24 force
  | .release => executeAtTable 0x25 release
  | .bar => executeAtTable 0x26 bar
  | .unbar => executeAtTable 0x27 unbar
  | .readHolder => executeAtTable 0x28 readHolder
  | .dump => executeAtTable 0x29 dump
  | .setZone => executeCommand 0x30 setZone
  | .setProfile => executeCommand 0x31 setProfile
  | .setCueMap => executeCommand 0x32 setCueMap
  | .setTiming => executeCommand 0x33 setTiming
  | .readCounters => executeCommand 0x34 readCounters
  | .saveImage => saveImage
  | .saveImageEnd acknowledged => saveImageEnd acknowledged
  | .restart => restart
  | .restartStep => restartStep
  | .restartLine => restartLine

/-- Every command changes the part and leaves the commands that wait. -/
theorem exec_eq_effect (i : Instr) (s : State) : exec i s = .next { s with gate := effect i s.gate } := by
  cases i <;> rfl

theorem exec_next_iff {i : Instr} {s t : State} : exec i s = .next t ↔ t = { s with gate := effect i s.gate } := by
  rw [exec_eq_effect, Host.Outcome.next.injEq, eq_comm]

theorem step_of_idle {s : State} (idle : s.pending = []) : step s = .next s := by
  simp [step, idle]

theorem step_of_front {s : State} {c : Instr} {rest : List Instr} (front : s.pending = c :: rest) :
    step s = exec c { s with pending := rest } := by
  simp [step, front]

/-- A property of the part that every command keeps is kept by every step. -/
theorem step_keeps {P : Gate → Prop} (keeps : ∀ i g, P g → P (effect i g)) {s t : State} (held : P s.gate)
    (stepped : step s = .next t) : P t.gate := by
  cases front : s.pending with
  | nil =>
    rw [step_of_idle front] at stepped
    cases stepped
    exact held
  | cons c rest =>
    rw [step_of_front front, exec_eq_effect] at stepped
    cases stepped
    exact keeps c s.gate held

end Sys2Proof.Machine

namespace Sys2Proof.Proofs

open Sys2Proof.Machine Sys2Proof.Safety Sys2Proof.Claims

/-- Settles O1: by the two cases of the queue of waiting commands. -/
theorem stepRunsTheFrontCommand : Obligations.StepRunsTheFrontCommand :=
  ⟨fun _ _ _ front => step_of_front front, fun _ idle => step_of_idle idle⟩

/-- Settles O3: every command is a change of the part. -/
theorem everyCommandAnswersANextState : Obligations.EveryCommandAnswersANextState :=
  fun c s => ⟨_, exec_eq_effect c s, rfl⟩

end Sys2Proof.Proofs

/-! PROOF. What the input side and the zone outputs can change: a relation between the part before and after a slot, that
every slot step stands in it (R149, R153), and what an input cell can do besides (R10). -/

namespace Sys2Proof.Machine

open Sys2Proof.Safety

/-! ## The relation -/

/-- What a slot leaves of a Zone Output Unit: its settings and its LATE_RISK flag; its queues only lose entries. -/
structure ZoneEmits (a b : Zone) : Prop where
  share : b.share = a.share
  dark : b.dark = a.dark
  lateRisk : b.lateRisk = a.lateRisk
  fresh : b.fresh.Sublist a.fresh
  sweep : b.sweep.Sublist a.sweep

/-- A step of the input and the outputs alone: Intake, the zones, counters, status items and the count of free values. -/
structure Emits (g h : Gate) : Prop where
  gate : h = { g with
    freeDraws := h.freeDraws
    intake := h.intake
    zones := h.zones
    counters := h.counters
    command := { g.command with status := h.command.status } }
  status : StatusOk g → StatusOk h
  zone : ∀ z, ZoneEmits (g.zone z) (h.zone z)

theorem ZoneEmits.refl (a : Zone) : ZoneEmits a a :=
  ⟨rfl, rfl, rfl, List.Sublist.refl _, List.Sublist.refl _⟩

theorem ZoneEmits.trans {a b c : Zone} (p : ZoneEmits a b) (q : ZoneEmits b c) : ZoneEmits a c :=
  ⟨q.share.trans p.share, q.dark.trans p.dark, q.lateRisk.trans p.lateRisk, q.fresh.trans p.fresh,
    q.sweep.trans p.sweep⟩

theorem Emits.refl (g : Gate) : Emits g g :=
  ⟨rfl, id, fun _ => ZoneEmits.refl _⟩

theorem Emits.trans {g h k : Gate} (p : Emits g h) (q : Emits h k) : Emits g k :=
  ⟨by rw [q.gate, p.gate], q.status ∘ p.status, fun z => (p.zone z).trans (q.zone z)⟩

theorem forDrivenZones_emits {f : ZoneIndex → Gate → Gate} (emits : ∀ z g, Emits g (f z g)) (g : Gate) :
    Emits g (forDrivenZones f g) := by
  refine List.foldlRecOn (motive := Emits g) allZones _ (Emits.refl g) (fun acc before z _ => before.trans ?_)
  show Emits acc (if acc.driven z then f z acc else acc)
  split
  · exact emits z acc
  · exact Emits.refl acc

theorem modZone_emits (z : ZoneIndex) {f : Zone → Zone} {g : Gate} (h : ZoneEmits (g.zone z) (f (g.zone z))) :
    Emits g (modZone z f g) :=
  ⟨rfl, id, fun i => by
    rw [modZone_zone]
    split
    · rename_i same
      exact same ▸ h
    · exact ZoneEmits.refl _⟩

/-- A change of a zone that leaves settings, LATE_RISK flag and both queues. -/
theorem modZone_emits_of_frame (z : ZoneIndex) {f : Zone → Zone} (g : Gate)
    (frame : ∀ a, (f a).share = a.share ∧ (f a).dark = a.dark ∧ (f a).lateRisk = a.lateRisk ∧ (f a).fresh = a.fresh ∧
      (f a).sweep = a.sweep) : Emits g (modZone z f g) := by
  obtain ⟨share, dark, lateRisk, fresh, sweep⟩ := frame (g.zone z)
  exact modZone_emits z ⟨share, dark, lateRisk, fresh ▸ List.Sublist.refl _, sweep ▸ List.Sublist.refl _⟩

theorem countZone_emits (z : ZoneIndex) (k : ZoneCounter) (n : Nat) (g : Gate) :
    Emits g (modZone z (Zone.countBy k n) g) :=
  modZone_emits_of_frame z g (fun _ => ⟨rfl, rfl, rfl, rfl, rfl⟩)

theorem bump_emits (k : PartCounter) (g : Gate) : Emits g (bump k g) :=
  ⟨rfl, id, fun _ => ZoneEmits.refl _⟩

theorem intake_emits (intake : Intake) (g : Gate) : Emits g { g with intake := intake } :=
  ⟨rfl, id, fun _ => ZoneEmits.refl _⟩

theorem freeDraws_emits (n : Nat) (g : Gate) : Emits g { g with freeDraws := n } :=
  ⟨rfl, id, fun _ => ZoneEmits.refl _⟩

theorem post_emits (kind : StatusKind) (object : Byte) (detail : List Byte) (g : Gate) :
    Emits g (post kind object detail g) :=
  ⟨rfl, insertItem_pairwise _, fun _ => ZoneEmits.refl _⟩

/-! ## Notices and idle opportunities -/

/-- R145: what a packing leaves of a queue. -/
theorem packEntries_sublist (p : FreshEntry → Bool) (n : Nat) (queue : List FreshEntry) :
    (packEntries p n queue).2.Sublist queue := by
  induction queue generalizing n with
  | nil => cases n <;> exact List.Sublist.refl _
  | cons entry rest ih =>
    cases n with
    | zero => exact List.Sublist.refl _
    | succ n =>
      unfold packEntries
      split
      · exact (ih n).cons entry
      · exact (ih (n + 1)).cons_cons entry

theorem sendZone_emits (z : ZoneIndex) (cell : List Byte) (g : Gate) : Emits g (sendZone z cell g) :=
  modZone_emits_of_frame z g (fun _ => ⟨rfl, rfl, rfl, rfl, rfl⟩)

theorem sendNotice_emits (z : ZoneIndex) (body : List Byte) (g : Gate) : Emits g (sendNotice z body g) :=
  modZone_emits_of_frame z g (fun _ => ⟨rfl, rfl, rfl, rfl, rfl⟩)

theorem sendListed_emits (z : ZoneIndex) (head : FreshEntry) (g : Gate) : Emits g (sendListed z head g) :=
  (modZone_emits z ⟨rfl, rfl, rfl, packEntries_sublist .., List.Sublist.refl _⟩).trans (sendNotice_emits ..)

theorem sendFresh_emits {z : ZoneIndex} {head : FreshEntry} {rest : List FreshEntry} {g : Gate}
    (queue : (g.zone z).fresh = head :: rest) : Emits g (sendFresh z head rest g) := by
  unfold sendFresh
  split
  · exact sendListed_emits ..
  · exact (modZone_emits z ⟨rfl, rfl, rfl, queue ▸ List.sublist_cons_self _ _, List.Sublist.refl _⟩).trans
      (sendNotice_emits ..)

theorem sendSweep_emits {z : ZoneIndex} {head : Notice} {rest : List Notice} {g : Gate}
    (queue : (g.zone z).sweep = head :: rest) : Emits g (sendSweep z head rest g) :=
  (modZone_emits z ⟨rfl, rfl, rfl, List.Sublist.refl _, queue ▸ List.sublist_cons_self _ _⟩).trans
    (sendNotice_emits ..)

theorem arbitrate_emits (z : ZoneIndex) (g : Gate) : Emits g (arbitrate z g) := by
  unfold arbitrate
  split
  next sweep _ => exact sendSweep_emits sweep
  next sweep fresh =>
    split
    · exact sendSweep_emits sweep
    · exact sendFresh_emits fresh
  next _ fresh => exact sendFresh_emits fresh
  next => exact Emits.refl g

theorem countWindow_emits (z : ZoneIndex) (g : Gate) : Emits g (countWindow z g) := by
  unfold countWindow
  split
  · exact (freeDraws_emits ..).trans (modZone_emits_of_frame z _ (fun _ => ⟨rfl, rfl, rfl, rfl, rfl⟩))
  · exact modZone_emits_of_frame z g (fun _ => ⟨rfl, rfl, rfl, rfl, rfl⟩)

theorem sendIdle_emits (z : ZoneIndex) (g : Gate) : Emits g (sendIdle z g) :=
  (countZone_emits ..).trans (sendZone_emits ..)

theorem creditStep_emits (z : ZoneIndex) (g : Gate) : Emits g (creditStep z g) := by
  unfold creditStep
  dsimp only
  split
  · exact (arbitrate_emits z g).trans (modZone_emits_of_frame z _ (fun _ => ⟨rfl, rfl, rfl, rfl, rfl⟩))
  · refine Emits.trans ?_ (sendIdle_emits ..)
    exact modZone_emits_of_frame z g (fun _ => ⟨rfl, rfl, rfl, rfl, rfl⟩)

theorem idleOpportunity_emits (z : ZoneIndex) (g : Gate) : Emits g (idleOpportunity z g) := by
  unfold idleOpportunity
  split
  · exact (countWindow_emits z g).trans (creditStep_emits ..)
  · refine Emits.trans ?_ (sendZone_emits ..)
    exact modZone_emits_of_frame z g (fun _ => ⟨rfl, rfl, rfl, rfl, rfl⟩)

/-! ## Slots -/

theorem passCell_emits (z : ZoneIndex) (cell : List Byte) (g : Gate) : Emits g (passCell z cell g) :=
  (countZone_emits ..).trans (sendZone_emits ..)

theorem blankCell_emits (z : ZoneIndex) (g : Gate) : Emits g (blankCell z g) :=
  (countZone_emits ..).trans (idleOpportunity_emits ..)

/-- R150: a content cell is passed, or blanked with or without a count of the clear-leak guard. -/
theorem contentSlot_cases (e : EventIndex) (cell : List Byte) (z : ZoneIndex) (g : Gate) :
    contentSlot e cell z g = passCell z cell g ∨ contentSlot e cell z g = blankCell z g ∨
      contentSlot e cell z g = blankCell z (modZone z (Zone.countBy .clearLeakBlanks 1) g) := by
  unfold contentSlot
  split_ifs <;> simp

theorem takeSlot_emits (slot : Slot) (z : ZoneIndex) (g : Gate) : Emits g (takeSlot slot z g) := by
  cases slot with
  | idle => exact idleOpportunity_emits z g
  | free cell => exact passCell_emits z cell g
  | content e cell =>
    show Emits g (contentSlot e cell z g)
    rcases contentSlot_cases e cell z g with passed | blanked | guarded
    · exact passed ▸ passCell_emits ..
    · exact blanked ▸ blankCell_emits ..
    · exact guarded ▸ (countZone_emits ..).trans (blankCell_emits ..)
  | alternate e cell =>
    show Emits g (alternateSlot e cell z g)
    unfold alternateSlot
    split
    · exact modZone_emits_of_frame z g (fun _ => ⟨rfl, rfl, rfl, rfl, rfl⟩)
    · exact blankCell_emits z g

theorem catchUp_emits (z : ZoneIndex) (g : Gate) : Emits g (catchUp z g) := by
  unfold catchUp
  split
  · refine Emits.trans ?_ (takeSlot_emits ..)
    exact modZone_emits_of_frame z g (fun _ => ⟨rfl, rfl, rfl, rfl, rfl⟩)
  · exact Emits.refl g

theorem reachZone_emits (slot : Slot) (behind : BitVec 4) (z : ZoneIndex) (g : Gate) :
    Emits g (reachZone slot behind z g) := by
  unfold reachZone
  split
  · exact (catchUp_emits z g).trans (modZone_emits_of_frame z _ (fun _ => ⟨rfl, rfl, rfl, rfl, rfl⟩))
  · exact (catchUp_emits z g).trans (takeSlot_emits ..)

theorem giveSlot_emits (slot : Slot) (behind : BitVec 4) (g : Gate) : Emits g (giveSlot slot behind g) :=
  forDrivenZones_emits (reachZone_emits slot behind) g

theorem nominalSlot_emits (g : Gate) : Emits g (nominalSlot g) := by
  unfold nominalSlot
  split
  · exact forDrivenZones_emits sendIdle_emits g
  · split
    · exact giveSlot_emits ..
    · exact Emits.refl g

theorem holdMessage_emits (z : ZoneIndex) (value : Option Half) (g : Gate) : Emits g (holdMessage z value g) := by
  unfold holdMessage
  split
  · split
    · exact modZone_emits_of_frame z g (fun _ => ⟨rfl, rfl, rfl, rfl, rfl⟩)
    · exact countZone_emits ..
  · exact Emits.refl g

/-! ## Intake -/

theorem badSync_emits (g : Gate) : Emits g (badSync g) := by
  unfold badSync
  split
  · exact intake_emits ..
  · exact ((intake_emits ..).trans (bump_emits ..)).trans (post_emits ..)

theorem missingCell_emits (g : Gate) : Emits g (missingCell g) := by
  unfold missingCell
  split
  · exact Emits.refl g
  · split
    · exact ((bump_emits ..).trans (giveSlot_emits ..)).trans (badSync_emits _)
    · exact Emits.refl g
    · exact Emits.refl g

theorem huntCell_emits (cell : List Byte) (g : Gate) : Emits g (huntCell cell g) := by
  unfold huntCell
  split
  · split
    · exact intake_emits ..
    · exact (intake_emits ..).trans (post_emits ..)
  · exact intake_emits ..

theorem controlSlot_emits (kind : ControlKind) (cell : List Byte) (behind : BitVec 4) (g : Gate) :
    Emits g (controlSlot kind cell behind g) := by
  have continuity : Emits g (checkContinuity kind cell g) := by
    unfold checkContinuity
    dsimp only
    split
    · exact (bump_emits ..).trans (intake_emits ..)
    · exact intake_emits ..
  have body (h : Gate) : Emits h (checkBody kind cell h) := by
    unfold checkBody
    split
    · exact intake_emits ..
    · exact bump_emits ..
  exact (continuity.trans (body _)).trans (giveSlot_emits ..)

theorem dispatchCell_emits (cell : List Byte) (behind : BitVec 4) (g : Gate) :
    Emits g (dispatchCell cell behind g) := by
  have reserved : Emits g (reservedSlot cell behind g) := by
    unfold reservedSlot
    split
    · exact controlSlot_emits ..
    · split
      · exact controlSlot_emits ..
      · split
        · exact controlSlot_emits ..
        · split
          · exact giveSlot_emits ..
          · exact (bump_emits ..).trans (giveSlot_emits ..)
  unfold dispatchCell
  split
  · exact reserved
  · exact giveSlot_emits ..
  · exact giveSlot_emits ..
  · exact giveSlot_emits ..
  · exact controlSlot_emits ..

/-- R1, R3, R10: a framed cell while LOCKED changes the input side and the outputs; one that passes R1 does so once the
control cell that waits has reached its unit. -/
theorem lockedCell_cases (cell : List Byte) (behind : BitVec 4) (g : Gate) :
    Emits g (lockedCell cell behind g) ∨
      ∃ pre, Emits g pre ∧ Emits (deliverWaiting pre) (lockedCell cell behind g) := by
  unfold lockedCell
  split
  · exact .inl (((bump_emits ..).trans (giveSlot_emits ..)).trans (badSync_emits _))
  · dsimp only
    split
    · exact .inr ⟨_, intake_emits .., (intake_emits ..).trans (dispatchCell_emits ..)⟩
    · exact .inl (((intake_emits ..).trans (bump_emits ..)).trans (giveSlot_emits ..))

theorem inputCell_cases (cell : List Byte) (behind : BitVec 4) (g : Gate) :
    Emits g (inputCell cell behind g) ∨
      ∃ pre, Emits g pre ∧ Emits (deliverWaiting pre) (inputCell cell behind g) := by
  unfold inputCell
  split
  · exact .inl (Emits.refl g)
  · split
    · rcases lockedCell_cases cell behind (bump .cellsReceived g) with emits | ⟨pre, before, after⟩
      · exact .inl ((bump_emits ..).trans emits)
      · exact .inr ⟨pre, (bump_emits ..).trans before, after⟩
    · exact .inl ((bump_emits ..).trans (huntCell_emits ..))
    · exact .inl ((bump_emits ..).trans (huntCell_emits ..))

/-- R10: what the four units' steps and the slots keep, the delivery of a waiting control cell keeps. -/
theorem deliverWaiting_keeps {P : Gate → Prop} (time : ∀ g, P g → P (timeCell g)) (cue : ∀ g, P g → P (cueCell g))
    (management : ∀ g, P g → P (managementCell g)) (key : ∀ g, P g → P (keyCell g)) {g : Gate} (held : P g) :
    P (deliverWaiting g) := by
  unfold deliverWaiting
  split
  · exact time g held
  · exact cue g held
  · exact management g held
  · exact key g held
  · exact held

/-- What the slots and the four units' steps keep, the two steps of an input cell keep. -/
theorem cellStep_keeps {P : Gate → Prop} (emits : ∀ g h, Emits g h → P g → P h) (time : ∀ g, P g → P (timeCell g))
    (cue : ∀ g, P g → P (cueCell g)) (management : ∀ g, P g → P (managementCell g)) (key : ∀ g, P g → P (keyCell g))
    {step : CellStep} {g : Gate} (held : P g) : P (cellStep step g) := by
  cases step with
  | arrives cell behind =>
    show P (inputCell cell behind g)
    rcases inputCell_cases cell behind g with only | ⟨pre, before, after⟩
    · exact emits _ _ only held
    · exact emits _ _ after (deliverWaiting_keeps time cue management key (emits _ _ before held))
  | taken z =>
    show P (slotTaken z g)
    unfold slotTaken
    split
    · exact emits _ _ (catchUp_emits z g) held
    · exact held

end Sys2Proof.Machine

/-! PROOF. What most steps leave alone: a relation between the part before and after that the invariants and the clock's
statements are read off, and the steps of the clock, the Cue Unit, the Key Unit and the deadlines that stand in it. -/

namespace Sys2Proof.Machine

open Sys2Proof.Safety

/-! ## The relation -/

/-- What most steps keep of a Zone Output Unit: its share, its fresh queue's bounds, and no cell joins its sweep queue. -/
structure ZoneQuiet (a b : Zone) : Prop where
  share : b.share = a.share
  fresh : FreshOk a → FreshOk b
  sweep : b.sweep.Sublist a.sweep

/-- What most steps keep of an event record: number and lanes, and, where its resume phase fits, whether it is VACANT or
RETIRING, and that its resume phase fits. -/
structure EventQuiet (a b : Event) : Prop where
  number : b.number = a.number
  firstLane : b.firstLane = a.firstLane
  moreLanes : b.moreLanes = a.moreLanes
  keyLane : b.keyLane = a.keyLane
  alternateLane : b.alternateLane = a.alternateLane
  resume : resumeFits a → resumeFits b
  vacant : resumeFits a → (b.phase = .vacant ↔ a.phase = .vacant)
  retiring : resumeFits a → (b.phase = .retiring ↔ a.phase = .retiring)

/-- A step that leaves settings, lane table, command and reply queue and maintenance list, by which site time does not
fall, and which keeps what zones and event records keep above. -/
structure Quiet (g h : Gate) : Prop where
  loader : h.loader = g.loader
  settings : h.settings = g.settings
  lanes : h.lanes = g.lanes
  siteTime : g.clock.siteTime ≤ h.clock.siteTime
  isSet : g.clock.isSet = true → h.clock.isSet = true
  queue : h.command.queue = g.command.queue
  busy : h.command.busy = g.command.busy
  work : h.command.work = g.command.work
  replies : h.command.replies = g.command.replies
  tasks : h.upkeep.tasks = g.upkeep.tasks
  maintenance : h.upkeep.cursor = g.upkeep.cursor
  status : StatusOk g → StatusOk h
  zone : ∀ z, ZoneQuiet (g.zone z) (h.zone z)
  event : ∀ e, EventQuiet (g.event e) (h.event e)

theorem ZoneQuiet.refl (a : Zone) : ZoneQuiet a a :=
  ⟨rfl, id, List.Sublist.refl _⟩

theorem ZoneQuiet.trans {a b c : Zone} (p : ZoneQuiet a b) (q : ZoneQuiet b c) : ZoneQuiet a c :=
  ⟨q.share.trans p.share, q.fresh ∘ p.fresh, q.sweep.trans p.sweep⟩

theorem EventQuiet.refl (a : Event) : EventQuiet a a :=
  ⟨rfl, rfl, rfl, rfl, rfl, id, fun _ => Iff.rfl, fun _ => Iff.rfl⟩

theorem EventQuiet.trans {a b c : Event} (p : EventQuiet a b) (q : EventQuiet b c) : EventQuiet a c :=
  ⟨q.number.trans p.number, q.firstLane.trans p.firstLane, q.moreLanes.trans p.moreLanes, q.keyLane.trans p.keyLane,
    q.alternateLane.trans p.alternateLane, q.resume ∘ p.resume,
    fun fits => (q.vacant (p.resume fits)).trans (p.vacant fits),
    fun fits => (q.retiring (p.resume fits)).trans (p.retiring fits)⟩

theorem Quiet.refl (g : Gate) : Quiet g g :=
  ⟨rfl, rfl, rfl, BitVec.le_refl _, id, rfl, rfl, rfl, rfl, rfl, rfl, id, fun _ => ZoneQuiet.refl _,
    fun _ => EventQuiet.refl _⟩

theorem Quiet.trans {g h k : Gate} (p : Quiet g h) (q : Quiet h k) : Quiet g k :=
  ⟨q.loader.trans p.loader, q.settings.trans p.settings, q.lanes.trans p.lanes,
    BitVec.le_trans p.siteTime q.siteTime, q.isSet ∘ p.isSet, q.queue.trans p.queue,
    q.busy.trans p.busy, q.work.trans p.work, q.replies.trans p.replies, q.tasks.trans p.tasks,
    q.maintenance.trans p.maintenance, q.status ∘ p.status, fun z => (p.zone z).trans (q.zone z),
    fun e => (p.event e).trans (q.event e)⟩

theorem Quiet.foldl {α : Type} {f : α → Gate → Gate} (quiet : ∀ a g, Quiet g (f a g)) (items : List α) (g : Gate) :
    Quiet g (items.foldl (fun acc a => f a acc) g) :=
  List.foldlRecOn (motive := Quiet g) items _ (Quiet.refl g) (fun acc before a _ => before.trans (quiet a acc))

theorem forDrivenZones_quiet {f : ZoneIndex → Gate → Gate} (quiet : ∀ z g, Quiet g (f z g)) (g : Gate) :
    Quiet g (forDrivenZones f g) := by
  refine Quiet.foldl (f := fun z acc => if acc.driven z then f z acc else acc) (fun z acc => ?_) allZones g
  split
  · exact quiet z acc
  · exact Quiet.refl acc

theorem ZoneEmits.quiet {a b : Zone} (p : ZoneEmits a b) : ZoneQuiet a b :=
  ⟨p.share, fun ok => ⟨p.fresh.length_le.trans ok.1, ok.2.sublist p.fresh⟩, p.sweep⟩

/-- A slot step is a quiet one. -/
theorem Emits.quiet {g h : Gate} (p : Emits g h) : Quiet g h := by
  have event (e : EventIndex) : h.event e = g.event e := by rw [p.gate]; rfl
  refine ⟨?_, ?_, ?_, ?_, ?_, ?_, ?_, ?_, ?_, ?_, ?_, p.status, fun z => (p.zone z).quiet,
    fun e => event e ▸ EventQuiet.refl _⟩ <;> rw [p.gate]
  · exact BitVec.le_refl _
  · exact id

/-! ## Delivery that leaves the phases -/

/-- No event's phase or resume phase changes. -/
structure PhasesStay (g h : Gate) : Prop where
  phase : ∀ e, (h.event e).phase = (g.event e).phase
  resume : ∀ e, (h.event e).resumePhase = (g.event e).resumePhase

theorem PhasesStay.refl (g : Gate) : PhasesStay g g :=
  ⟨fun _ => rfl, fun _ => rfl⟩

theorem PhasesStay.trans {g h k : Gate} (p : PhasesStay g h) (q : PhasesStay h k) : PhasesStay g k :=
  ⟨fun e => (q.phase e).trans (p.phase e), fun e => (q.resume e).trans (p.resume e)⟩

theorem PhasesStay.foldl {α : Type} {f : α → Gate → Gate} (stay : ∀ a g, PhasesStay g (f a g)) (items : List α)
    (g : Gate) : PhasesStay g (items.foldl (fun acc a => f a acc) g) :=
  List.foldlRecOn (motive := PhasesStay g) items _ (PhasesStay.refl g) (fun acc before a _ => before.trans (stay a acc))

theorem PhasesStay.of_event {g h : Gate} (same : ∀ e, h.event e = g.event e) : PhasesStay g h :=
  ⟨fun e => congrArg Event.phase (same e), fun e => congrArg Event.resumePhase (same e)⟩

theorem PhasesStay.of_withoutDelivery {g h : Gate}
    (same : ∀ e, (h.event e).withoutDelivery = (g.event e).withoutDelivery) : PhasesStay g h :=
  ⟨fun e => (congrArg Event.phase (same e) :), fun e => (congrArg Event.resumePhase (same e) :)⟩

theorem modEvent_phasesStay (e : EventIndex) {f : Event → Event}
    (stay : ∀ ev, (f ev).phase = ev.phase ∧ (f ev).resumePhase = ev.resumePhase) (g : Gate) :
    PhasesStay g (modEvent e f g) := by
  refine ⟨fun i => ?_, fun i => ?_⟩ <;> rw [modEvent_event] <;> split
  · next same => exact same ▸ (stay _).1
  · rfl
  · next same => exact same ▸ (stay _).2
  · rfl

theorem EventKept.quiet {a b : Event} (kept : EventKept a b) (phase : b.phase = a.phase)
    (resume : b.resumePhase = a.resumePhase) : EventQuiet a b :=
  ⟨kept.number, kept.firstLane, kept.moreLanes, kept.keyLane, kept.alternateLane,
    fun fits => by unfold resumeFits at *; rwa [phase, resume], fun _ => by rw [phase], fun _ => by rw [phase]⟩

/-- A delivery operation is quiet where the event records' phases are. -/
theorem Delivers.quiet_of_events {g h : Gate} (d : Delivers g h) (event : ∀ e, EventQuiet (g.event e) (h.event e)) :
    Quiet g h :=
  ⟨d.loader, d.settings, d.lanes, by rw [d.clock]; exact BitVec.le_refl _, fun set => by rwa [d.clock], d.queue,
    d.busy, d.work, d.replies, d.tasks, d.maintenance, d.status,
    fun z => ⟨(d.zone z).share, (d.zone z).fresh, d.shrinks z⟩, event⟩

/-- A delivery operation that leaves the phases is a quiet step. -/
theorem Delivers.quiet {g h : Gate} (d : Delivers g h) (stay : PhasesStay g h) : Quiet g h :=
  d.quiet_of_events (fun e => (d.event e).quiet (stay.phase e) (stay.resume e))

theorem bump_quiet (k : PartCounter) (g : Gate) : Quiet g (bump k g) :=
  (bump_emits k g).quiet

theorem bumpEvent_phasesStay (e : EventIndex) (k : EventCounter) (g : Gate) : PhasesStay g (bumpEvent e k g) :=
  modEvent_phasesStay e (fun _ => by exact ⟨rfl, rfl⟩) g

theorem bumpEvent_quiet (e : EventIndex) (k : EventCounter) (g : Gate) : Quiet g (bumpEvent e k g) :=
  (bumpEvent_delivers e k g).quiet (bumpEvent_phasesStay e k g)

theorem post_quiet (kind : StatusKind) (object : Byte) (detail : List Byte) (g : Gate) :
    Quiet g (post kind object detail g) :=
  (post_emits kind object detail g).quiet

theorem modEvent_quiet (e : EventIndex) {f : Event → Event} (kept : ∀ ev, EventKept ev (f ev))
    (stay : ∀ ev, (f ev).phase = ev.phase ∧ (f ev).resumePhase = ev.resumePhase) (g : Gate) :
    Quiet g (modEvent e f g) :=
  (modEvent_delivers e kept g).quiet (modEvent_phasesStay e stay g)

theorem clearHandoff_quiet (g : Gate) : Quiet g (clearHandoff g) :=
  (intake_emits _ g).quiet

theorem openOffer_quiet (e : EventIndex) (slot : SheetSlot) (g : Gate) : Quiet g (openOffer e slot g) :=
  (openOffer_delivers e slot g).quiet (.of_withoutDelivery fun i => openOffer_withoutDelivery e i slot g)

theorem setOpenLead_quiet (e : EventIndex) (g : Gate) : Quiet g (setOpenLead e g) :=
  (setOpenLead_delivers e g).quiet (.of_withoutDelivery fun i => setOpenLead_withoutDelivery e i g)

theorem joinLeg_quiet (e : EventIndex) (slot : SheetSlot) (g : Gate) : Quiet g (joinLeg e slot g) :=
  (joinLeg_delivers e slot g).quiet (.of_withoutDelivery fun i => joinLeg_withoutDelivery e i slot g)

theorem makeLate_quiet (e : EventIndex) (slot : SheetSlot) (leg : Leg) (g : Gate) : Quiet g (makeLate e slot leg g) :=
  (makeLate_delivers e slot leg g).quiet (.of_withoutDelivery fun i => makeLate_withoutDelivery e i slot leg g)

theorem setOpenRepeat_quiet (e : EventIndex) (g : Gate) : Quiet g (setOpenRepeat e g) :=
  (setOpenRepeat_delivers e g).quiet (modEvent_phasesStay e (fun _ => by exact ⟨rfl, rfl⟩) g)

theorem reofferPending_quiet (e : EventIndex) (g : Gate) : Quiet g (reofferPending e g) := by
  unfold reofferPending
  split
  · split
    · exact openOffer_quiet ..
    · exact Quiet.refl g
  · exact Quiet.refl g

theorem dropLeg_event (e i : EventIndex) (slot : SheetSlot) (g : Gate) : (dropLeg e slot g).event i = g.event i := by
  rw [dropLeg_frame]
  rfl

theorem discardSheet_withoutDelivery (e i : EventIndex) (slot : SheetSlot) (g : Gate) :
    ((discardSheet e slot g).event i).withoutDelivery = (g.event i).withoutDelivery := by
  cases held : g.sheet e slot with
  | none => rw [discardSheet_none held]
  | some sheet =>
    rw [discardSheet_eq held, onZones_event, dropLeg_event]
    exact modEvent_withoutDelivery (fun ev => by cases slot <;> rfl) e i g

theorem discardSheet_quiet (e : EventIndex) (slot : SheetSlot) (g : Gate) : Quiet g (discardSheet e slot g) :=
  (discardSheet_delivers e slot g).quiet (.of_withoutDelivery fun i => discardSheet_withoutDelivery e i slot g)

/-! ## Phase changes -/

/-- R39: of phases a change writes its own event's alone. -/
theorem changePhase_event_phases (e i : EventIndex) (p : Phase) (g : Gate) :
    ((changePhase e p g).event i).phase = (if i = e then p else (g.event i).phase) ∧
      ((changePhase e p g).event i).resumePhase
        = if i = e then (if p = .stalled then some (g.event e).phase else none) else (g.event i).resumePhase := by
  have renewed (left : Phase) (now : Time) (ev : Event) :
      (Event.renewDeadline left now ev).phase = ev.phase ∧
        (Event.renewDeadline left now ev).resumePhase = ev.resumePhase := by
    unfold Event.renewDeadline
    split <;> exact ⟨rfl, rfl⟩
  have stamped (now : Time) (ev : Event) :
      (Event.startStarvation now (Event.stamp p now ev.leavePreview)).phase = p ∧
        (Event.startStarvation now (Event.stamp p now ev.leavePreview)).resumePhase
          = if p = .stalled then some ev.phase else none := by
    unfold Event.startStarvation Event.leavePreview
    split <;> split <;> exact ⟨rfl, rfl⟩
  have acted := PhasesStay.of_withoutDelivery (fun j => entryActions_withoutDelivery e j (g.event e).phase.mode p.mode
    (modEvent e (fun ev => Event.startStarvation g.clock.siteTime (Event.stamp p g.clock.siteTime ev.leavePreview)) g))
  have dated := acted.trans (modEvent_phasesStay e (renewed (g.event e).phase g.clock.siteTime) _)
  unfold changePhase postPhase
  rw [post_event, dated.phase, dated.resume, modEvent_event]
  split
  · exact stamped _ _
  · exact ⟨rfl, rfl⟩

theorem changePhase_phase (e : EventIndex) (p : Phase) (g : Gate) : ((changePhase e p g).event e).phase = p := by
  rw [(changePhase_event_phases e e p g).1, if_pos rfl]

/-- A change into a phase other than VACANT and RETIRING of an event in neither, where one into STALLED leaves a phase to
which the event can return. -/
structure Changeable (left entered : Phase) : Prop where
  leftVacant : left ≠ .vacant
  leftRetiring : left ≠ .retiring
  enteredVacant : entered ≠ .vacant
  enteredRetiring : entered ≠ .retiring
  stalls : entered = .stalled → left ∈ [Phase.onSale, .preview, .live, .extra, .windDown]

theorem changePhase_quiet {e : EventIndex} {p : Phase} {g : Gate}
    (change : resumeFits (g.event e) → Changeable (g.event e).phase p) : Quiet g (changePhase e p g) := by
  have delivers := changePhase_delivers e p g
  refine delivers.quiet_of_events (fun i => ?_)
  obtain ⟨phase, resume⟩ := changePhase_event_phases e i p g
  by_cases own : i = e
  · subst own
    rw [if_pos rfl] at phase resume
    refine ⟨(delivers.event i).number, (delivers.event i).firstLane, (delivers.event i).moreLanes,
      (delivers.event i).keyLane, (delivers.event i).alternateLane, fun fits => ?_, fun fits => ?_, fun fits => ?_⟩
    · unfold resumeFits
      rw [resume, phase]
      by_cases stalls : p = .stalled
      · rw [if_pos stalls]
        exact ⟨stalls, (change fits).stalls stalls⟩
      · rwa [if_neg stalls]
    · simp [phase, (change fits).leftVacant, (change fits).enteredVacant]
    · simp [phase, (change fits).leftRetiring, (change fits).enteredRetiring]
  · rw [if_neg own] at phase resume
    exact (delivers.event i).quiet phase resume

/-- R38, R44, R49: what an allowed task does: it moves a deadline, changes the resume phase of a STALLED event, or
changes the phase. -/
theorem applyTask_cases {e : EventIndex} {task : PhaseTask} {minutes : Nat} {g h : Gate}
    (applied : applyTask e task minutes g = some h) :
    task.allowedFrom ((g.event e).judgedPhase task) = true ∧
      ((task = .extendPreview ∧ h = extendPreview e minutes g) ∨
        (task ≠ .extendPreview ∧ (g.event e).phase = .stalled ∧ task.leadsTo ≠ .closed ∧
          h = changeResume e ((g.event e).judgedPhase task) task.leadsTo (dropStart task e g)) ∨
        (task ≠ .extendPreview ∧ ((g.event e).phase = .stalled → task.leadsTo = .closed) ∧
          h = changePhase e task.leadsTo (dropStart task e g))) := by
  unfold applyTask at applied
  dsimp only at applied
  split at applied
  · next allowed =>
    cases applied
    refine ⟨allowed, ?_⟩
    split
    · next extends_ => exact .inl ⟨extends_, rfl⟩
    · next other =>
      split
      · next stalled => exact .inr (.inl ⟨other, stalled.1, stalled.2, rfl⟩)
      · next direct =>
        exact .inr (.inr ⟨other, fun stalled => Classical.not_not.1 (fun open_ => direct ⟨stalled, open_⟩), rfl⟩)
  · cases applied

theorem dropStart_phasesStay (task : PhaseTask) (e : EventIndex) (g : Gate) : PhasesStay g (dropStart task e g) := by
  unfold dropStart
  split
  · exact modEvent_phasesStay e (fun _ => by exact ⟨rfl, rfl⟩) g
  · exact PhasesStay.refl g

theorem changeResume_quiet {e : EventIndex} {from_ to_ : Phase} {g : Gate} (stalled : (g.event e).phase = .stalled)
    (open_ : to_ ∈ [Phase.onSale, .preview, .live, .extra, .windDown]) : Quiet g (changeResume e from_ to_ g) := by
  have delivers := changeResume_delivers e from_ to_ g
  refine delivers.quiet_of_events (fun i => ?_)
  have phase : ((changeResume e from_ to_ g).event i).phase = (g.event i).phase := by
    unfold changeResume postPhase
    rw [post_event, modEvent_event]
    split
    · next same => rw [same]
    · rfl
  have resume : ((changeResume e from_ to_ g).event i).resumePhase
      = if i = e then some to_ else (g.event i).resumePhase := by
    unfold changeResume postPhase
    rw [post_event, modEvent_event]
    split <;> rfl
  by_cases own : i = e
  · subst own
    refine ⟨(delivers.event i).number, (delivers.event i).firstLane, (delivers.event i).moreLanes,
      (delivers.event i).keyLane, (delivers.event i).alternateLane, fun _ => ?_, fun _ => by rw [phase],
      fun _ => by rw [phase]⟩
    unfold resumeFits
    rw [resume, phase, if_pos rfl]
    exact ⟨stalled, open_⟩
  · exact (delivers.event i).quiet phase (by rw [resume, if_neg own])

/-- Table 31: a task that is allowed from a phase leaves one that is neither VACANT nor RETIRING. -/
theorem allowedFrom_loaded {task : PhaseTask} {p : Phase} (allowed : task.allowedFrom p = true) :
    p ≠ .vacant ∧ p ≠ .retiring := by
  cases task <;> cases p <;> simp [PhaseTask.allowedFrom] at allowed ⊢

/-- Table 31: a task leads to one of the phases ON_SALE to CLOSED. -/
theorem leadsTo_mem (task : PhaseTask) :
    task.leadsTo = .closed ∨ task.leadsTo ∈ [Phase.onSale, .preview, .live, .extra, .windDown] := by
  cases task <;> simp [PhaseTask.leadsTo]

theorem judgedPhase_eq_phase {ev : Event} {task : PhaseTask} (direct : ev.phase = .stalled → task.leadsTo = .closed) :
    ev.judgedPhase task = ev.phase := by
  unfold Event.judgedPhase
  split
  · next stalled =>
    have closes := direct stalled.1
    have other := stalled.2
    cases task <;> simp [PhaseTask.leadsTo] at closes other
  · rfl

/-- R38: an allowed task keeps which events are VACANT and RETIRING, and that resume phases fit. -/
theorem applyTask_quiet {e : EventIndex} {task : PhaseTask} {minutes : Nat} {g h : Gate}
    (applied : applyTask e task minutes g = some h) : Quiet g h := by
  have dropped := (dropStart_delivers task e g).quiet (dropStart_phasesStay task e g)
  have phase := (dropStart_phasesStay task e g).phase e
  obtain ⟨allowed, ⟨-, rfl⟩ | ⟨-, stalled, open_, rfl⟩ | ⟨-, direct, rfl⟩⟩ := applyTask_cases applied
  · exact modEvent_quiet e (fun _ => by constructor <;> rfl) (fun _ => by exact ⟨rfl, rfl⟩) g
  · exact dropped.trans (changeResume_quiet (phase.trans stalled) ((leadsTo_mem task).resolve_left open_))
  · rw [judgedPhase_eq_phase direct] at allowed
    refine dropped.trans (changePhase_quiet (fun _ => ?_))
    rw [phase]
    have away : task.leadsTo ≠ .vacant ∧ task.leadsTo ≠ .retiring ∧ task.leadsTo ≠ .stalled := by
      cases task <;> simp [PhaseTask.leadsTo]
    exact ⟨(allowedFrom_loaded allowed).1, (allowedFrom_loaded allowed).2, away.1, away.2.1,
      fun stalls => absurd stalls away.2.2⟩

/-! ## Site Clock, Cue Unit and deadlines -/

theorem clock_quiet {clock : Clock} {g : Gate} (siteTime : g.clock.siteTime ≤ clock.siteTime)
    (isSet : g.clock.isSet = true → clock.isSet = true) : Quiet g { g with clock := clock } :=
  ⟨rfl, rfl, rfl, siteTime, isSet, rfl, rfl, rfl, rfl, rfl, rfl, id, fun _ => ZoneQuiet.refl _,
    fun _ => EventQuiet.refl _⟩

theorem le_laterTime (t : Time) (ms : Nat) : t ≤ laterTime t ms := by
  rw [BitVec.le_def, laterTime_toNat]
  have limit := t.isLt
  omega

theorem siteClockTick_quiet (g : Gate) : Quiet g (siteClockTick g) := by
  unfold siteClockTick
  refine clock_quiet ?_ ?_ <;> unfold Clock.tick <;> split
  · exact le_laterTime ..
  · exact BitVec.le_refl _
  · exact id
  · exact id

theorem firstSetting_siteTime_le (programme : Time) (clock : Clock) :
    clock.siteTime ≤ (clock.firstSetting programme).siteTime := by
  show clock.siteTime ≤ if clock.siteTime ≤ programme then programme else clock.siteTime
  split
  · assumption
  · exact BitVec.le_refl _

theorem taken_siteTime_le (d : Int) (clock : Clock) : clock.siteTime ≤ (clock.taken d).siteTime := by
  rw [BitVec.le_def, Clock.taken_siteTime_toNat]
  have limit := clock.siteTime.isLt
  split <;> omega

theorem countOffset_quiet (d : Int) (g : Gate) : Quiet g (countOffset d g) := by
  have emits : Emits g { g with counters := (countOffset d g).counters } := ⟨rfl, id, fun _ => ZoneEmits.refl _⟩
  rw [countOffset_eq]
  exact emits.quiet

theorem postFault_quiet (was : Bool) (g : Gate) : Quiet g (postFault was g) := by
  unfold postFault
  split
  · exact Quiet.refl g
  · split <;> exact post_quiet ..

theorem takeTime_quiet (cell : List Byte) (g : Gate) : Quiet g (takeTime cell g) := by
  unfold takeTime
  dsimp only
  split
  · refine Quiet.trans (Quiet.trans ?_ (countOffset_quiet ..)) (postFault_quiet ..)
    refine (bump_quiet ..).trans (clock_quiet (taken_siteTime_le ..) (fun set => ?_))
    exact (Clock.taken_isSet _ _).trans set
  · refine Quiet.trans ?_ (post_quiet ..)
    exact (bump_quiet ..).trans (clock_quiet (firstSetting_siteTime_le ..) (fun _ => rfl))

theorem timeCell_quiet (g : Gate) : Quiet g (timeCell g) := by
  unfold timeCell
  split
  · exact (clearHandoff_quiet g).trans (takeTime_quiet ..)
  · exact Quiet.refl g

theorem modZone_quiet (z : ZoneIndex) {f : Zone → Zone} (g : Gate)
    (frame : ∀ a, (f a).share = a.share ∧ (f a).fresh = a.fresh ∧ (f a).sweep = a.sweep) :
    Quiet g (modZone z f g) := by
  refine ⟨rfl, rfl, rfl, BitVec.le_refl _, id, rfl, rfl, rfl, rfl, rfl, rfl, id, fun i => ?_,
    fun _ => EventQuiet.refl _⟩
  rw [modZone_zone]
  split
  · next same =>
    obtain ⟨share, fresh, sweep⟩ := frame (g.zone z)
    subst same
    exact ⟨share, fun ok => by unfold FreshOk; rwa [fresh], sweep ▸ List.Sublist.refl _⟩
  · exact ZoneQuiet.refl _

theorem setRisk_quiet (z : ZoneIndex) (risk : Bool) (event : Byte) (n s : Nat) (g : Gate) :
    Quiet g (setRisk z risk event n s g) := by
  unfold setRisk
  split
  · exact Quiet.refl g
  · refine Quiet.trans (modZone_quiet z g (fun _ => ?_)) (post_quiet ..)
    split <;> exact ⟨rfl, rfl, rfl⟩

theorem closeWindow_quiet (z : ZoneIndex) (g : Gate) : Quiet g (closeWindow z g) := by
  have taken := modZone_quiet z (f := fun zone => { zone with idleRate := zone.windowCount, windowCount := 0 }) g
    (fun _ => ⟨rfl, rfl, rfl⟩)
  have projected (h : Gate) : Quiet h (project z h) := by
    unfold project
    dsimp only
    split <;> exact setRisk_quiet ..
  unfold closeWindow
  dsimp only
  split
  · exact taken.trans (projected _)
  · exact taken

theorem windowClose_quiet (g : Gate) : Quiet g (windowClose g) := by
  unfold windowClose
  split
  · exact Quiet.refl g
  · refine Quiet.trans ?_ (forDrivenZones_quiet closeWindow_quiet _)
    exact clock_quiet (BitVec.le_refl _) id

theorem applyCue_quiet (e : EventIndex) (entry : CueEntry) (sequence : Byte) (g : Gate) :
    Quiet g (applyCue e entry sequence g) := by
  unfold applyCue
  split
  · next applied => exact (applyTask_quiet applied).trans (bumpEvent_quiet ..)
  · exact (bumpEvent_quiet ..).trans (post_quiet ..)

theorem takeCue_quiet (cell : List Byte) (g : Gate) : Quiet g (takeCue cell g) := by
  unfold takeCue takeMapped
  split
  · exact bump_quiet ..
  · split
    · exact bumpEvent_quiet ..
    · split
      · exact bumpEvent_quiet ..
      · exact (modEvent_quiet _ (fun _ => by constructor <;> rfl) (fun _ => by exact ⟨rfl, rfl⟩) g).trans (applyCue_quiet ..)

theorem cueCell_quiet (g : Gate) : Quiet g (cueCell g) := by
  unfold cueCell
  split
  · exact (clearHandoff_quiet g).trans (takeCue_quiet ..)
  · exact Quiet.refl g

theorem phaseDeadlineExpiry_quiet (e : EventIndex) (g : Gate) : Quiet g (phaseDeadlineExpiry e g) := by
  have expired : Quiet g (expireDeadline e g) := by
    unfold expireDeadline
    dsimp only
    have removed : Quiet g (bumpEvent e .deadlineExpiries (modEvent e (fun ev => { ev with deadline := none }) g)) :=
      (modEvent_quiet e (fun _ => by constructor <;> rfl) (fun _ => by exact ⟨rfl, rfl⟩) g).trans (bumpEvent_quiet ..)
    split
    · next task _ =>
      refine removed.trans ?_
      cases applied : applyTask e task 0 _ with
      | none => exact Quiet.refl _
      | some after => exact applyTask_quiet applied
    · exact removed
  unfold phaseDeadlineExpiry
  split
  · split
    · exact expired
    · exact Quiet.refl g
  · exact Quiet.refl g

/-! ## The Key Unit -/

theorem countPlacement_quiet (e : EventIndex) (slot : SheetSlot) (g : Gate) : Quiet g (countPlacement e slot g) := by
  unfold countPlacement
  split
  · exact bumpEvent_quiet ..
  · split
    · exact bumpEvent_quiet ..
    · exact Quiet.refl g

theorem setSheet_phases (slot : SheetSlot) (sheet : Option Sheet) (ev : Event) :
    (Event.setSheet slot sheet ev).phase = ev.phase ∧ (Event.setSheet slot sheet ev).resumePhase = ev.resumePhase := by
  cases slot <;> exact ⟨rfl, rfl⟩

theorem placeSheet_quiet (e : EventIndex) (slot : SheetSlot) (sheet : Sheet) (g : Gate) :
    Quiet g (placeSheet e slot sheet g) :=
  (discardSheet_quiet ..).trans (modEvent_quiet e (setSheet_kept _ _) (setSheet_phases _ _) _)

theorem deliver_quiet (e : EventIndex) (slot : SheetSlot) (cls : SheetClass) (g : Gate) :
    Quiet g (deliver e slot cls g) := by
  unfold deliver
  split
  · exact joinLeg_quiet ..
  · exact setOpenLead_quiet ..
  · exact openOffer_quiet ..
  · exact Quiet.refl g

/-- R50: a STALLED event returns to a phase from which it was taken into STALLED. -/
theorem returnFromStall_quiet (e : EventIndex) (g : Gate) : Quiet g (returnFromStall e g) := by
  unfold returnFromStall
  split
  · next stalled =>
    refine changePhase_quiet (fun fits => ?_)
    unfold resumeFits at fits
    split at fits
    · next p held =>
      rw [held, Option.getD_some, stalled]
      have open_ := fits.2
      refine ⟨by decide, by decide, ?_, ?_, ?_⟩ <;> rintro rfl <;> simp at open_
    · exact absurd stalled fits
  · exact Quiet.refl g

theorem acceptSheet_quiet (e : EventIndex) (number : SheetNumber) (effective : Time) (blob : List Byte) (g : Gate) :
    Quiet g (acceptSheet e number effective blob g) :=
  (((((bumpEvent_quiet ..).trans (countPlacement_quiet ..)).trans (placeSheet_quiet ..)).trans
    (modEvent_quiet e (fun _ => by constructor <;> rfl) (fun _ => by exact ⟨rfl, rfl⟩) _)).trans
    (deliver_quiet ..)).trans (returnFromStall_quiet ..)

theorem takeKey_quiet (e : EventIndex) (cell : List Byte) (g : Gate) : Quiet g (takeKey e cell g) := by
  unfold takeKey judgeSheet
  split
  · exact Quiet.refl g
  · split
    · exact bumpEvent_quiet ..
    · split
      · split
        · exact bumpEvent_quiet ..
        · split
          · exact bumpEvent_quiet ..
          · split
            · exact bumpEvent_quiet ..
            · exact acceptSheet_quiet ..
      · split
        · exact bumpEvent_quiet ..
        · exact acceptSheet_quiet ..

theorem keyCell_quiet (g : Gate) : Quiet g (keyCell g) := by
  unfold keyCell
  split
  · exact (clearHandoff_quiet g).trans (takeKey_quiet ..)
  · exact Quiet.refl g

theorem setLeg_quiet (e : EventIndex) (slot : SheetSlot) (leg : Option Leg) (g : Gate) :
    Quiet g (setLeg e slot leg g) :=
  (setLeg_delivers e slot leg g).quiet (.of_event fun _ => rfl)

theorem promotion_quiet (e : EventIndex) (g : Gate) : Quiet g (promotion e g) := by
  have moved (h : Gate) : Quiet h (movePending e h) :=
    ((modEvent_quiet e (fun _ => by constructor <;> rfl) (fun _ => by exact ⟨rfl, rfl⟩) h).trans (setLeg_quiet ..)).trans
      (setLeg_quiet ..)
  have offered (h : Gate) : Quiet h (offerPromoted e h) := by
    unfold offerPromoted
    split
    · split
      · exact openOffer_quiet ..
      · exact Quiet.refl h
    · exact Quiet.refl h
  unfold promotion
  split
  · exact (((discardSheet_quiet ..).trans (moved _)).trans (bumpEvent_quiet ..)).trans (offered _)
  · exact Quiet.refl g

theorem openLeadInstant_quiet (e : EventIndex) (g : Gate) : Quiet g (openLeadInstant e g) := by
  unfold openLeadInstant
  split
  · exact (modEvent_quiet e (fun _ => by constructor <;> rfl) (fun _ => by exact ⟨rfl, rfl⟩) g).trans (openOffer_quiet ..)
  · exact Quiet.refl g

theorem openRepeat_quiet (e : EventIndex) (g : Gate) : Quiet g (openRepeat e g) := by
  unfold openRepeat
  split
  · exact ((openOffer_quiet ..).trans (reofferPending_quiet ..)).trans (setOpenRepeat_quiet ..)
  · exact Quiet.refl g

theorem mem_open_of_grants {p : Phase} (grants : p.mode ≠ .noGrant) :
    p ∈ [Phase.onSale, .preview, .live, .extra, .windDown] := by
  cases p <;> simp [Phase.mode] at grants ⊢

theorem starvationInstant_quiet (e : EventIndex) (g : Gate) : Quiet g (starvationInstant e g) := by
  have warned (h : Gate) : Quiet h (warnStarvation e h) := by
    unfold warnStarvation
    dsimp only
    split
    · exact post_quiet ..
    · exact Quiet.refl h
  have stalled (h : Gate) : Quiet h (stallStarved e h) := by
    unfold stallStarved
    split
    · next starved =>
      have open_ := mem_open_of_grants starved.1
      refine changePhase_quiet (fun _ => ⟨?_, ?_, by decide, by decide, fun _ => open_⟩)
      · intro vacant
        simp [vacant] at open_
      · intro retiring
        simp [retiring] at open_
    · exact Quiet.refl h
  have advanced : Quiet g (modEvent e Event.nextEpoch g) :=
    modEvent_quiet e (fun _ => by constructor <;> rfl) (fun _ => by exact ⟨rfl, rfl⟩) g
  unfold starvationInstant starve
  split
  · dsimp only
    split
    · exact ((advanced.trans (modEvent_quiet e (fun _ => by constructor <;> rfl) (fun _ => by exact ⟨rfl, rfl⟩) _)).trans
        (warned _)).trans (stalled _)
    · exact advanced
  · exact Quiet.refl g

theorem legLate_quiet (e : EventIndex) (slot : SheetSlot) (g : Gate) : Quiet g (legLate e slot g) := by
  unfold legLate
  split
  · exact Quiet.refl g
  · split
    · exact Quiet.refl g
    · split
      · exact makeLate_quiet ..
      · exact Quiet.refl g

end Sys2Proof.Machine

/-! PROOF. The commands that are quiet once they have left the command queue, and the rule by which a property of the part is
kept by every command: it is kept by quiet steps, and by the few steps that are not. -/

namespace Sys2Proof.Machine

open Sys2Proof.Safety

/-! ## Record changes -/

theorem shiftLive_phasesStay (e : EventIndex) (z : ZoneIndex) (up : Bool) (g : Gate) :
    PhasesStay g (shiftLive e z up g) := by
  unfold shiftLive
  split
  · exact modEvent_phasesStay e (fun _ => by exact ⟨rfl, rfl⟩) g
  · refine PhasesStay.trans (.of_event (h := { g with freeDraws := g.freeDraws + 1 }) fun _ => rfl) ?_
    exact modEvent_phasesStay e (fun _ => by exact ⟨rfl, rfl⟩) _

theorem shiftShadow_event (z : ZoneIndex) (up : Bool) (g : Gate) (e : EventIndex) :
    (shiftShadow z up g).event e = g.event e := by
  unfold shiftShadow
  split <;> rfl

theorem moveCount_phasesStay (e : EventIndex) (b : Nat) (z : ZoneIndex) (up : Bool) (g : Gate) :
    PhasesStay g (moveCount e b z up g) := by
  unfold moveCount
  dsimp only
  split
  · exact (shiftLive_phasesStay ..).trans (.of_event fun i => shiftShadow_event z up _ i)
  · exact shiftLive_phasesStay ..

/-- R86: what every move of one count keeps, the moves of a record change keep. -/
theorem moveCounts_keeps {P : Gate → Prop} {b : Nat} {before after : Option Holder} {e : EventIndex} {g : Gate}
    (moves : ∀ z up h, P h → P (moveCount e b z up h)) (held : P g) : P (moveCounts b before after e g) := by
  have fallen : P (match before with
      | some h => if eligibleOpt before e (g.event e) then moveCount e b h.zone false g else g
      | none => g) := by
    cases before with
    | none => exact held
    | some h =>
      dsimp only
      split
      · exact moves _ _ _ held
      · exact held
  unfold moveCounts
  dsimp only
  split
  · exact held
  · cases after with
    | none => exact fallen
    | some h =>
      dsimp only
      split
      · exact moves _ _ _ fallen
      · exact fallen

theorem moveCounts_phasesStay (b : Nat) (before after : Option Holder) (e : EventIndex) (g : Gate) :
    PhasesStay g (moveCounts b before after e g) :=
  moveCounts_keeps (fun _ _ _ stays => stays.trans (moveCount_phasesStay ..)) (PhasesStay.refl g)

theorem purgeLost_event (before after : Option Holder) (e : EventIndex) (g : Gate) (i : EventIndex) :
    (purgeLost before after e g).event i = g.event i := by
  unfold purgeLost
  split
  · rfl
  · split <;> rfl

theorem offerFresh_event (entry : FreshEntry) (z : ZoneIndex) (g : Gate) (i : EventIndex) :
    (offerFresh entry z g).event i = g.event i := by
  rw [offerFresh_eq, modZone_event]

theorem freshForSheet_event (h : Holder) (e : EventIndex) (slot : SheetSlot) (g : Gate) (i : EventIndex) :
    (freshForSheet h e slot g).event i = g.event i := by
  unfold freshForSheet
  split
  · rfl
  · split
    · split
      · rfl
      · exact offerFresh_event ..
    · exact offerFresh_event ..

theorem handFresh_event (before after : Option Holder) (e : EventIndex) (g : Gate) (i : EventIndex) :
    (handFresh before after e g).event i = g.event i := by
  unfold handFresh freshRule
  split
  · rfl
  · split
    · split
      · rw [freshForSheet_event, freshForSheet_event]
      · rfl
    · rfl

/-- R86, R117: a record change leaves the phases of all events. -/
theorem changeRecord_phasesStay (key : Nat) (before after : Option Holder) (g : Gate) :
    PhasesStay g (changeRecord key before after g) := by
  have counted := PhasesStay.foldl (f := fun e acc => moveCounts (bucketOfKey key) before after e acc)
    (moveCounts_phasesStay (bucketOfKey key) before after) allEvents g
  have purged (h : Gate) := PhasesStay.foldl (f := fun e acc => purgeLost before after e acc)
    (fun e acc => .of_event (purgeLost_event before after e acc)) allEvents h
  have handed (h : Gate) := PhasesStay.foldl (f := fun e acc => handFresh before after e acc)
    (fun e acc => .of_event (handFresh_event before after e acc)) allEvents h
  exact ((counted.trans (purged _)).trans (handed _)).trans (.of_event fun _ => rfl)

theorem changeRecord_quiet (key : Nat) (before after : Option Holder) (g : Gate) :
    Quiet g (changeRecord key before after g) := by
  have written : Quiet g (writeHolder key after g) :=
    ⟨rfl, rfl, rfl, BitVec.le_refl _, id, rfl, rfl, rfl, rfl, rfl, rfl, id, fun _ => ZoneQuiet.refl _,
      fun _ => EventQuiet.refl _⟩
  have stay : PhasesStay (writeHolder key after g) (changeRecord key before after g) :=
    (PhasesStay.of_event (g := writeHolder key after g) (h := g) fun _ => rfl).trans
      (changeRecord_phasesStay key before after g)
  exact written.trans ((changeRecord_delivers key before after g).quiet stay)

theorem granted_quiet (user : TableUser) (g : Gate) : Quiet g (granted user g) :=
  ⟨rfl, rfl, rfl, BitVec.le_refl _, id, rfl, rfl, rfl, rfl, rfl, rfl, id, fun _ => ZoneQuiet.refl _,
    fun _ => EventQuiet.refl _⟩

/-! ## Commands that read -/

theorem readEvent_gate (q : Request) (g : Gate) : (readEvent q g).gate = g := by
  unfold readEvent
  split
  · rfl
  · split <;> rfl

theorem readHolder_gate (q : Request) (g : Gate) : (readHolder q g).gate = g :=
  withHolder_gate (P := (· = g)) rfl (fun _ _ _ _ => rfl)

theorem dump_gate (q : Request) (g : Gate) : (dump q g).gate = g := by
  unfold dump
  dsimp only
  split
  · rfl
  · split <;> rfl

/-! ## Commands on holder records and counters -/

/-- What it takes for the commands on holder records and on counters, and the maintenance walker's visits, to keep a
property: record changes, the purge of a decoder, and counting keep it. -/
structure KeptByRecords (P : Gate → Prop) : Prop where
  emits : ∀ {g h}, Emits g h → P g → P h
  change : ∀ {g} key before after, P g → P (changeRecord key before after g)
  purge : ∀ {g} d, P g → P (purgeDecoder d g)
  shadow : ∀ {g} z up, P g → P (shiftShadow z up g)
  count : ∀ {g} e k, P g → P (bumpEvent e k g)
  clear : ∀ {g} e, P g → P (modEvent e (fun ev => { ev with counters := Vector.replicate 27 0 }) g)

namespace KeptByRecords

variable {P : Gate → Prop} {g : Gate}

theorem bump (k : KeptByRecords P) (counter : PartCounter) (held : P g) : P (bump counter g) :=
  k.emits (bump_emits ..) held

theorem countRefusal (k : KeptByRecords P) (r : Result) (held : P g) : P (countRefusal r g) := by
  unfold Machine.countRefusal
  split <;> exact k.bump _ held

theorem bumpEach (k : KeptByRecords P) (counter : EventCounter) (set : EventSet) (held : P g) :
    P (bumpEach counter set g) := by
  refine List.foldlRecOn allEvents _ held (fun acc kept e _ => ?_)
  split
  · exact k.count e counter kept
  · exact kept

theorem readCounters (k : KeptByRecords P) (q : Request) (held : P g) : P (readCounters q g).gate := by
  have part (clear : Bool) : P (readPartCounters clear g).gate := by
    have emits (counters : Vector Counter 37) : Emits g { g with counters := counters } :=
      ⟨rfl, id, fun _ => ZoneEmits.refl _⟩
    rw [readPartCounters_gate]
    exact k.emits (emits _) held
  have zone (z : ZoneIndex) (clear : Bool) : P (readZoneCounters z clear g).gate := by
    cases clear
    · exact held
    · exact k.emits (modZone_emits_of_frame (f := fun zone => { zone with counters := Vector.replicate 19 0 }) z g
        (fun _ => ⟨rfl, rfl, rfl, rfl, rfl⟩)) held
  have event (e : EventIndex) (clear : Bool) : P (readEventCounters e clear g).gate := by
    cases clear
    · exact held
    · exact k.clear e held
  unfold Machine.readCounters
  dsimp only
  split
  · exact held
  · split
    · exact held
    · split
      · exact part _
      · split
        · split
          · exact held
          · exact zone ..
        · split
          · exact held
          · exact event ..

theorem cancel (k : KeptByRecords P) (q : Request) (held : P g) : P (cancel q g).gate := by
  unfold Machine.cancel
  dsimp only
  split
  · exact held
  · split
    · exact held
    · split
      · exact held
      · split
        · exact held
        · exact k.bumpEach _ _ (k.change _ _ _ held)

theorem putHolder (k : KeptByRecords P) (q : Request) (held : P g) : P (putHolder q g).gate := by
  have put (d : Decoder) (z : ZoneIndex) (region : Half) (exempt : Bool) (bought : EventSet) :
      P (putRecord d z region exempt bought g).gate := by
    unfold putRecord
    split
    · exact k.change _ _ _ held
    · split
      · exact k.countRefusal _ held
      · exact k.bump _ (k.change _ _ _ held)
  unfold Machine.putHolder
  dsimp only
  split
  · exact held
  · split
    · exact held
    · split
      · exact held
      · split
        · exact held
        · exact put ..

theorem dropHolder (k : KeptByRecords P) (q : Request) (held : P g) : P (dropHolder q g).gate :=
  withHolder_gate held (fun _ _ _ _ => k.bump _ (k.change _ _ _ held))

theorem force (k : KeptByRecords P) (q : Request) (held : P g) : P (force q g).gate :=
  withOverride_gate held (fun _ _ _ _ _ _ => k.bumpEach _ _ (k.change _ _ _ held))

theorem release (k : KeptByRecords P) (q : Request) (held : P g) : P (release q g).gate :=
  withOverride_gate held (fun _ _ _ _ _ _ => k.bumpEach _ _ (k.change _ _ _ held))

theorem bar (k : KeptByRecords P) (q : Request) (held : P g) : P (bar q g).gate := by
  refine withHolder_gate held (fun _ _ _ _ => ?_)
  split
  · exact held
  · exact k.bump _ (k.purge _ (k.change _ _ _ held))

theorem unbar (k : KeptByRecords P) (q : Request) (held : P g) : P (unbar q g).gate := by
  refine withHolder_gate held (fun _ _ _ _ => ?_)
  split
  · exact k.bump _ (k.change _ _ _ held)
  · exact held

theorem buyItem (k : KeptByRecords P) (item : PurchaseItem) (kept : P g) : P (buyItem item g).2 := by
  have held (e : EventIndex) (z : ZoneIndex) (key : Nat) (h : Holder) : P (buyHeld e z item key h g).2 := by
    unfold buyHeld
    split
    · exact k.count _ _ kept
    · split
      · exact k.count _ _ kept
      · split
        · exact k.count _ _ kept
        · exact k.count _ _ (k.change _ _ _ kept)
  have new (e : EventIndex) (z : ZoneIndex) : P (buyNew e z item g).2 := by
    unfold buyNew
    split
    · exact k.count _ _ (k.countRefusal _ kept)
    · exact k.count _ _ (k.bump _ (k.change _ _ _ kept))
  have bought (e : EventIndex) (z : ZoneIndex) : P (buyFor e z item g).2 := by
    unfold buyFor
    split
    · exact k.count _ _ kept
    · split
      · exact k.count _ _ kept
      · split
        · exact k.count _ _ kept
        · split
          · exact held ..
          · exact new ..
  unfold Machine.buyItem
  split
  · exact k.bump _ kept
  · split
    · split
      · exact k.bump _ kept
      · exact bought ..
    · exact k.bump _ kept

/-- R89–R94: the maintenance walker's work on one record. -/
theorem applyTo (k : KeptByRecords P) (task : Task) (key : Nat) (h : Holder) (held : P g) : P (task.applyTo key h g) := by
  cases task with
  | retire e carried =>
    show P (retireRecord e key h g)
    unfold retireRecord
    split
    · exact held
    · exact k.change _ _ _ held
  | recount e =>
    show P (recountRecord e h g)
    unfold recountRecord
    split
    · exact k.shadow _ _ held
    · exact held
  | ageScan =>
    show P (ageRecord key h g)
    unfold ageRecord
    split
    · exact held
    · split
      · split
        · exact k.change _ _ _ held
        · exact k.bump _ (k.change _ _ _ held)
      · split
        · exact held
        · exact k.change _ _ _ held

end KeptByRecords

theorem purgeDecoder_event (d : Decoder) (g : Gate) (e : EventIndex) : (purgeDecoder d g).event e = g.event e := by
  unfold purgeDecoder takeOutEverywhere
  rw [mapLegs_event, purgeFreshAll_event]

theorem purgeDecoder_quiet (d : Decoder) (g : Gate) : Quiet g (purgeDecoder d g) :=
  ((purgeFreshAll_delivers _ g).trans (takeOutEverywhere_delivers d _)).quiet (.of_event (purgeDecoder_event d g))

/-- Commands on holder records and on counters are quiet. -/
theorem quiet_keptByRecords (start : Gate) : KeptByRecords (Quiet start) where
  emits emits held := held.trans emits.quiet
  change _ _ _ held := held.trans (changeRecord_quiet ..)
  purge _ held := held.trans (purgeDecoder_quiet ..)
  shadow z up held := held.trans ((shiftShadow_delivers ..).quiet (.of_event fun i => shiftShadow_event z up _ i))
  count _ _ held := held.trans (bumpEvent_quiet ..)
  clear e held := held.trans (modEvent_quiet e (fun _ => by constructor <;> rfl) (fun _ => by exact ⟨rfl, rfl⟩) _)

theorem steerEvent_quiet (q : Request) (g : Gate) : Quiet g (steerEvent q g).gate := by
  have steered (e : EventIndex) (task : PhaseTask) (minutes : Nat) : Quiet g (steerTask e task minutes g).gate := by
    unfold steerTask
    split
    · exact Quiet.refl g
    · split
      · next applied => exact (applyTask_quiet applied).trans (bumpEvent_quiet ..)
      · exact Quiet.refl g
  unfold steerEvent
  split
  · exact Quiet.refl g
  · split
    · exact Quiet.refl g
    · dsimp only
      split
      · exact Quiet.refl g
      · split
        · exact Quiet.refl g
        · exact steered ..

/-! ## Properties that every command keeps -/

/-- What it takes for every command but POWER_ON to keep P: quiet steps keep it, a command that begins leads to B, which
its meaning keeps and from which its reply leads back to P, and the steps that are not quiet keep it. -/
structure KeptBySteps (P B : Gate → Prop) : Prop where
  quiet : ∀ {g h}, Quiet g h → P g → P h
  quietBegun : ∀ {g h}, Quiet g h → B g → B h
  leave : ∀ {g}, g.canBegin = true → g.command.queue ≠ [] → P g → B (leaveQueue g)
  reply : ∀ {tag code result body g}, B g → P (placeReply tag code result body g)
  takeUp : ∀ {q g}, B g → P (takeUpItems q g)
  item : ∀ {tag left results g}, owesReply g.command.work = true → P g → P (afterItem tag left results g)
  imageLoadEnd : ∀ {acknowledged g}, P g → P (imageLoadEnd acknowledged g)
  management : ∀ {g}, P g → P (managementCell g)
  sweep : ∀ {g}, P g → P (sweepVisit g)
  maintenance : ∀ {g}, P g → P (maintenanceVisit g)
  age : ∀ {g}, P g → P (ageInstant g)
  returns : ∀ {g}, P g → P (returnSlot g)
  load : ∀ {q g}, B g → B (loadEvent q g).gate
  amend : ∀ {q g}, B g → B (amendEvent q g).gate
  retire : ∀ {q g}, B g → B (retireEvent q g).gate
  setZone : ∀ {q g}, B g → B (setZone q g).gate
  setProfile : ∀ {q g}, B g → B (setProfile q g).gate
  setCueMap : ∀ {q g}, B g → B (setCueMap q g).gate
  setTiming : ∀ {q g}, B g → B (setTiming q g).gate
  save : ∀ {tag g}, B g → P (beginSave tag g)
  saveEnd : ∀ {acknowledged g}, P g → P (saveImageEnd acknowledged g)
  restart : ∀ {q g}, B g → P (beginRestart q g)
  restarted : ∀ {cause g}, P g → P (restartNow cause g)

namespace KeptBySteps

variable {P B : Gate → Prop}

theorem beginWhere (k : KeptBySteps P B) {p : Request → Bool} {run : Request → Gate → Gate} {g : Gate}
    (runs : ∀ q h, B h → P (run q h)) (held : P g) : P (beginWhere p run g) := by
  rcases beginWhere_cases p run g with idle | ⟨cell, rest, queue, ready, -, ⟨-, refused⟩ | ⟨-, begun⟩⟩
  · rwa [idle]
  · rw [refused]
    exact k.reply (k.leave ready (by simp [queue]) held)
  · rw [begun]
    exact runs _ _ (k.leave ready (by simp [queue]) held)

theorem executeCommand (k : KeptBySteps P B) {code : Byte} {meaning : Request → Gate → Answer} {g : Gate}
    (meets : ∀ {q h}, B h → B (meaning q h).gate) (held : P g) : P (executeCommand code meaning g) := by
  unfold Machine.executeCommand beginCommand
  exact k.beginWhere (fun _ _ begun => k.reply (meets begun)) held

theorem executeAtTable (k : KeptBySteps P B) {code : Byte} {meaning : Request → Gate → Answer} {g : Gate}
    (quiet : ∀ q h, Quiet h (meaning q h).gate) (held : P g) : P (executeAtTable code meaning g) := by
  unfold Machine.executeAtTable
  exact k.beginWhere (fun _ _ begun => k.reply (k.quietBegun ((granted_quiet ..).trans (quiet ..)) begun)) held

theorem unknownCommand (k : KeptBySteps P B) {g : Gate} (held : P g) : P (unknownCommand g) := by
  unfold Machine.unknownCommand
  split
  · exact held
  · next queue =>
    dsimp only
    split
    · next begins =>
      rw [Bool.and_eq_true] at begins
      exact k.reply (k.leave begins.1 (by simp [queue]) held)
    · exact held

theorem purchase (k : KeptBySteps P B) {g : Gate} (held : P g) : P (purchase g) := by
  unfold Machine.purchase beginCommand
  refine k.beginWhere (fun q h begun => ?_) held
  split
  · exact k.takeUp begun
  · exact k.reply begun

theorem purchaseItem (k : KeptBySteps P B) {g : Gate} (held : P g) : P (purchaseItem g) := by
  unfold Machine.purchaseItem
  split
  · next tag item left results work =>
    split
    · have bought := (granted_quiet .command g).trans ((quiet_keptByRecords _).buyItem item (Quiet.refl _))
      refine k.item ?_ (k.quiet bought held)
      rw [bought.work, work]
      rfl
    · exact held
  · exact held

theorem saveImage (k : KeptBySteps P B) {g : Gate} (held : P g) : P (saveImage g) := by
  unfold Machine.saveImage beginCommand
  refine k.beginWhere (fun q h begun => ?_) held
  split
  · exact k.save begun
  · exact k.reply begun

theorem restartCommand (k : KeptBySteps P B) {g : Gate} (held : P g) : P (Machine.restart g) := by
  unfold Machine.restart beginCommand
  refine k.beginWhere (fun q h begun => ?_) held
  split
  · exact k.restart begun
  · exact k.reply begun

theorem restartStep (k : KeptBySteps P B) {g : Gate} (held : P g) : P (restartStep g) := by
  unfold Machine.restartStep
  split
  · exact k.restarted held
  · exact held

theorem restartLine (k : KeptBySteps P B) {g : Gate} (held : P g) : P (restartLine g) := by
  unfold Machine.restartLine
  split
  · exact held
  · exact k.restarted held

/-- Every command but POWER_ON keeps P. -/
theorem effect (k : KeptBySteps P B) {i : Instr} {g : Gate} (held : P g)
    (power : ∀ unitStraps zoneStraps fitted, i = .powerOn unitStraps zoneStraps fitted →
      P (powerOn unitStraps zoneStraps fitted g)) : P (effect i g) := by
  have begun {meaning : Request → Gate → Answer} (quiet : ∀ q h, Quiet h (meaning q h).gate) :
      ∀ {q h}, B h → B (meaning q h).gate := k.quietBegun (quiet _ _)
  cases i with
  | powerOn unitStraps zoneStraps fitted => exact power _ _ _ rfl
  | imageLoadEnd acknowledged => exact k.imageLoadEnd held
  | inputCell step =>
    exact cellStep_keeps (fun _ _ emits => k.quiet emits.quiet) (fun _ => k.quiet (timeCell_quiet _))
      (fun _ => k.quiet (cueCell_quiet _)) (fun _ => k.management) (fun _ => k.quiet (keyCell_quiet _)) held
  | missingCell => exact k.quiet (missingCell_emits g).quiet held
  | nominalSlot => exact k.quiet (nominalSlot_emits g).quiet held
  | holdMessage zone value => exact k.quiet (holdMessage_emits zone value g).quiet held
  | siteClockTick => exact k.quiet (siteClockTick_quiet g) held
  | timeCell => exact k.quiet (timeCell_quiet g) held
  | windowClose => exact k.quiet (windowClose_quiet g) held
  | cueCell => exact k.quiet (cueCell_quiet g) held
  | phaseDeadlineExpiry e => exact k.quiet (phaseDeadlineExpiry_quiet e g) held
  | keyCell => exact k.quiet (keyCell_quiet g) held
  | promotion e => exact k.quiet (promotion_quiet e g) held
  | openLeadInstant e => exact k.quiet (openLeadInstant_quiet e g) held
  | openRepeat e => exact k.quiet (openRepeat_quiet e g) held
  | starvationInstant e => exact k.quiet (starvationInstant_quiet e g) held
  | legLate e slot => exact k.quiet (legLate_quiet e slot g) held
  | sweepVisit => exact k.sweep held
  | maintenanceVisit => exact k.maintenance held
  | ageInstant => exact k.age held
  | managementCell => exact k.management held
  | returnSlot => exact k.returns held
  | unknownCommand => exact k.unknownCommand held
  | loadEvent => exact k.executeCommand k.load held
  | amendEvent => exact k.executeCommand k.amend held
  | steerEvent => exact k.executeCommand (begun steerEvent_quiet) held
  | retireEvent => exact k.executeCommand k.retire held
  | readEvent => exact k.executeCommand (begun fun q h => by rw [readEvent_gate]; exact Quiet.refl h) held
  | purchase => exact k.purchase held
  | purchaseItem => exact k.purchaseItem held
  | cancel => exact k.executeAtTable (fun q h => (quiet_keptByRecords h).cancel q (Quiet.refl h)) held
  | putHolder => exact k.executeAtTable (fun q h => (quiet_keptByRecords h).putHolder q (Quiet.refl h)) held
  | dropHolder => exact k.executeAtTable (fun q h => (quiet_keptByRecords h).dropHolder q (Quiet.refl h)) held
  | force => exact k.executeAtTable (fun q h => (quiet_keptByRecords h).force q (Quiet.refl h)) held
  | release => exact k.executeAtTable (fun q h => (quiet_keptByRecords h).release q (Quiet.refl h)) held
  | bar => exact k.executeAtTable (fun q h => (quiet_keptByRecords h).bar q (Quiet.refl h)) held
  | unbar => exact k.executeAtTable (fun q h => (quiet_keptByRecords h).unbar q (Quiet.refl h)) held
  | readHolder => exact k.executeAtTable (fun q h => by rw [readHolder_gate]; exact Quiet.refl h) held
  | dump => exact k.executeAtTable (fun q h => by rw [dump_gate]; exact Quiet.refl h) held
  | setZone => exact k.executeCommand k.setZone held
  | setProfile => exact k.executeCommand k.setProfile held
  | setCueMap => exact k.executeCommand k.setCueMap held
  | setTiming => exact k.executeCommand k.setTiming held
  | readCounters => exact k.executeCommand (begun fun q h => (quiet_keptByRecords h).readCounters q (Quiet.refl h)) held
  | saveImage => exact k.saveImage held
  | saveImageEnd acknowledged => exact k.saveEnd held
  | restart => exact k.restartCommand held
  | restartStep => exact k.restartStep held
  | restartLine => exact k.restartLine held

end KeptBySteps

end Sys2Proof.Machine

/-! PROOF. The steps that are not quiet, one by one: each is quiet but for the few parts of the state that it is there to
change. -/

namespace Sys2Proof.Machine

open Sys2Proof.Safety

/-! ## Quiet but for the maintenance list -/

/-- What a quiet step does, it does beside any maintenance list. -/
theorem Quiet.withUpkeep {g h : Gate} (p : Quiet g h) (upkeep : Upkeep) :
    Quiet { g with upkeep := upkeep } { h with upkeep := upkeep } :=
  ⟨p.loader, p.settings, p.lanes, p.siteTime, p.isSet, p.queue, p.busy, p.work, p.replies, rfl, rfl, p.status, p.zone,
    p.event⟩

/-- A step that is quiet but for the maintenance walker's side of the table. -/
def QuietButUpkeep (g h : Gate) : Prop :=
  Quiet { g with upkeep := h.upkeep } h

theorem Quiet.butUpkeep {g h : Gate} (p : Quiet g h) : QuietButUpkeep g h :=
  ⟨p.loader, p.settings, p.lanes, p.siteTime, p.isSet, p.queue, p.busy, p.work, p.replies, rfl, rfl, p.status, p.zone,
    p.event⟩

theorem QuietButUpkeep.refl (g : Gate) : QuietButUpkeep g g :=
  (Quiet.refl g).butUpkeep

theorem QuietButUpkeep.trans {g h k : Gate} (p : QuietButUpkeep g h) (q : QuietButUpkeep h k) : QuietButUpkeep g k :=
  (Quiet.withUpkeep p k.upkeep).trans q

theorem upkeep_quietButUpkeep (upkeep : Upkeep) (g : Gate) : QuietButUpkeep g { g with upkeep := upkeep } :=
  Quiet.refl _

theorem setTasks_quietButUpkeep (tasks : List Task) (g : Gate) : QuietButUpkeep g (setTasks tasks g) := by
  rw [setTasks_eq_upkeep]
  exact upkeep_quietButUpkeep ..

theorem queueRecount_quietButUpkeep (e : EventIndex) (g : Gate) : QuietButUpkeep g (queueRecount e g) := by
  unfold queueRecount
  split
  · exact upkeep_quietButUpkeep ..
  · split
    · exact QuietButUpkeep.refl g
    · exact setTasks_quietButUpkeep ..

theorem ageInstant_quietButUpkeep (g : Gate) : QuietButUpkeep g (ageInstant g) := by
  have queued : QuietButUpkeep g (queueAgeScan g) := by
    unfold queueAgeScan
    split
    · exact QuietButUpkeep.refl g
    · exact setTasks_quietButUpkeep ..
  unfold ageInstant
  split
  · exact queued.trans (upkeep_quietButUpkeep ..)
  · exact QuietButUpkeep.refl g

/-! ## AMEND_EVENT (R52–R54) -/

theorem purgeFresh_quiet (p : FreshEntry → Bool) (z : ZoneIndex) (g : Gate) : Quiet g (purgeFresh p z g) :=
  (purgeFresh_delivers p z g).quiet (.of_event fun _ => rfl)

theorem discardCells_quiet (e : EventIndex) (z : ZoneIndex) (g : Gate) : Quiet g (discardCells e z g) :=
  (discardCells_delivers e z g).quiet (.of_event fun _ => rfl)

/-- A change of an event record that leaves number, lanes and phases. -/
theorem modEvent_quiet_of_frame (e : EventIndex) {f : Event → Event} (g : Gate)
    (frame : ∀ ev, (f ev).number = ev.number ∧ (f ev).firstLane = ev.firstLane ∧ (f ev).moreLanes = ev.moreLanes ∧
      (f ev).keyLane = ev.keyLane ∧ (f ev).alternateLane = ev.alternateLane ∧ (f ev).phase = ev.phase ∧
      (f ev).resumePhase = ev.resumePhase) : Quiet g (modEvent e f g) := by
  refine ⟨rfl, rfl, rfl, BitVec.le_refl _, id, rfl, rfl, rfl, rfl, rfl, rfl, id, fun _ => ZoneQuiet.refl _,
    fun i => ?_⟩
  rw [modEvent_event]
  split
  · next same =>
    obtain ⟨number, firstLane, moreLanes, keyLane, alternateLane, phase, resume⟩ := frame (g.event e)
    subst same
    exact ⟨number, firstLane, moreLanes, keyLane, alternateLane,
      fun fits => by unfold resumeFits at *; rwa [phase, resume], fun _ => by rw [phase], fun _ => by rw [phase]⟩
  · exact EventQuiet.refl _

theorem amendMask_quiet (e : EventIndex) (mask : Byte) (g : Gate) : Quiet g (amendMask e mask g) := by
  have blacked (old : BitVec 4) (z : ZoneIndex) (h : Gate) : Quiet h (blackZone e old z h) := by
    unfold blackZone
    split
    · exact (purgeFresh_quiet ..).trans (discardCells_quiet ..)
    · exact Quiet.refl h
  have masked : Quiet g (modEvent e (fun ev => { ev with mask := mask.setWidth 4 }) g) :=
    modEvent_quiet_of_frame e g (fun _ => by exact ⟨rfl, rfl, rfl, rfl, rfl, rfl, rfl⟩)
  unfold amendMask
  exact masked.trans (Quiet.foldl (f := blackZone e (g.event e).mask) (blacked _) allZones _)

theorem amendRanges_quietButUpkeep (e : EventIndex) (ranges : List Range) (g : Gate) :
    QuietButUpkeep g (amendRanges e ranges g) := by
  refine QuietButUpkeep.trans (Quiet.butUpkeep ?_) (queueRecount_quietButUpkeep e _)
  exact modEvent_quiet_of_frame e g (fun _ => by exact ⟨rfl, rfl, rfl, rfl, rfl, rfl, rfl⟩)

theorem redate_frame (p : Phase) (ev : Event) :
    Event.redate p ev = { ev with deadline := (Event.redate p ev).deadline } := by
  unfold Event.redate
  split <;> rfl

theorem applyGiven_keeps {α : Type} {P : Gate → Prop} {given : Option α} {write : α → Gate → Gate} {g : Gate}
    (writes : ∀ value, given = some value → P (write value g)) (held : P g) : P (applyGiven given write g) := by
  cases given with
  | none => exact held
  | some value => exact writes value rfl

/-- R54: every field of an AMEND_EVENT but the ranges leaves the maintenance list. -/
theorem writeAmend_cases (e : EventIndex) (f : AmendFields) (g : Gate) :
    Quiet (applyGiven f.ranges (amendRanges e) (applyGiven f.mask (amendMask e) g)) (writeAmend e f g) := by
  have start (given : Option Time) (h : Gate) : Quiet h (amendStart e given h) :=
    modEvent_quiet_of_frame e h (fun _ => by exact ⟨rfl, rfl, rfl, rfl, rfl, rfl, rfl⟩)
  have cutoff (value : Byte) (h : Gate) : Quiet h (modEvent e (fun ev => { ev with cutoff := value }) h) :=
    modEvent_quiet_of_frame e h (fun _ => by exact ⟨rfl, rfl, rfl, rfl, rfl, rfl, rfl⟩)
  have extra (limit : Byte) (h : Gate) : Quiet h (amendExtra e limit h) :=
    modEvent_quiet_of_frame e h (fun _ => by rw [redate_frame]; exact ⟨rfl, rfl, rfl, rfl, rfl, rfl, rfl⟩)
  have grace (value : Byte) (h : Gate) : Quiet h (amendGrace e value h) :=
    modEvent_quiet_of_frame e h (fun _ => by rw [redate_frame]; exact ⟨rfl, rfl, rfl, rfl, rfl, rfl, rfl⟩)
  unfold writeAmend
  refine applyGiven_keeps (P := Quiet _) (fun value _ => Quiet.trans ?_ (grace value _)) ?_ <;>
    refine applyGiven_keeps (P := Quiet _) (fun value _ => Quiet.trans ?_ (extra value _)) ?_ <;>
    refine applyGiven_keeps (P := Quiet _) (fun value _ => Quiet.trans ?_ (cutoff value _)) ?_ <;>
    exact applyGiven_keeps (P := Quiet _) (fun value _ => start value _) (Quiet.refl _)

theorem writeAmend_quietButUpkeep (e : EventIndex) (f : AmendFields) (g : Gate) :
    QuietButUpkeep g (writeAmend e f g) := by
  have masked : Quiet g (applyGiven f.mask (amendMask e) g) :=
    applyGiven_keeps (fun mask _ => amendMask_quiet e mask g) (Quiet.refl g)
  have ranged (h : Gate) : QuietButUpkeep h (applyGiven f.ranges (amendRanges e) h) :=
    applyGiven_keeps (fun ranges _ => amendRanges_quietButUpkeep e ranges h) (QuietButUpkeep.refl h)
  exact (masked.butUpkeep.trans (ranged _)).trans (writeAmend_cases e f g).butUpkeep

/-- R52: an AMEND_EVENT is refused, or writes its fields into the record of a loaded event that is not RETIRING. -/
theorem amendEvent_gate_cases (q : Request) (g : Gate) :
    (amendEvent q g).gate = g ∨
      ∃ e, g.findEvent (amendFields q.body).number = some e ∧ (g.event e).phase ≠ .retiring ∧
        (amendEvent q g).gate = writeAmend e (amendFields q.body) g := by
  unfold amendEvent
  dsimp only
  split
  · exact .inl rfl
  · split
    · exact .inl rfl
    · split
      · exact .inl rfl
      · next e found =>
        split
        · exact .inl rfl
        · next loaded =>
          split
          · exact .inl rfl
          · exact .inr ⟨e, found, loaded, rfl⟩

theorem amendEvent_quietButUpkeep (q : Request) (g : Gate) : QuietButUpkeep g (amendEvent q g).gate := by
  rcases amendEvent_gate_cases q g with same | ⟨e, -, -, written⟩
  · rw [same]
    exact QuietButUpkeep.refl g
  · rw [written]
    exact writeAmend_quietButUpkeep ..

/-! ## RETIRE_EVENT (R55) -/

theorem retireEvent_gate_cases (q : Request) (g : Gate) :
    (retireEvent q g).gate = g ∨
      ∃ e, (g.event e).phase = .closed ∧ (retireEvent q g).gate = changePhase e .retiring (queueRetire e g) := by
  unfold retireEvent
  split
  · exact .inl rfl
  · split
    · exact .inl rfl
    · next e _ =>
      split
      · exact .inl rfl
      · split
        · exact .inl rfl
        · next closed => exact .inr ⟨e, Classical.not_not.1 closed, rfl⟩

/-! ## LOAD_EVENT (R34, R35) -/

/-- R34: a LOAD_EVENT is refused, or takes the lowest VACANT record with a number that no loaded record carries and lanes
that are FREE. -/
theorem loadEvent_gate_cases (q : Request) (g : Gate) :
    (loadEvent q g).gate = g ∨
      ∃ e, g.loadInRange (loadFields q.body) = true ∧ g.loadIdentity (loadFields q.body).number = none ∧
        g.vacantIndex = some e ∧ g.claimable (loadFields q.body).named = true ∧
        (loadEvent q g).gate = takeRecord e (loadFields q.body) g := by
  unfold loadEvent
  dsimp only
  split
  · exact .inl rfl
  · split
    · exact .inl rfl
    · next inRange =>
      split
      · exact .inl rfl
      · next identity =>
        split
        · exact .inl rfl
        · next e vacant =>
          split
          · next claimable => exact .inr ⟨e, by simpa using inRange, identity, vacant, claimable, rfl⟩
          · exact .inl rfl

/-- R7: a claim of lanes changes the lane table and the key lane's continuity reference alone. -/
theorem claimLanes_frame (e : EventIndex) (f : LoadFields) (g : Gate) :
    claimLanes e f g = { g with lanes := (claimLanes e f g).lanes, intake := (claimLanes e f g).intake } := by
  have claimed (claim : LaneClaim) (lanes : List Half) (h : Gate) :
      lanes.foldl (fun acc lane => claimLane claim lane acc) h
        = { h with lanes := (lanes.foldl (fun acc lane => claimLane claim lane acc) h).lanes } :=
    List.foldlRecOn (motive := fun acc : Gate => acc = { h with lanes := acc.lanes }) lanes _ rfl
      (fun acc same lane _ => by rw [same]; rfl)
  unfold claimLanes
  dsimp only
  rw [claimed (.alternate e), claimLane, claimed (.content e)]

/-- R35: taking a record claims its lanes, writes it, clears the substitute counters and posts an item. -/
theorem takeRecord_emits (e : EventIndex) (f : LoadFields) (g : Gate) :
    Emits { g with
      lanes := (claimLanes e f g).lanes
      intake := (claimLanes e f g).intake
      events := g.events.set e (f.record g.clock.siteTime) } (takeRecord e f g) := by
  have cleared (h : Gate) : Emits h (clearSubstitutes e h) :=
    List.foldlRecOn (motive := Emits h) allZones _ (Emits.refl h) (fun acc before z _ =>
      before.trans (modZone_emits_of_frame z acc (fun _ => by exact ⟨rfl, rfl, rfl, rfl, rfl⟩)))
  unfold takeRecord postPhase
  refine Emits.trans ?_ (post_emits ..)
  rw [claimLanes_frame]
  exact cleared _

theorem takeRecord_lanes (e : EventIndex) (f : LoadFields) (g : Gate) :
    (takeRecord e f g).lanes = (claimLanes e f g).lanes := by
  rw [(takeRecord_emits e f g).gate]

theorem takeRecord_events (e : EventIndex) (f : LoadFields) (g : Gate) :
    (takeRecord e f g).events = g.events.set e (f.record g.clock.siteTime) := by
  rw [(takeRecord_emits e f g).gate]

/-- R35: taking a record is quiet but for the lane table and the event table. -/
theorem takeRecord_quiet (e : EventIndex) (f : LoadFields) (g : Gate) :
    Quiet { g with lanes := (takeRecord e f g).lanes, events := (takeRecord e f g).events } (takeRecord e f g) := by
  rw [takeRecord_lanes, takeRecord_events]
  exact ((intake_emits (claimLanes e f g).intake _).trans (takeRecord_emits e f g)).quiet

/-! ## Settings -/

theorem setZone_gate_cases (q : Request) (g : Gate) :
    (setZone q g).gate = g ∨
      ∃ z share, 1 ≤ share.toNat ∧ share.toNat ≤ 256 ∧ ∃ dark,
        (setZone q g).gate = modZone z (fun zone => { zone with share := share, dark := dark }) g := by
  have clamped (share : Half) : 1 ≤ (clampShare share).toNat ∧ (clampShare share).toNat ≤ 256 := by
    unfold clampShare clamp
    rw [BitVec.toNat_ofNat]
    omega
  unfold setZone
  dsimp only
  split
  · exact .inl rfl
  · split
    · exact .inl rfl
    · next z _ =>
      split
      · exact .inl rfl
      · exact .inr ⟨z, _, (clamped _).1, (clamped _).2, _, rfl⟩

theorem setProfile_gate_cases (q : Request) (g : Gate) :
    (setProfile q g).gate = g ∨
      (setProfile q g).gate = { g with settings := { g.settings with profile := profileAt q.body 0 } } := by
  unfold setProfile
  split
  · exact .inl rfl
  · split
    · exact .inl rfl
    · exact .inr rfl

theorem setCueMap_gate_cases (q : Request) (g : Gate) :
    (setCueMap q g).gate = g ∨
      ∃ n entries, n ≤ 16 ∧ (cueCodesAt q.body 1 n).Nodup ∧ cueMapAt q.body 1 n = some entries ∧
        (setCueMap q g).gate = { g with settings := { g.settings with cueMap := entries } } := by
  unfold setCueMap
  dsimp only
  split
  · exact .inl rfl
  · split
    · exact .inl rfl
    · next few =>
      split
      · exact .inl rfl
      · next distinct =>
        split
        · exact .inl rfl
        · next entries read =>
          exact .inr ⟨_, entries, Nat.le_of_not_lt few, Classical.not_not.1 distinct, read, rfl⟩

theorem setTiming_gate_cases (q : Request) (g : Gate) :
    (setTiming q g).gate = g ∨
      timingInRange q.body = true ∧ (setTiming q g).gate = writeTiming q.body g := by
  unfold setTiming
  split
  · exact .inl rfl
  · split
    · exact .inl rfl
    · next inRange =>
      refine .inr ⟨by simpa using inRange, ?_⟩
      dsimp only

theorem recomputeLead_quiet (e : EventIndex) (g : Gate) : Quiet g (recomputeLead e g) := by
  unfold recomputeLead
  split
  · exact setOpenLead_quiet ..
  · exact Quiet.refl g

/-- R77, R174: SET_TIMING is quiet but for the settings. -/
theorem writeTiming_quiet (body : List Byte) (g : Gate) :
    Quiet { g with settings := g.settings.withTiming body } (writeTiming body g) :=
  Quiet.foldl (f := recomputeLead) recomputeLead_quiet allEvents _

/-! ## The command queue and the return output -/

theorem managementCell_cases (g : Gate) :
    Emits g (managementCell g) ∨
      ∃ cell pre, Emits g pre ∧ pre.command.queue.length < Config.commandQueueSize ∧
        managementCell g = joinQueue cell pre := by
  have handed : Emits g (clearHandoff g) := intake_emits ..
  unfold managementCell
  split
  · next cell _ =>
    unfold takeManagement
    split
    · split
      · next room => exact .inr ⟨cell, _, handed.trans (bump_emits ..), room, rfl⟩
      · exact .inl (handed.trans (bump_emits ..))
    · exact .inl (handed.trans (bump_emits ..))
  · exact .inl (Emits.refl g)

/-- R178: what leaves in a return slot. -/
theorem returnSlot_cases (g : Gate) :
    returnSlot g = sendReturn idleCell g ∨
      (∃ reply rest, g.command.replies = reply :: rest ∧ returnSlot g = sendReply reply rest g) ∨
      (g.command.replies = [] ∧ returnSlot g = sendStatus g) := by
  unfold returnSlot
  split
  · exact .inl rfl
  · split
    · next reply rest queue => exact .inr (.inl ⟨reply, rest, queue, rfl⟩)
    · next empty =>
      split
      · exact .inl rfl
      · exact .inr (.inr ⟨empty, rfl⟩)

/-! ## Saves and the image load -/

theorem saveImageEnd_cases (acknowledged : Nat) (g : Gate) :
    saveImageEnd acknowledged g = g ∨
      ∃ tag image, g.command.work = .saving tag image ∧
        (saveTransfers ≤ acknowledged ∧ saveImageEnd acknowledged g = endSave tag true (writeWhole image g) ∨
          acknowledged < saveTransfers ∧
            saveImageEnd acknowledged g = endSave tag false (writePart image acknowledged g)) := by
  unfold saveImageEnd
  split
  · next tag image work =>
    refine .inr ⟨tag, image, work, ?_⟩
    split
    · next whole => exact .inl ⟨whole, rfl⟩
    · next part => exact .inr ⟨Nat.lt_of_not_le part, rfl⟩
  · exact .inl rfl

theorem writePart_frame (image : List Byte) (acknowledged : Nat) (g : Gate) :
    writePart image acknowledged g = { g with
      freeDraws := (writePart image acknowledged g).freeDraws
      loader := { g.loader with eeprom := (writePart image acknowledged g).loader.eeprom } } := by
  unfold writePart unackedTransfer
  dsimp only
  split <;> rfl

theorem writePart_wf {image : List Byte} {acknowledged : Nat} {g : Gate} (canonical : Memory.wf g.loader.eeprom) :
    Memory.wf (writePart image acknowledged g).loader.eeprom := by
  have part := Memory.wf_writeAll canonical 1 (image.take (acknowledged - 1))
  unfold writePart unackedTransfer
  dsimp only
  split
  · exact Memory.wf_write part ..
  · exact part

theorem cutSave_frame (g : Gate) :
    cutSave g = { g with
      freeDraws := (cutSave g).freeDraws
      loader := { g.loader with eeprom := (cutSave g).loader.eeprom } } := by
  unfold cutSave
  split <;> rfl

theorem cutSave_wf {g : Gate} (canonical : Memory.wf g.loader.eeprom) : Memory.wf (cutSave g).loader.eeprom := by
  unfold cutSave
  split
  · exact Memory.wf_writeAll canonical ..
  · exact canonical

/-! ## Restart -/

theorem enterLeg_phasesStay (e : EventIndex) (slot : SheetSlot) (leg : Leg) (g : Gate) :
    PhasesStay g (enterLeg e slot leg g) := by
  have entered : PhasesStay g (setLeg e slot (some leg) (mapLegs Leg.suspend g)) := .of_event fun _ => rfl
  exact entered.trans (bumpEvent_phasesStay e .legsJoined _)

theorem reformDelivery_phasesStay (e : EventIndex) (g : Gate) : PhasesStay g (reformDelivery e g) := by
  have rejoined (h : Gate) : PhasesStay h (rejoinPending e h) := by
    unfold rejoinPending
    split
    · exact enterLeg_phasesStay ..
    · exact PhasesStay.refl h
  have offered (h : Gate) : PhasesStay h (openOffer e .current h) :=
    .of_withoutDelivery fun i => openOffer_withoutDelivery e i .current h
  have reoffered (h : Gate) : PhasesStay h (reofferPending e h) := by
    unfold reofferPending
    split
    · split
      · exact .of_withoutDelivery fun i => openOffer_withoutDelivery e i .pending h
      · exact PhasesStay.refl h
    · exact PhasesStay.refl h
  have joined : PhasesStay g (joinLeg e .current g) :=
    .of_withoutDelivery fun i => joinLeg_withoutDelivery e i .current g
  unfold reformDelivery
  split
  · exact joined.trans (rejoined _)
  · split
    · refine ((offered g).trans (reoffered _)).trans ?_
      exact modEvent_phasesStay e (fun _ => by exact ⟨rfl, rfl⟩) _
    · exact PhasesStay.refl g

theorem requeueTask_quietButUpkeep (e : EventIndex) (g : Gate) : QuietButUpkeep g (requeueTask e g) := by
  unfold requeueTask
  split
  · exact QuietButUpkeep.refl g
  · refine QuietButUpkeep.trans (Quiet.butUpkeep ?_) (setTasks_quietButUpkeep ..)
    exact modEvent_quiet_of_frame e g (fun _ => by exact ⟨rfl, rfl, rfl, rfl, rfl, rfl, rfl⟩)

theorem reformDelivery_quiet (e : EventIndex) (g : Gate) : Quiet g (reformDelivery e g) :=
  (reformDelivery_delivers e g).quiet (reformDelivery_phasesStay e g)

/-- R58, Table 82: what follows the blocks' own part of a restart is quiet but for the maintenance list. -/
theorem restartNow_quietButUpkeep (cause : Byte) (g : Gate) :
    QuietButUpkeep (postRestarted cause (clearBlocks (cutSave g))) (restartNow cause g) :=
  List.foldlRecOn (motive := QuietButUpkeep _) allEvents _ (QuietButUpkeep.refl _) (fun acc before e _ =>
    before.trans ((reformDelivery_quiet e acc).butUpkeep.trans (requeueTask_quietButUpkeep e _)))

theorem clearBlocks_event (g : Gate) (e : EventIndex) : (clearBlocks g).event e = (g.event e).restarted := by
  simp [clearBlocks, Gate.event]

/-! ## The Sweep Walker -/

/-- A step that is quiet, but that cells may join the sweep queues. -/
structure Tame (g h : Gate) : Prop where
  loader : h.loader = g.loader
  settings : h.settings = g.settings
  lanes : h.lanes = g.lanes
  clock : g.clock.siteTime ≤ h.clock.siteTime ∧ (g.clock.isSet = true → h.clock.isSet = true)
  queue : h.command.queue = g.command.queue
  busy : h.command.busy = g.command.busy
  work : h.command.work = g.command.work
  replies : h.command.replies = g.command.replies
  tasks : h.upkeep.tasks = g.upkeep.tasks
  maintenance : h.upkeep.cursor = g.upkeep.cursor
  status : StatusOk g → StatusOk h
  zone : ∀ z, (h.zone z).share = (g.zone z).share ∧ (FreshOk (g.zone z) → FreshOk (h.zone z))
  event : ∀ e, EventQuiet (g.event e) (h.event e)

theorem Quiet.tame {g h : Gate} (p : Quiet g h) : Tame g h :=
  ⟨p.loader, p.settings, p.lanes, ⟨p.siteTime, p.isSet⟩, p.queue, p.busy, p.work, p.replies, p.tasks, p.maintenance,
    p.status, fun z => ⟨(p.zone z).share, (p.zone z).fresh⟩, p.event⟩

theorem Visits.tame {g h : Gate} (d : Visits g h) (stay : PhasesStay g h) : Tame g h :=
  ⟨d.loader, d.settings, d.lanes, by rw [d.clock]; exact ⟨BitVec.le_refl _, id⟩, d.queue, d.busy, d.work, d.replies,
    d.tasks, d.maintenance, d.status, fun z => ⟨(d.zone z).share, (d.zone z).fresh⟩,
    fun e => (d.event e).quiet (stay.phase e) (stay.resume e)⟩

/-- R122, R129: what every move, placement and lap end keeps, the visit of a bucket keeps, once the legs have stepped and
the cursor has advanced. -/
theorem visitBucket_keeps {P : Gate → Prop} {g : Gate} (flush : ∀ r h, P h → P (flushOwed r h))
    (place : ∀ r holder h, P h → P (placeFor holder r h)) (stepped : ∀ h, P h → P (mapLegs Leg.step h))
    (lapFlush : ∀ r h, P h → P (flushLapEnd r h))
    (advance : ∀ h, P h → P { h with walker := { h.walker with cursor := nextBucket h.walker.cursor } })
    (endLap : ∀ r h, P h → P (endLap r h)) (held : P g) : P (visitBucket g) := by
  have fold {α : Type} {f : α → Gate → Gate} (keeps : ∀ a h, P h → P (f a h)) (items : List α) {h : Gate}
      (before : P h) : P (items.foldl (fun acc a => f a acc) h) :=
    List.foldlRecOn items _ before (fun acc kept a _ => keeps a acc kept)
  unfold visitBucket
  refine fold endLap rosterOrder (advance _ (fold lapFlush rosterOrder (stepped _ ?_)))
  refine fold (f := fun (entry : Nat × Holder) acc => placeRecord entry.2 acc) (fun entry h before => ?_) _
    (fold flush rosterOrder held)
  exact fold (fun r acc => place r entry.2 acc) rosterOrder before

theorem moveCell_event (e : EventIndex) (slot : SheetSlot) (z : ZoneIndex) (g : Gate) (i : EventIndex) :
    (moveCell e slot z g).event i = g.event i := by
  unfold moveCell
  split
  · rfl
  · split <;> rfl

theorem moveCells_event (e : EventIndex) (slot : SheetSlot) (g : Gate) (i : EventIndex) :
    (moveCells e slot g).event i = g.event i :=
  List.foldlRecOn (motive := fun acc : Gate => acc.event i = g.event i) allZones _ rfl
    (fun acc same z _ => (moveCell_event e slot z acc i).trans same)

theorem flushOwed_event (r : EventIndex × SheetSlot) (g : Gate) (i : EventIndex) :
    (flushOwed r g).event i = g.event i := by
  unfold flushOwed
  split
  · rfl
  · split
    · exact moveCells_event ..
    · rfl

theorem flushLapEnd_event (r : EventIndex × SheetSlot) (g : Gate) (i : EventIndex) :
    (flushLapEnd r g).event i = g.event i := by
  unfold flushLapEnd
  split
  · rfl
  · split
    · exact moveCells_event ..
    · rfl

theorem placeFor_event (h : Holder) (r : EventIndex × SheetSlot) (g : Gate) (i : EventIndex) :
    (placeFor h r g).event i = g.event i := by
  unfold placeFor place
  split
  · rfl
  · split
    · dsimp only
      split <;> split <;> first | exact moveCell_event .. | rfl
    · rfl

theorem endLap_phasesStay (r : EventIndex × SheetSlot) (g : Gate) : PhasesStay g (endLap r g) := by
  have counted := bumpEvent_phasesStay r.1 .lapsCompleted g
  unfold endLap
  split
  · exact PhasesStay.refl g
  · split
    · dsimp only
      split
      · exact counted.trans (.of_event fun _ => rfl)
      · split
        · exact counted.trans (.of_event fun _ => rfl)
        · exact counted.trans (.of_event fun _ => rfl)
    · exact PhasesStay.refl g

theorem visitBucket_phasesStay (g : Gate) : PhasesStay g (visitBucket g) :=
  visitBucket_keeps (P := PhasesStay g) (fun r h stays => stays.trans (.of_event (flushOwed_event r h)))
    (fun r holder h stays => stays.trans (.of_event (placeFor_event holder r h)))
    (fun _ stays => stays.trans (.of_event fun _ => rfl))
    (fun r h stays => stays.trans (.of_event (flushLapEnd_event r h)))
    (fun _ stays => stays.trans (.of_event fun _ => rfl))
    (fun r h stays => stays.trans (endLap_phasesStay r h)) (PhasesStay.refl g)

/-- The walker's own fields and the last grant are beside what a tame step keeps. -/
theorem Tame.withWalker {g h : Gate} (t : Tame g h) (walker : Walker) (user : TableUser) :
    Tame g (granted user { h with walker := walker }) :=
  ⟨t.loader, t.settings, t.lanes, t.clock, t.queue, t.busy, t.work, t.replies, t.tasks, t.maintenance, t.status,
    t.zone, t.event⟩

theorem Visits.withCursor {g h : Gate} (v : Visits g h) (cursor : Bucket) :
    Visits { g with walker := { g.walker with cursor := cursor } } { h with walker := { h.walker with cursor := cursor } } :=
  ⟨v.loader, v.intake, v.lanes, v.clock, v.settings, v.holders, v.output, v.queue, v.busy, v.work, v.replies, v.tasks,
    v.maintenance, v.ageInstant, v.lastGrant, rfl, v.parked, v.status, v.zone, v.event⟩

/-- A visit's moves and placements, from the part with the cursor already on the next bucket. -/
theorem visitBucket_visits (g : Gate) :
    ∃ cursor, Visits { g with walker := { g.walker with cursor := cursor } } (visitBucket g) := by
  have flushed (h : Gate) := Visits.foldl (f := flushOwed) (fun r acc => flushOwed_visits r acc) rosterOrder h
  have moved (h : Gate) := Visits.foldl (f := flushLapEnd) (fun r acc => flushLapEnd_visits r acc) rosterOrder h
  have ended (h : Gate) := (Delivers.foldl (f := endLap) (fun r acc => endLap_delivers r acc) rosterOrder h).toVisits
  have stepped (h : Gate) := (mapLegs_delivers Leg.step h).toVisits
  unfold visitBucket
  refine ⟨_, Visits.trans (Visits.withCursor (Visits.trans (Visits.trans (Visits.trans ?_ (placeBucket_visits _))
    (stepped _)) (moved _)) _) (ended _)⟩
  exact flushed g

theorem visitBucket_tame (g : Gate) : Tame g (visitBucket g) := by
  obtain ⟨cursor, v⟩ := visitBucket_visits g
  have t := v.tame ⟨(visitBucket_phasesStay g).phase, (visitBucket_phasesStay g).resume⟩
  exact ⟨t.loader, t.settings, t.lanes, t.clock, t.queue, t.busy, t.work, t.replies, t.tasks, t.maintenance, t.status,
    t.zone, t.event⟩

/-- R128: the walker's next step does nothing, parks, or makes its visit where the buffer test passes. -/
theorem sweepVisit_cases (g : Gate) :
    sweepVisit g = g ∨ sweepVisit g = bump .walkerParks { g with walker := { g.walker with parked := true } } ∨
      (visitBucket g).fits = true ∧
        sweepVisit g = granted .sweepWalker
          { visitBucket g with walker := { (visitBucket g).walker with parked := false } } := by
  unfold sweepVisit park
  split
  · dsimp only
    split
    · split
      · exact .inl rfl
      · exact .inr (.inl rfl)
    · next fits =>
      split
      · exact .inr (.inr ⟨by simpa using fits, rfl⟩)
      · exact .inl rfl
  · exact .inl rfl

theorem Tame.refl (g : Gate) : Tame g g :=
  (Quiet.refl g).tame

theorem sweepVisit_tame (g : Gate) : Tame g (sweepVisit g) := by
  rcases sweepVisit_cases g with held | parked | ⟨-, visited⟩
  · rw [held]
    exact Tame.refl g
  · rw [parked]
    exact (Quiet.tame ⟨rfl, rfl, rfl, BitVec.le_refl _, id, rfl, rfl, rfl, rfl, rfl, rfl, id, fun _ => ZoneQuiet.refl _,
      fun _ => EventQuiet.refl _⟩)
  · rw [visited]
    exact (visitBucket_tame g).withWalker ..

/-! ## The maintenance walker -/

/-- R88: the part once the task has been applied to the records of the bucket at the cursor. -/
def visitedRecords (task : Task) (g : Gate) : Gate :=
  granted .maintenanceWalker ((bucketRecords (Fin.ofNat 8192 g.upkeep.cursor.val) g).foldl
    (fun acc entry => task.applyTo entry.1 entry.2 acc) g)

theorem visitedRecords_quiet (task : Task) (g : Gate) : Quiet g (visitedRecords task g) :=
  (Quiet.foldl (f := fun (entry : Nat × Holder) acc => task.applyTo entry.1 entry.2 acc)
    (fun entry acc => (quiet_keptByRecords acc).applyTo task entry.1 entry.2 (Quiet.refl acc)) _ g).trans (granted_quiet ..)

/-- R88: the part after a visit, its cursor on the next bucket. -/
def visitedBucket (task : Task) (g : Gate) : Gate :=
  { visitedRecords task g with
    upkeep := { (visitedRecords task g).upkeep with cursor := Fin.ofNat 8193 (g.upkeep.cursor.val + 1) } }

theorem visitedBucket_quietButUpkeep (task : Task) (g : Gate) : QuietButUpkeep g (visitedBucket task g) :=
  (visitedRecords_quiet task g).butUpkeep.trans (upkeep_quietButUpkeep ..)

/-- R88: a visit is not due, leaves the walk before its end, or ends it. -/
theorem maintenanceVisit_cases (g : Gate) :
    maintenanceVisit g = g ∨
      ∃ task rest, g.upkeep.tasks = task :: rest ∧
        ((visitedBucket task g).upkeep.cursor ≠ 8192 ∧ maintenanceVisit g = visitedBucket task g ∨
          (visitedBucket task g).upkeep.cursor = 8192 ∧
            maintenanceVisit g = endWalk task rest (visitedBucket task g)) := by
  unfold maintenanceVisit
  split
  · exact .inl rfl
  · next task rest tasks =>
    split
    · refine .inr ⟨task, rest, tasks, ?_⟩
      unfold makeVisit
      dsimp only
      split
      · next ended => exact .inr ⟨ended, rfl⟩
      · next goes => exact .inl ⟨goes, rfl⟩
    · exact .inl rfl

/-- R91: the end of a recount is quiet. -/
theorem finishRecount_quiet (e : EventIndex) (g : Gate) : Quiet g (finishRecount e g) := by
  refine ((modEvent_quiet_of_frame e g ?_).trans (bump_quiet ..)).trans (post_quiet ..)
  exact fun _ => by exact ⟨rfl, rfl, rfl, rfl, rfl, rfl, rfl⟩

/-- R56: an event that becomes VACANT loses its lanes and its record; the rest is quiet. -/
theorem becomeVacant_quiet (e : EventIndex) (g : Gate) :
    Quiet { g with lanes := (releaseLanes e g).lanes, events := g.events.set e Event.vacant } (becomeVacant e g) :=
  ((intake_emits _ _).trans (post_emits ..)).quiet

/-- R88: the end of a walk is the end of its task, but for the maintenance list. -/
theorem endWalk_quietButUpkeep (task : Task) (rest : List Task) (g : Gate) :
    QuietButUpkeep (task.finish g) (endWalk task rest g) := by
  cases rest <;> exact upkeep_quietButUpkeep ..

end Sys2Proof.Machine

/-! PROOF. The bookkeeping of the Command Unit, and the rule by which a property of the part that depends neither on it nor on
the maintenance list is kept by every command. With it the statements that the EEPROM, the settings, the status set and the
Site Clock meet. -/

namespace Sys2Proof.Machine

open Sys2Proof.Safety

/-! ## Bookkeeping -/

/-- A step of the Command Unit and the Return Output alone. -/
structure Books (g h : Gate) : Prop where
  gate : h = { g with
    freeDraws := h.freeDraws
    intake := h.intake
    command := h.command
    output := h.output
    counters := h.counters }
  status : StatusOk g → StatusOk h

theorem Books.refl (g : Gate) : Books g g :=
  ⟨rfl, id⟩

theorem Books.trans {g h k : Gate} (p : Books g h) (q : Books h k) : Books g k :=
  ⟨by rw [q.gate, p.gate], q.status ∘ p.status⟩

theorem bump_books (k : PartCounter) (g : Gate) : Books g (bump k g) :=
  ⟨rfl, id⟩

theorem post_books (kind : StatusKind) (object : Byte) (detail : List Byte) (g : Gate) :
    Books g (post kind object detail g) :=
  ⟨rfl, insertItem_pairwise _⟩

/-- A change of the Command Unit that leaves the pending status set. -/
theorem command_books {command : CommandUnit} (g : Gate) (status : command.status = g.command.status) :
    Books g { g with command := command } :=
  ⟨rfl, fun ok => by unfold StatusOk; rwa [status]⟩

theorem leaveQueue_books (g : Gate) : Books g (leaveQueue g) :=
  ⟨by rw [leaveQueue_eq], leaveQueue_status⟩

theorem joinQueue_books (cell : List Byte) (g : Gate) : Books g (joinQueue cell g) :=
  ⟨by rw [joinQueue_eq], joinQueue_status cell⟩

theorem placeReply_books (tag : Half) (code : Byte) (result : Result) (body : List Byte) (g : Gate) :
    Books g (placeReply tag code result body g) := by
  refine Books.trans ?_ (bump_books ..)
  exact command_books g rfl

theorem takeUpItems_books (q : Request) (g : Gate) : Books g (takeUpItems q g) :=
  command_books g rfl

theorem afterItem_books (tag : Half) (left : List PurchaseItem) (results : List Result) (g : Gate) :
    Books g (afterItem tag left results g) := by
  cases left with
  | nil =>
    refine Books.trans ?_ (placeReply_books ..)
    exact command_books g rfl
  | cons item rest => exact command_books g rfl

theorem beginRestart_books (q : Request) (g : Gate) : Books g (beginRestart q g) :=
  (placeReply_books ..).trans (command_books _ rfl)

theorem returnSlot_books (g : Gate) : Books g (returnSlot g) := by
  rcases returnSlot_cases g with idle | ⟨reply, rest, -, sent⟩ | ⟨-, sent⟩
  · exact idle ▸ ⟨rfl, id⟩
  · exact sent ▸ ⟨rfl, id⟩
  · exact sent ▸ ⟨rfl, fun ok => ok.sublist (List.drop_sublist ..)⟩

theorem endSave_books (tag : Half) (ok : Bool) (g : Gate) : Books g (endSave tag ok g) := by
  have counted (saves : Counter) : Books g { g with
      counters := g.counters.set PartCounter.imageSaves.pos saves
      command := { g.command with work := .ready } } := ⟨rfl, id⟩
  cases ok
  · exact ((counted _).trans (placeReply_books ..)).trans (post_books ..)
  · exact ((counted _).trans (placeReply_books ..)).trans (post_books ..)

/-! ## The cue map and the timing values as commands write them -/

theorem cueEntryAt_code {bytes : List Byte} {i : Nat} {entry : CueEntry} (read : cueEntryAt bytes i = some entry) :
    entry.code = byteAt bytes i := by
  unfold cueEntryAt at read
  split at read
  · cases read
  · split at read
    · split at read
      · injection read with same
        exact same ▸ rfl
      · cases read
    · injection read with same
      exact same ▸ rfl

theorem cueEntryAt_ok {bytes : List Byte} {i : Nat} {entry : CueEntry} (read : cueEntryAt bytes i = some entry) :
    cueEntryOk entry := by
  unfold cueEntryAt at read
  split at read
  · cases read
  · split at read
    · next extend =>
      split at read
      · next minutes =>
        injection read with same
        exact same ▸ ⟨extend, minutes⟩
      · cases read
    · next other =>
      injection read with same
      exact same ▸ other

theorem cueCodesAt_length (bytes : List Byte) (i n : Nat) : (cueCodesAt bytes i n).length = n := by
  induction n generalizing i with
  | zero => rfl
  | succ n ih => rw [cueCodesAt, List.length_cons, ih]

theorem cueEntriesAt_codes {bytes : List Byte} {i n : Nat} (all : (cueEntriesAt bytes i n).all Option.isSome = true) :
    ((cueEntriesAt bytes i n).filterMap id).map CueEntry.code = cueCodesAt bytes i n := by
  induction n generalizing i with
  | zero => rfl
  | succ n ih =>
    rw [cueEntriesAt, List.all_cons, Bool.and_eq_true] at all
    obtain ⟨entry, read⟩ := Option.isSome_iff_exists.mp all.1
    rw [cueEntriesAt, cueCodesAt, read, List.filterMap_cons_some (by rfl), List.map_cons, ih all.2, cueEntryAt_code read]

theorem mem_cueEntriesAt {bytes : List Byte} {i n : Nat} {o : Option CueEntry} (mem : o ∈ cueEntriesAt bytes i n) :
    ∃ j, o = cueEntryAt bytes j := by
  induction n generalizing i with
  | zero => cases mem
  | succ n ih =>
    rcases List.mem_cons.mp mem with head | tail
    · exact ⟨i, head⟩
    · exact ih tail

theorem cueMapAt_eq_some {bytes : List Byte} {i n : Nat} {entries : List CueEntry}
    (map : cueMapAt bytes i n = some entries) :
    (cueEntriesAt bytes i n).all Option.isSome = true ∧ entries = (cueEntriesAt bytes i n).filterMap id := by
  unfold cueMapAt at map
  split at map
  · next all => exact ⟨all, (Option.some.inj map).symm⟩
  · cases map

theorem cueMapAt_codes {bytes : List Byte} {i n : Nat} {entries : List CueEntry}
    (map : cueMapAt bytes i n = some entries) : entries.map CueEntry.code = cueCodesAt bytes i n := by
  obtain ⟨all, same⟩ := cueMapAt_eq_some map
  rw [same, cueEntriesAt_codes all]

theorem cueMapAt_entries {bytes : List Byte} {i n : Nat} {entries : List CueEntry}
    (map : cueMapAt bytes i n = some entries) : ∀ entry ∈ entries, cueEntryOk entry := by
  obtain ⟨-, same⟩ := cueMapAt_eq_some map
  intro entry mem
  rw [same] at mem
  obtain ⟨o, listed, read⟩ := List.mem_filterMap.mp mem
  obtain ⟨j, place⟩ := mem_cueEntriesAt listed
  exact cueEntryAt_ok (place ▸ read)

theorem clamp_toNat {low high : Nat} (fits : high < 256) (value : Nat) (order : low ≤ high) :
    low ≤ (BitVec.ofNat 8 (clamp low high value)).toNat ∧ (BitVec.ofNat 8 (clamp low high value)).toNat ≤ high := by
  rw [BitVec.toNat_ofNat]
  unfold clamp
  omega

theorem withTiming_ok {body : List Byte} {g : Gate} (inRange : timingInRange body = true) (ok : SettingsOk g) :
    SettingsOk { g with settings := g.settings.withTiming body } := by
  simp only [timingInRange, Bool.and_eq_true, decide_eq_true_eq] at inRange
  obtain ⟨⟨⟨⟨lead, guard⟩, low⟩, high⟩, -⟩ := inRange
  exact
    { share := ok.share
      cues := ok.cues
      codes := ok.codes
      entries := ok.entries
      openLead := lead
      guard := guard
      again := ⟨low, high⟩
      warn := clamp_toNat (by decide) _ (by decide)
      stall := clamp_toNat (by decide) _ (by decide)
      aging := clamp_toNat (by decide) _ (by decide)
      nominal := ok.nominal
      returns := ok.returns }

/-! ## Properties kept plainly -/

/-- What it takes for every command but POWER_ON to keep a property that depends neither on the Command Unit nor on the
maintenance list. -/
structure KeptPlainly (P : Gate → Prop) : Prop where
  tame : ∀ {g h}, Tame g h → P g → P h
  books : ∀ {g h}, Books g h → P g → P h
  upkeep : ∀ {g} upkeep, P g → P { g with upkeep := upkeep }
  imageLoadEnd : ∀ {acknowledged g}, P g → P (imageLoadEnd acknowledged g)
  take : ∀ {f e g}, g.loadInRange f = true → g.loadIdentity f.number = none → g.vacantIndex = some e →
    g.claimable f.named = true → P g →
    P { g with lanes := (claimLanes e f g).lanes, events := g.events.set e (f.record g.clock.siteTime) }
  retire : ∀ {e g}, (g.event e).phase = .closed → P g → P (g.setEvent e ((g.event e).retired g.clock.siteTime))
  vacate : ∀ {e g}, P g → P { g with lanes := (releaseLanes e g).lanes, events := g.events.set e Event.vacant }
  share : ∀ {z share dark g}, 1 ≤ share.toNat → share.toNat ≤ 256 → P g →
    P (modZone z (fun zone => { zone with share := share, dark := dark }) g)
  settings : ∀ {settings g}, (SettingsOk g → SettingsOk { g with settings := settings }) → P g →
    P { g with settings := settings }
  eeprom : ∀ {eeprom g}, (Memory.wf g.loader.eeprom → Memory.wf eeprom) → P g → P (setEeprom eeprom g)
  clear : ∀ {g}, P g → P (clearBlocks g)

namespace KeptPlainly

variable {P : Gate → Prop}

theorem butUpkeep (k : KeptPlainly P) {g h : Gate} (q : QuietButUpkeep g h) (held : P g) : P h :=
  k.tame q.tame (k.upkeep _ held)

theorem maintenanceVisit (k : KeptPlainly P) {g : Gate} (held : P g) : P (maintenanceVisit g) := by
  have visited (task : Task) : P (visitedBucket task g) := k.butUpkeep (visitedBucket_quietButUpkeep task g) held
  have finished (task : Task) : P (task.finish (visitedBucket task g)) := by
    cases task with
    | retire e carried => exact k.tame (becomeVacant_quiet e _).tame (k.vacate (visited _))
    | recount e => exact k.tame (finishRecount_quiet e _).tame (visited _)
    | ageScan => exact visited _
  rcases maintenanceVisit_cases g with idle | ⟨task, rest, -, ⟨-, goes⟩ | ⟨-, ends⟩⟩
  · rwa [idle]
  · exact goes ▸ visited task
  · exact ends ▸ k.butUpkeep (endWalk_quietButUpkeep task rest _) (finished task)

theorem retireEvent (k : KeptPlainly P) {q : Request} {g : Gate} (held : P g) : P (retireEvent q g).gate := by
  rcases retireEvent_gate_cases q g with refused | ⟨e, closed, retired⟩
  · rwa [refused]
  · have closed' : ((queueRetire e g).event e).phase = .closed := by rwa [queueRetire_eq_upkeep]
    rw [retired, changePhase_closed_retiring closed']
    refine k.books (post_books ..) (k.retire closed' ?_)
    rw [queueRetire_eq_upkeep]
    exact k.upkeep _ held

theorem restartNow (k : KeptPlainly P) {cause : Byte} {g : Gate} (held : P g) : P (restartNow cause g) := by
  have cut : P (cutSave g) := by
    unfold cutSave
    split
    · have drawn : Books g { g with freeDraws := g.freeDraws + 1 } := ⟨rfl, id⟩
      exact k.eeprom (fun canonical => Memory.wf_writeAll canonical ..) (k.books drawn held)
    · exact held
  exact k.butUpkeep (restartNow_quietButUpkeep cause g) (k.books (post_books ..) (k.clear cut))

theorem saveImageEnd (k : KeptPlainly P) {acknowledged : Nat} {g : Gate} (held : P g) :
    P (saveImageEnd acknowledged g) := by
  rcases saveImageEnd_cases acknowledged g with idle | ⟨tag, image, -, ⟨-, whole⟩ | ⟨-, part⟩⟩
  · rwa [idle]
  · rw [whole]
    exact k.books (endSave_books ..) (k.eeprom (fun canonical => Memory.wf_write (Memory.wf_writeAll canonical ..) ..) held)
  · rw [part]
    refine k.books (endSave_books ..) ?_
    have written : P (setEeprom (writePart image acknowledged g).loader.eeprom g) := k.eeprom writePart_wf held
    have drawn : Books (setEeprom (writePart image acknowledged g).loader.eeprom g) (writePart image acknowledged g) :=
      ⟨by rw [writePart_frame]; rfl, fun ok => by rw [writePart_frame]; exact ok⟩
    exact k.books drawn written

theorem managementCell (k : KeptPlainly P) {g : Gate} (held : P g) : P (managementCell g) := by
  rcases managementCell_cases g with counted | ⟨cell, pre, before, -, joined⟩
  · exact k.tame counted.quiet.tame held
  · exact joined ▸ k.books (joinQueue_books ..) (k.tame before.quiet.tame held)

/-- Such a property is kept by every command but POWER_ON. -/
theorem bySteps (k : KeptPlainly P) : KeptBySteps P P where
  quiet q := k.tame q.tame
  quietBegun q := k.tame q.tame
  leave _ _ := k.books (leaveQueue_books _)
  reply := k.books (placeReply_books ..)
  takeUp := k.books (takeUpItems_books ..)
  item _ := k.books (afterItem_books ..)
  imageLoadEnd := k.imageLoadEnd
  management := k.managementCell
  sweep := k.tame (sweepVisit_tame _)
  maintenance := k.maintenanceVisit
  age := k.butUpkeep (ageInstant_quietButUpkeep _)
  returns := k.books (returnSlot_books _)
  load {q g} held := by
    rcases loadEvent_gate_cases q g with refused | ⟨e, inRange, identity, vacant, claimable, taken⟩
    · rwa [refused]
    · rw [taken]
      refine k.tame (takeRecord_quiet ..).tame ?_
      rw [takeRecord_lanes, takeRecord_events]
      exact (k.take inRange identity vacant claimable held)
  amend := k.butUpkeep (amendEvent_quietButUpkeep ..)
  retire := k.retireEvent
  setZone {q g} held := by
    rcases setZone_gate_cases q g with refused | ⟨z, share, low, high, dark, written⟩
    · rwa [refused]
    · exact written ▸ k.share low high held
  setProfile {q g} held := by
    rcases setProfile_gate_cases q g with refused | written
    · rwa [refused]
    · rw [written]
      exact k.settings (fun ok => ⟨ok.share, ok.cues, ok.codes, ok.entries, ok.openLead, ok.guard, ok.again, ok.warn,
        ok.stall, ok.aging, ok.nominal, ok.returns⟩) held
  setCueMap {q g} held := by
    rcases setCueMap_gate_cases q g with refused | ⟨n, entries, few, distinct, map, written⟩
    · rwa [refused]
    · rw [written]
      refine k.settings (fun ok => ⟨ok.share, ?_, ?_, cueMapAt_entries map, ok.openLead, ok.guard, ok.again, ok.warn,
        ok.stall, ok.aging, ok.nominal, ok.returns⟩) held
      · have length := congrArg List.length (cueMapAt_codes map)
        simp only [List.length_map, cueCodesAt_length] at length
        exact length ▸ few
      · exact (cueMapAt_codes map).symm ▸ distinct
  setTiming {q g} held := by
    rcases setTiming_gate_cases q g with refused | ⟨inRange, written⟩
    · rwa [refused]
    · rw [written]
      exact k.tame (writeTiming_quiet ..).tame (k.settings (withTiming_ok inRange) held)
  save held := k.eeprom (fun canonical => Memory.wf_write canonical ..) (k.books (command_books _ rfl) held)
  saveEnd := k.saveImageEnd
  restart := k.books (beginRestart_books ..)
  restarted := k.restartNow

end KeptPlainly

end Sys2Proof.Machine

/-! PROOF. The invariants that every step keeps plainly: the EEPROM in canonical form, the settings in their ranges, one
status item for a key, and the course of the Site Clock. -/

namespace Sys2Proof.Machine

open Sys2Proof.Safety Sys2Proof.Claims

/-! ## The image load -/

/-- Table 81: the two fields of a zone that an image holds. -/
def Zone.withShare (share : Half) (dark : Bool) (zone : Zone) : Zone :=
  { zone with share := share, dark := dark }

theorem zone_of_zones {g h : Gate} (zones : g.zones = h.zones) (z : ZoneIndex) : g.zone z = h.zone z :=
  congrArg (fun zones => zones[z]) zones

theorem imageZones_eq (image : List Byte) (g : Gate) :
    allZones.foldl (fun acc z => loadZone image z acc) g
      = onZones (fun z => Zone.withShare (imageShare image z) (imageDark image z)) g :=
  foldZones_eq _ _ g (fun _ _ => rfl)

theorem defaultZones_eq (g : Gate) :
    allZones.foldl (fun acc z => defaultZone z acc) g
      = onZones (fun _ => Zone.withShare Config.builtInShare false) g :=
  foldZones_eq _ _ g (fun _ _ => rfl)

theorem takeImage_loader (image : List Byte) (g : Gate) :
    (takeImage image g).loader = { g.loader with
      nominalRate := BitVec.ofNat 32 (natAt image 80 4)
      returnRate := BitVec.ofNat 16 (natAt image 84 2) } := by
  unfold takeImage
  rw [imageZones_eq]
  rfl

theorem takeImage_zones (image : List Byte) (g : Gate) :
    (takeImage image g).zones = (onZones (fun z => Zone.withShare (imageShare image z) (imageDark image z)) g).zones := by
  unfold takeImage
  rw [imageZones_eq]

theorem takeImage_zone (image : List Byte) (g : Gate) (z : ZoneIndex) :
    (takeImage image g).zone z = (g.zone z).withShare (imageShare image z) (imageDark image z) :=
  (zone_of_zones (takeImage_zones ..) z).trans (onZones_zone ..)

theorem takeImage_frame (image : List Byte) (g : Gate) :
    takeImage image g = { g with
      zones := (takeImage image g).zones
      settings := imageSettings image
      loader := (takeImage image g).loader } := by
  obtain ⟨zones, zoned⟩ : ∃ zones, allZones.foldl (fun acc z => loadZone image z acc) g = { g with zones := zones } :=
    ⟨_, imageZones_eq image g⟩
  unfold takeImage
  rw [zoned]

theorem takeDefaults_loader (g : Gate) :
    (takeDefaults g).loader = { g.loader with
      nominalRate := Config.builtInNominalRate
      returnRate := Config.builtInReturnRate } := by
  unfold takeDefaults
  rw [defaultZones_eq]
  rfl

theorem takeDefaults_zones (g : Gate) :
    (takeDefaults g).zones = (onZones (fun _ => Zone.withShare Config.builtInShare false) g).zones := by
  unfold takeDefaults
  rw [defaultZones_eq]

theorem takeDefaults_zone (g : Gate) (z : ZoneIndex) :
    (takeDefaults g).zone z = (g.zone z).withShare Config.builtInShare false :=
  (zone_of_zones (takeDefaults_zones ..) z).trans (onZones_zone ..)

theorem takeDefaults_frame (g : Gate) :
    takeDefaults g = { g with
      zones := (takeDefaults g).zones
      settings := Settings.builtIn
      loader := (takeDefaults g).loader } := by
  obtain ⟨zones, zoned⟩ : ∃ zones, allZones.foldl (fun acc z => defaultZone z acc) g = { g with zones := zones } :=
    ⟨_, defaultZones_eq g⟩
  unfold takeDefaults
  rw [zoned]

theorem finishLoad_zones (g : Gate) : (finishLoad g).zones = g.zones := rfl

/-- R93, R179: the end of a load changes two fields, and posts an item. -/
theorem endedLoad_emits (sub failure : Byte) (g : Gate) :
    Emits { g with
      loader := (postImage sub failure (finishLoad g)).loader
      upkeep := (postImage sub failure (finishLoad g)).upkeep } (postImage sub failure (finishLoad g)) :=
  post_emits ..

theorem imageLoadEnd_cases (acknowledged : Nat) (g : Gate) :
    imageLoadEnd acknowledged g = g ∨
      (∃ image, imageInRange image = true ∧
        imageLoadEnd acknowledged g = postImage 0x01 0x00 (finishLoad (takeImage image g))) ∨
      ∃ failure, imageLoadEnd acknowledged g = postImage 0x02 failure (finishLoad (takeDefaults g)) := by
  unfold imageLoadEnd
  split
  · unfold endLoad
    dsimp only
    split
    · next taken =>
      refine .inr (.inl ⟨_, ?_, rfl⟩)
      unfold imageFailure at taken
      iterate 4
        split at taken
        · cases taken
      simpa using taken
    · exact .inr (.inr ⟨_, rfl⟩)
  · exact .inl rfl

/-- The end of the image load changes zones, settings, loader and age instant, and posts the IMAGE item. -/
theorem imageLoadEnd_emits (acknowledged : Nat) (g : Gate) :
    Emits { g with
      zones := (imageLoadEnd acknowledged g).zones
      settings := (imageLoadEnd acknowledged g).settings
      loader := (imageLoadEnd acknowledged g).loader
      upkeep := (imageLoadEnd acknowledged g).upkeep } (imageLoadEnd acknowledged g) := by
  rcases imageLoadEnd_cases acknowledged g with idle | ⟨image, -, taken⟩ | ⟨failure, aside⟩
  · rw [idle]
    exact Emits.refl g
  · rw [taken]
    refine Emits.trans ?_ (endedLoad_emits ..)
    rw [takeImage_frame]
    exact Emits.refl _
  · rw [aside]
    refine Emits.trans ?_ (endedLoad_emits ..)
    rw [takeDefaults_frame]
    exact Emits.refl _

/-- R179: of a zone, the image load changes share and dark flag. -/
theorem imageLoadEnd_zone (acknowledged : Nat) (g : Gate) (z : ZoneIndex) :
    (imageLoadEnd acknowledged g).zone z = g.zone z ∨
      ∃ share dark, (imageLoadEnd acknowledged g).zone z = (g.zone z).withShare share dark := by
  rcases imageLoadEnd_cases acknowledged g with idle | ⟨image, -, taken⟩ | ⟨failure, aside⟩
  · exact .inl (by rw [idle])
  · refine .inr ⟨imageShare image z, imageDark image z, ?_⟩
    rw [taken, postImage, post_zone, zone_of_zones (finishLoad_zones _), takeImage_zone]
  · refine .inr ⟨Config.builtInShare, false, ?_⟩
    rw [aside, postImage, post_zone, zone_of_zones (finishLoad_zones _), takeDefaults_zone]

theorem endedLoad_eeprom (sub failure : Byte) (g : Gate) :
    (postImage sub failure (finishLoad g)).loader.eeprom = g.loader.eeprom := by
  rw [postImage, post_loader, finishLoad]

theorem imageLoadEnd_eeprom (acknowledged : Nat) (g : Gate) :
    (imageLoadEnd acknowledged g).loader.eeprom = g.loader.eeprom := by
  rcases imageLoadEnd_cases acknowledged g with idle | ⟨image, -, taken⟩ | ⟨failure, aside⟩
  · rw [idle]
  · rw [taken, endedLoad_eeprom, takeImage_loader]
  · rw [aside, endedLoad_eeprom, takeDefaults_loader]

theorem builtInCueMap_ok : ∀ entry ∈ builtInCueMap, cueEntryOk entry := by
  have chosen : builtInCueMap.all (fun entry => match entry.minutes with
      | some minutes => entry.task = .extendPreview ∧ 1 ≤ minutes.toNat ∧ minutes.toNat ≤ 30
      | none => entry.task ≠ .extendPreview) = true := by decide
  intro entry mem
  have fits := List.all_eq_true.mp chosen entry mem
  unfold cueEntryOk
  split
  · next minutes present => simpa [present] using fits
  · next absent => simpa [absent] using fits

/-- Table 81: the built-in settings are in range. -/
theorem settingsOk_of_builtIn {g : Gate} (shares : ∀ z, (g.zone z).share = Config.builtInShare)
    (settings : g.settings = Settings.builtIn) (nominal : g.loader.nominalRate = Config.builtInNominalRate)
    (returns : g.loader.returnRate = Config.builtInReturnRate) : SettingsOk g where
  share z := by rw [shares z]; decide
  cues := by rw [settings]; decide
  codes := by rw [settings]; decide
  entries := by rw [settings]; exact builtInCueMap_ok
  openLead := by rw [settings]; decide
  guard := by rw [settings]; decide
  again := by rw [settings]; decide
  warn := by rw [settings]; decide
  stall := by rw [settings]; decide
  aging := by rw [settings]; decide
  nominal := by rw [nominal]; decide
  returns := by rw [returns]; decide

/-- R179: an image that is taken has every field in range. -/
theorem settingsOk_of_image {image : List Byte} (inRange : imageInRange image = true) {g : Gate}
    (shares : ∀ z, (g.zone z).share = imageShare image z) (settings : g.settings = imageSettings image)
    (nominal : g.loader.nominalRate = BitVec.ofNat 32 (natAt image 80 4))
    (returns : g.loader.returnRate = BitVec.ofNat 16 (natAt image 84 2)) : SettingsOk g := by
  simp only [imageInRange, imageZonesGood, imageCuesGood, imageTimingGood, imageRatesGood, Bool.and_eq_true,
    decide_eq_true_eq, List.all_eq_true] at inRange
  obtain ⟨⟨⟨⟨⟨sharesGood, -⟩, -⟩, ⟨few, distinct⟩, mapped⟩,
    ⟨⟨⟨⟨⟨⟨⟨⟨⟨lead, guard⟩, againLow⟩, againHigh⟩, warnLow⟩, warnHigh⟩, stallLow⟩, stallHigh⟩, agingLow⟩, agingHigh⟩, -⟩,
    ⟨⟨nominalLow, nominalHigh⟩, returnLow⟩, returnHigh⟩ := inRange
  obtain ⟨entries, map⟩ := Option.isSome_iff_exists.mp mapped
  have kept : g.settings.cueMap = entries := by rw [settings, imageSettings, map, Option.getD_some]
  have length := congrArg List.length (cueMapAt_codes map)
  simp only [List.length_map, cueCodesAt_length] at length
  exact
    { share := fun z => by rw [shares z]; exact sharesGood z (mem_allZones z)
      cues := by rw [kept, length]; exact few
      codes := by rw [kept, cueMapAt_codes map]; exact distinct
      entries := by rw [kept]; exact cueMapAt_entries map
      openLead := by rw [settings]; exact lead
      guard := by rw [settings]; exact guard
      again := by rw [settings]; exact ⟨againLow, againHigh⟩
      warn := by rw [settings]; exact ⟨warnLow, warnHigh⟩
      stall := by rw [settings]; exact ⟨stallLow, stallHigh⟩
      aging := by rw [settings]; exact ⟨agingLow, agingHigh⟩
      nominal := by rw [nominal, BitVec.toNat_ofNat]; omega
      returns := by rw [returns, BitVec.toNat_ofNat]; omega }

theorem imageLoadEnd_settingsOk {acknowledged : Nat} {g : Gate} (ok : SettingsOk g) :
    SettingsOk (imageLoadEnd acknowledged g) := by
  rcases imageLoadEnd_cases acknowledged g with idle | ⟨image, inRange, taken⟩ | ⟨failure, aside⟩
  · rwa [idle]
  · rw [taken]
    refine settingsOk_of_image inRange (fun z => ?_) ?_ ?_ ?_
    · rw [postImage, post_zone, zone_of_zones (finishLoad_zones _), takeImage_zone, Zone.withShare]
    · rw [postImage, post_settings, finishLoad, takeImage_frame]
    · rw [postImage, post_loader, finishLoad, takeImage_loader]
    · rw [postImage, post_loader, finishLoad, takeImage_loader]
  · rw [aside]
    refine settingsOk_of_builtIn (fun z => ?_) ?_ ?_ ?_
    · rw [postImage, post_zone, zone_of_zones (finishLoad_zones _), takeDefaults_zone, Zone.withShare]
    · rw [postImage, post_settings, finishLoad, takeDefaults_frame]
    · rw [postImage, post_loader, finishLoad, takeDefaults_loader]
    · rw [postImage, post_loader, finishLoad, takeDefaults_loader]

/-! ## POWER_ON -/

theorem powerOn_settingsOk (unitStraps : Byte) (zoneStraps : BitVec 2) (fitted : Option (List Byte)) (g : Gate) :
    SettingsOk (powerOn unitStraps zoneStraps fitted g) := by
  refine settingsOk_of_builtIn (fun z => ?_) rfl rfl rfl
  rw [powerOn_zone]
  rfl

theorem powerOn_wf {unitStraps : Byte} {zoneStraps : BitVec 2} {fitted : Option (List Byte)} {g : Gate}
    (canonical : Memory.wf g.loader.eeprom) : Memory.wf (powerOn unitStraps zoneStraps fitted g).loader.eeprom := by
  cases fitted with
  | none => exact cutSave_wf canonical
  | some image => exact Memory.wf_writeAll Memory.wf_nil ..

/-! ## Settings, EEPROM, status set and clock -/

theorem settingsOk_congr {g h : Gate} (ok : SettingsOk g) (shares : ∀ z, (h.zone z).share = (g.zone z).share)
    (settings : h.settings = g.settings) (nominal : h.loader.nominalRate = g.loader.nominalRate)
    (returns : h.loader.returnRate = g.loader.returnRate) : SettingsOk h where
  share z := by rw [shares z]; exact ok.share z
  cues := by rw [settings]; exact ok.cues
  codes := by rw [settings]; exact ok.codes
  entries := by rw [settings]; exact ok.entries
  openLead := by rw [settings]; exact ok.openLead
  guard := by rw [settings]; exact ok.guard
  again := by rw [settings]; exact ok.again
  warn := by rw [settings]; exact ok.warn
  stall := by rw [settings]; exact ok.stall
  aging := by rw [settings]; exact ok.aging
  nominal := by rw [nominal]; exact ok.nominal
  returns := by rw [returns]; exact ok.returns

/-- A property of the settings of the zones, the settings and the rates. -/
theorem settings_keptPlainly : KeptPlainly SettingsOk where
  tame t ok := settingsOk_congr ok (fun z => (t.zone z).1) t.settings (by rw [t.loader]) (by rw [t.loader])
  books b ok := by rw [b.gate]; exact settingsOk_congr ok (fun _ => rfl) rfl rfl rfl
  upkeep _ ok := settingsOk_congr ok (fun _ => rfl) rfl rfl rfl
  imageLoadEnd := imageLoadEnd_settingsOk
  take _ _ _ _ ok := settingsOk_congr ok (fun _ => rfl) rfl rfl rfl
  retire _ ok := settingsOk_congr ok (fun _ => rfl) rfl rfl rfl
  vacate ok := settingsOk_congr ok (fun _ => rfl) rfl rfl rfl
  share {z share dark g} low high ok :=
    { share := fun i => by
        rw [modZone_zone]
        split
        · exact ⟨low, high⟩
        · exact ok.share i
      cues := ok.cues
      codes := ok.codes
      entries := ok.entries
      openLead := ok.openLead
      guard := ok.guard
      again := ok.again
      warn := ok.warn
      stall := ok.stall
      aging := ok.aging
      nominal := ok.nominal
      returns := ok.returns }
  settings keeps := keeps
  eeprom _ ok := settingsOk_congr ok (fun _ => rfl) rfl rfl rfl
  clear ok := settingsOk_congr ok (fun z => by rw [clearBlocks_zone]; rfl) rfl rfl rfl

theorem eeprom_keptPlainly : KeptPlainly (fun g => Memory.wf g.loader.eeprom) where
  tame t canonical := by rwa [t.loader]
  books b canonical := by rw [b.gate]; exact canonical
  upkeep _ := id
  imageLoadEnd canonical := by rwa [imageLoadEnd_eeprom]
  take _ _ _ _ := id
  retire _ := id
  vacate := id
  share _ _ := id
  settings _ := id
  eeprom keeps := keeps
  clear := id

theorem status_keptPlainly : KeptPlainly StatusOk where
  tame t := t.status
  books b := b.status
  upkeep _ := id
  imageLoadEnd := (imageLoadEnd_emits ..).status
  take _ _ _ _ := id
  retire _ := id
  vacate := id
  share _ _ := id
  settings _ := id
  eeprom _ := id
  clear _ := .nil

/-- From a time and a state of the clock on, site time has not fallen and the clock has stayed SET. -/
def ClockFrom (start : Clock) (g : Gate) : Prop :=
  start.siteTime ≤ g.clock.siteTime ∧ (start.isSet = true → g.clock.isSet = true)

theorem clock_keptPlainly (start : Clock) : KeptPlainly (ClockFrom start) where
  tame t held := ⟨BitVec.le_trans held.1 t.clock.1, t.clock.2 ∘ held.2⟩
  books b held := by rw [b.gate]; exact held
  upkeep _ := id
  imageLoadEnd {acknowledged g} held := by rw [(imageLoadEnd_emits acknowledged g).gate]; exact held
  take _ _ _ _ := id
  retire _ := id
  vacate := id
  share _ _ := id
  settings _ := id
  eeprom _ := id
  clear := id

end Sys2Proof.Machine

namespace Sys2Proof.Proofs

open Sys2Proof.Machine Sys2Proof.Safety Sys2Proof.Claims

/-- Settles O4: only the image load, the settings' commands and the saves write either. -/
theorem everyStepKeepsTheEepromAndTheSettings : Obligations.EveryStepKeepsTheEepromAndTheSettings :=
  ⟨fun _ _ => step_keeps (P := fun g => Memory.wf g.loader.eeprom)
      (fun _ _ held => eeprom_keptPlainly.bySteps.effect held (fun _ _ _ _ => powerOn_wf held)),
    fun _ _ => step_keeps (fun _ _ held =>
      settings_keptPlainly.bySteps.effect held (fun _ _ _ _ => powerOn_settingsOk ..))⟩

/-- Settles O7: a posted item replaces the item of its key. -/
theorem everyStepKeepsTheStatusKeysApart : Obligations.EveryStepKeepsTheStatusKeysApart :=
  fun _ _ => step_keeps (fun _ _ held => status_keptPlainly.bySteps.effect held (fun _ _ _ _ => .nil))

/-- Settles O12: SITE_CLOCK_TICK and TIME_CELL alone write the clock. -/
theorem siteTimeNeverFalls : Obligations.SiteTimeNeverFalls := by
  intro s t c notPowerOn ran
  rw [exec_next_iff] at ran
  rw [ran]
  exact (clock_keptPlainly s.gate.clock).bySteps.effect ⟨BitVec.le_refl _, id⟩
    (fun unitStraps zoneStraps fitted same => absurd same (notPowerOn unitStraps zoneStraps fitted))

end Sys2Proof.Proofs

/-! PROOF. The Event Table and the lane table: every lane entry names exactly the loaded record that names the lane. -/

namespace Sys2Proof.Machine

open Sys2Proof.Safety Sys2Proof.Claims

/-! ## Entries of the lane table -/

/-- R6: a record names a lane as its own, in the part of a claim. -/
def Event.names (ev : Event) (lane : Lane) : LaneClaim → Prop
  | .content _ => lane ∈ ev.firstLane :: ev.moreLanes
  | .key _ => ev.keyLane = lane
  | .alternate _ => ev.alternateLane = some lane

/-- The Event Table's invariant, with one rule for the three claims. -/
structure TableOk (g : Gate) : Prop where
  numbers : ∀ e f, occupied g e → occupied g f → (g.event e).number = (g.event f).number → e = f
  sorted : Sparse.Sorted g.lanes
  unreserved : ∀ entry ∈ g.lanes, entry.1 < 4080
  claims : ∀ lane claim, Sparse.get g.lanes lane.toNat = some claim ↔
    occupied g claim.owner ∧ (g.event claim.owner).names lane claim
  resume : ∀ e, resumeFits (g.event e)

/-- R6, R9: the entry that a lane's kind shows. -/
def LaneClaim.kind : LaneClaim → LaneKind
  | .content e => .content e
  | .key e => .key e
  | .alternate e => .alternate e

theorem laneKind_eq_kind_iff {g : Gate} (unreserved : ∀ entry ∈ g.lanes, entry.1 < 4080) {lane : Lane}
    {claim : LaneClaim} : g.laneKind lane = claim.kind ↔ Sparse.get g.lanes lane.toNat = some claim := by
  unfold Gate.laneKind
  split
  · next reserved =>
    constructor
    · intro same
      cases claim <;> cases same
    · intro listed
      exact absurd (unreserved _ (Sparse.mem_of_get listed)) (by omega)
  · cases Sparse.get g.lanes lane.toNat with
    | none => cases claim <;> simp [LaneClaim.kind]
    | some held => cases held <;> cases claim <;> simp [LaneClaim.kind]

theorem tableOk_iff {g : Gate} : TableOk g ↔ EventsOk g := by
  constructor
  · intro ok
    have named (lane : Lane) (claim : LaneClaim) :=
      (laneKind_eq_kind_iff ok.unreserved (lane := lane) (claim := claim)).trans (ok.claims lane claim)
    exact ⟨ok.numbers, ok.sorted, ok.unreserved, fun lane e => named lane (.content e), fun lane e => named lane (.key e),
      fun lane e => named lane (.alternate e), ok.resume⟩
  · intro ok
    refine ⟨ok.numbers, ok.sorted, ok.unreserved, fun lane claim => ?_, ok.resume⟩
    rw [← laneKind_eq_kind_iff ok.unreserved]
    cases claim with
    | content e => exact ok.content lane e
    | key e => exact ok.key lane e
    | alternate e => exact ok.alternate lane e

theorem sparse_get_eq_some_iff {α : Type} {table : List (Nat × α)} (sorted : Sparse.Sorted table) {k : Nat} {v : α} :
    Sparse.get table k = some v ↔ (k, v) ∈ table :=
  ⟨Sparse.mem_of_get, Sparse.get_of_mem sorted⟩

/-! ## Steps that leave the lane table -/

/-- What the invariant reads of an event record. -/
structure SameRecord (a b : Event) : Prop where
  number : b.number = a.number
  names : ∀ lane claim, b.names lane claim ↔ a.names lane claim
  vacant : b.phase = .vacant ↔ a.phase = .vacant
  resume : resumeFits b

theorem tableOk_of_sameRecords {g h : Gate} (ok : TableOk g) (lanes : h.lanes = g.lanes)
    (records : ∀ e, SameRecord (g.event e) (h.event e)) : TableOk h where
  numbers e f heldE heldF same := by
    rw [(records e).number, (records f).number] at same
    exact ok.numbers e f (mt (records e).vacant.mpr heldE) (mt (records f).vacant.mpr heldF) same
  sorted := lanes ▸ ok.sorted
  unreserved := lanes ▸ ok.unreserved
  claims lane claim := by
    rw [lanes, ok.claims lane claim]
    exact and_congr (not_congr (records _).vacant.symm) ((records _).names lane claim).symm
  resume e := (records e).resume

theorem SameRecord.refl {ev : Event} (fits : resumeFits ev) : SameRecord ev ev :=
  ⟨rfl, fun _ _ => Iff.rfl, Iff.rfl, fits⟩

theorem EventQuiet.sameRecord {a b : Event} (q : EventQuiet a b) (fits : resumeFits a) : SameRecord a b where
  number := q.number
  names lane claim := by
    unfold Event.names
    rw [q.firstLane, q.moreLanes, q.keyLane, q.alternateLane]
  vacant := q.vacant fits
  resume := q.resume fits

theorem tableOk_of_same {g h : Gate} (ok : TableOk g) (lanes : h.lanes = g.lanes) (events : h.events = g.events) :
    TableOk h :=
  tableOk_of_sameRecords ok lanes (fun e => by
    have same : h.event e = g.event e := congrArg (fun events => events[e]) events
    rw [same]
    exact .refl (ok.resume e))

theorem tableOk_setEvent {e : EventIndex} {ev : Event} {g : Gate} (ok : TableOk g) (same : SameRecord (g.event e) ev) :
    TableOk (g.setEvent e ev) := by
  refine tableOk_of_sameRecords ok rfl (fun i => ?_)
  by_cases own : i = e
  · rw [own, setEvent_event_same]
    exact same
  · rw [setEvent_event_other own]
    exact .refl (ok.resume i)

theorem retired_sameRecord {ev : Event} (closed : ev.phase = .closed) (now : Time) : SameRecord ev (ev.retired now) where
  number := rfl
  names _ claim := by cases claim <;> exact Iff.rfl
  vacant := by simp [Event.retired, closed]
  resume := by simp [Event.retired, resumeFits]

theorem restarted_sameRecord {ev : Event} (fits : resumeFits ev) : SameRecord ev ev.restarted :=
  ⟨rfl, fun _ claim => by cases claim <;> exact Iff.rfl, Iff.rfl, fits⟩

/-! ## A record becomes VACANT -/

theorem tableOk_release {e : EventIndex} {g : Gate} (ok : TableOk g) :
    TableOk { g with lanes := (releaseLanes e g).lanes, events := g.events.set e Event.vacant } := by
  have event (i : EventIndex) : (g.setEvent e Event.vacant).event i = if i = e then Event.vacant else g.event i := by
    split
    · next own => rw [own, setEvent_event_same]
    · next own => exact setEvent_event_other own ..
  have loaded (i : EventIndex) : occupied (g.setEvent e Event.vacant) i ↔ i ≠ e ∧ occupied g i := by
    unfold occupied
    rw [event]
    split
    · next own => simp [own, Event.vacant]
    · next own => simp [own]
  have sorted : Sparse.Sorted (releaseLanes e g).lanes := Sparse.sorted_filter ok.sorted _
  refine
    { numbers := fun i j heldI heldJ same => ?_
      sorted := sorted
      unreserved := fun entry listed => ok.unreserved entry (List.mem_of_mem_filter listed)
      claims := fun lane claim => ?_
      resume := fun i => ?_ }
  · obtain ⟨otherI, heldI⟩ := (loaded i).mp heldI
    obtain ⟨otherJ, heldJ⟩ := (loaded j).mp heldJ
    have same : ((g.setEvent e Event.vacant).event i).number = ((g.setEvent e Event.vacant).event j).number := same
    rw [event, event, if_neg otherI, if_neg otherJ] at same
    exact ok.numbers i j heldI heldJ same
  · have kept : Sparse.get (releaseLanes e g).lanes lane.toNat = some claim
        ↔ Sparse.get g.lanes lane.toNat = some claim ∧ claim.owner ≠ e := by
      rw [sparse_get_eq_some_iff sorted, sparse_get_eq_some_iff ok.sorted]
      simp [releaseLanes]
    refine kept.trans ?_
    rw [ok.claims lane claim]
    have record := event claim.owner
    constructor
    · rintro ⟨⟨held, names⟩, other⟩
      rw [if_neg other] at record
      refine ⟨(loaded claim.owner).mpr ⟨other, held⟩, ?_⟩
      exact record.symm ▸ names
    · rintro ⟨held, names⟩
      obtain ⟨other, held⟩ := (loaded claim.owner).mp held
      rw [if_neg other] at record
      exact ⟨⟨held, record ▸ names⟩, other⟩
  · show resumeFits ((g.setEvent e Event.vacant).event i)
    rw [event]
    split
    · simp [resumeFits, Event.vacant]
    · exact ok.resume i

/-! ## A LOAD claims its lanes -/

theorem claimed_lanes_get (claim : LaneClaim) (lanes : List Half) (k : Nat) (g : Gate) :
    Sparse.get (lanes.foldl (fun acc lane => claimLane claim lane acc) g).lanes k
      = if k ∈ lanes.map (fun lane => (laneOfHalf lane).toNat) then some claim else Sparse.get g.lanes k := by
  induction lanes generalizing g with
  | nil => rfl
  | cons lane rest ih =>
    rw [List.foldl_cons, ih]
    by_cases own : k = (laneOfHalf lane).toNat
    · simp [own, claimLane, Sparse.get_set_same]
    · simp [own, claimLane, Sparse.get_set_other]

theorem claimed_lanes_mem {claim : LaneClaim} {lanes : List Half} {g : Gate} {entry : Nat × LaneClaim}
    (listed : entry ∈ (lanes.foldl (fun acc lane => claimLane claim lane acc) g).lanes) :
    entry ∈ g.lanes ∨ ∃ lane ∈ lanes, entry.1 = (laneOfHalf lane).toNat := by
  induction lanes generalizing g with
  | nil => exact .inl listed
  | cons lane rest ih =>
    rcases ih listed with before | ⟨other, mem, key⟩
    · rcases Sparse.mem_set before with new | old
      · exact .inr ⟨lane, List.mem_cons_self, congrArg Prod.fst new⟩
      · exact .inl old
    · exact .inr ⟨other, List.mem_cons_of_mem _ mem, key⟩

theorem claimed_lanes_sorted (claim : LaneClaim) (lanes : List Half) {g : Gate} (sorted : Sparse.Sorted g.lanes) :
    Sparse.Sorted (lanes.foldl (fun acc lane => claimLane claim lane acc) g).lanes :=
  List.foldlRecOn (motive := fun acc : Gate => Sparse.Sorted acc.lanes) lanes _ sorted
    (fun _ before _ _ => Sparse.sorted_set before ..)

/-- R7: the lane table with a LOAD's lanes claimed in turn. -/
theorem claimLanes_lanes (e : EventIndex) (f : LoadFields) (g : Gate) :
    (claimLanes e f g).lanes
      = (f.alternate.toList.foldl (fun acc lane => claimLane (.alternate e) lane acc)
          ([f.keyLane].foldl (fun acc lane => claimLane (.key e) lane acc)
            (f.lanes.foldl (fun acc lane => claimLane (.content e) lane acc) g))).lanes := rfl

theorem claimLanes_sorted (e : EventIndex) (f : LoadFields) {g : Gate} (sorted : Sparse.Sorted g.lanes) :
    Sparse.Sorted (claimLanes e f g).lanes := by
  rw [claimLanes_lanes]
  exact claimed_lanes_sorted _ _ (claimed_lanes_sorted _ _ (claimed_lanes_sorted _ _ sorted))

theorem claimLanes_mem {e : EventIndex} {f : LoadFields} {g : Gate} {entry : Nat × LaneClaim}
    (listed : entry ∈ (claimLanes e f g).lanes) :
    entry ∈ g.lanes ∨ ∃ lane ∈ f.named, entry.1 = (laneOfHalf lane).toNat := by
  unfold LoadFields.named
  rw [claimLanes_lanes] at listed
  rcases claimed_lanes_mem listed with listed | ⟨lane, mem, key⟩
  · rcases claimed_lanes_mem listed with listed | ⟨lane, mem, key⟩
    · rcases claimed_lanes_mem listed with listed | ⟨lane, mem, key⟩
      · exact .inl listed
      · exact .inr ⟨lane, by simp [mem], key⟩
    · exact .inr ⟨lane, by simp [List.mem_singleton.mp mem], key⟩
  · exact .inr ⟨lane, by simp [Option.mem_toList.mp mem], key⟩

/-- R7: what claims a lane names among those of a LOAD. -/
def LoadFields.claimed (f : LoadFields) (e : EventIndex) (lane : Lane) : Option LaneClaim :=
  if lane ∈ f.lanes.map laneOfHalf then some (.content e)
  else if laneOfHalf f.keyLane = lane then some (.key e)
  else if f.alternate.map laneOfHalf = some lane then some (.alternate e)
  else none

/-- R7: no lane of 0–4095 is named twice. -/
structure LanesApart (f : LoadFields) : Prop where
  key : laneOfHalf f.keyLane ∉ f.lanes.map laneOfHalf
  alternate : ∀ lane, f.alternate.map laneOfHalf = some lane →
    lane ∉ f.lanes.map laneOfHalf ∧ laneOfHalf f.keyLane ≠ lane

theorem laneOfHalf_inj {a b : Half} (smallA : a.toNat ≤ 4095) (smallB : b.toNat ≤ 4095)
    (same : laneOfHalf a = laneOfHalf b) : a = b := by
  have value := congrArg BitVec.toNat same
  unfold laneOfHalf at value
  rw [BitVec.toNat_setWidth, BitVec.toNat_setWidth] at value
  exact BitVec.eq_of_toNat_eq (by omega)

theorem lanesApart {f : LoadFields} {g : Gate} (inRange : g.loadInRange f = true)
    (claimable : g.claimable f.named = true) : LanesApart f := by
  simp only [Gate.loadInRange, Bool.and_eq_true, List.all_eq_true, decide_eq_true_eq] at inRange
  obtain ⟨⟨⟨⟨⟨⟨-, small⟩, -⟩, -⟩, -⟩, -⟩, -⟩ := inRange
  simp only [Gate.claimable, Bool.and_eq_true, decide_eq_true_eq] at claimable
  obtain ⟨-, distinct⟩ := claimable
  have apart : (f.named.map laneOfHalf).Nodup :=
    distinct.map_on (fun a memA b memB => laneOfHalf_inj (small a memA) (small b memB))
  unfold LoadFields.named at apart
  rw [List.map_append, List.map_append, List.nodup_append, List.nodup_append] at apart
  obtain ⟨⟨-, -, keyApart⟩, -, alternateApart⟩ := apart
  have key : laneOfHalf f.keyLane ∉ f.lanes.map laneOfHalf :=
    fun mem => keyApart _ mem _ (List.mem_singleton_self _) rfl
  refine ⟨key, fun lane named => ?_⟩
  have listed : lane ∈ f.alternate.toList.map laneOfHalf := by
    cases alternate : f.alternate with
    | none => simp [alternate] at named
    | some half => simpa [alternate, eq_comm] using named
  exact ⟨fun mem => alternateApart lane (List.mem_append_left _ mem) lane listed rfl,
    fun same => alternateApart lane (List.mem_append_right _ (by simp [same])) lane listed rfl⟩

theorem mem_map_laneOfHalf_toNat {lane : Lane} {lanes : List Half} :
    lane.toNat ∈ lanes.map (fun half => (laneOfHalf half).toNat) ↔ lane ∈ lanes.map laneOfHalf := by
  simp [BitVec.toNat_inj]

theorem claimLanes_get {e : EventIndex} {f : LoadFields} {g : Gate} (apart : LanesApart f) (lane : Lane) :
    Sparse.get (claimLanes e f g).lanes lane.toNat = (f.claimed e lane).or (Sparse.get g.lanes lane.toNat) := by
  rw [claimLanes_lanes, claimed_lanes_get, claimed_lanes_get, claimed_lanes_get]
  simp only [mem_map_laneOfHalf_toNat]
  have alternate : lane ∈ f.alternate.toList.map laneOfHalf ↔ f.alternate.map laneOfHalf = some lane := by
    cases f.alternate <;> simp [eq_comm]
  have key : lane ∈ [f.keyLane].map laneOfHalf ↔ laneOfHalf f.keyLane = lane := by simp [eq_comm]
  simp only [alternate, key]
  unfold LoadFields.claimed
  by_cases isAlternate : f.alternate.map laneOfHalf = some lane
  · obtain ⟨notContent, notKey⟩ := apart.alternate lane isAlternate
    simp only [isAlternate, notContent, notKey, if_true, if_false, Option.some_or]
  · by_cases isKey : laneOfHalf f.keyLane = lane
    · have notContent : lane ∉ f.lanes.map laneOfHalf := isKey ▸ apart.key
      simp only [isAlternate, isKey, notContent, if_true, if_false, Option.some_or]
    · by_cases isContent : lane ∈ f.lanes.map laneOfHalf
      · simp only [isAlternate, isKey, isContent, if_true, if_false, Option.some_or]
      · simp only [isAlternate, isKey, isContent, if_false, Option.none_or]

theorem claimed_eq_some_iff {e : EventIndex} {f : LoadFields} {now : Time} {lane : Lane} {claim : LaneClaim}
    (apart : LanesApart f) (some_ : 1 ≤ f.lanes.length) :
    f.claimed e lane = some claim ↔ claim.owner = e ∧ (f.record now).names lane claim := by
  have content : laneOfHalf (f.lanes.headD 0) :: f.lanes.tail.map laneOfHalf = f.lanes.map laneOfHalf := by
    cases lanes : f.lanes with
    | nil => simp [lanes] at some_
    | cons => rfl
  unfold LoadFields.claimed
  cases claim with
  | content i =>
    have named : (f.record now).names lane (.content i) ↔ lane ∈ f.lanes.map laneOfHalf := by
      rw [← content]
      exact Iff.rfl
    rw [named]
    split
    · next mem => simp [mem, LaneClaim.owner, eq_comm]
    · next notMem =>
      simp only [notMem, and_false, iff_false]
      split <;> [skip; split] <;> simp
  | key i =>
    have named : (f.record now).names lane (.key i) ↔ laneOfHalf f.keyLane = lane := Iff.rfl
    rw [named]
    split
    · next mem =>
      have notKey : laneOfHalf f.keyLane ≠ lane := fun same => apart.key (same ▸ mem)
      simp [notKey]
    · split
      · next isKey => simp [isKey, LaneClaim.owner, eq_comm]
      · next notKey =>
        simp only [notKey, and_false, iff_false]
        split <;> simp
  | alternate i =>
    have named : (f.record now).names lane (.alternate i) ↔ f.alternate.map laneOfHalf = some lane := Iff.rfl
    rw [named]
    split
    · next mem =>
      have notAlternate : f.alternate.map laneOfHalf ≠ some lane := fun same => (apart.alternate lane same).1 mem
      simp [notAlternate]
    · split
      · next isKey =>
        have notAlternate : f.alternate.map laneOfHalf ≠ some lane :=
          fun same => (apart.alternate lane same).2 isKey
        simp [notAlternate]
      · split
        · next isAlternate => simp [isAlternate, LaneClaim.owner, eq_comm]
        · next notAlternate => simp [notAlternate]

theorem vacantIndex_vacant {g : Gate} {e : EventIndex} (vacant : g.vacantIndex = some e) :
    (g.event e).phase = .vacant := by
  simpa using List.find?_some vacant

theorem not_carried_of_loadIdentity {g : Gate} {number : Half} (identity : g.loadIdentity number = none) :
    ¬ Carried g number := by
  rw [← findEvent_eq_none_iff]
  unfold Gate.loadIdentity at identity
  split at identity
  · split at identity <;> cases identity
  · assumption

/-- R34, R35: a LOAD that is accepted. -/
structure Accepted (g : Gate) (f : LoadFields) (e : EventIndex) : Prop where
  inRange : g.loadInRange f = true
  identity : g.loadIdentity f.number = none
  vacant : g.vacantIndex = some e
  claimable : g.claimable f.named = true

/-- R7: every lane that a LOAD claims was FREE. -/
theorem get_eq_none_of_claimed {f : LoadFields} {e i : EventIndex} {g : Gate} (accepted : Accepted g f e) {lane : Lane}
    {claim : LaneClaim} (claimed : f.claimed i lane = some claim) : Sparse.get g.lanes lane.toNat = none := by
  have free := accepted.claimable
  simp only [Gate.claimable, Bool.and_eq_true, List.all_eq_true, decide_eq_true_eq] at free
  have named : lane ∈ f.named.map laneOfHalf := by
    unfold LoadFields.claimed at claimed
    unfold LoadFields.named
    rw [List.map_append, List.map_append]
    split at claimed
    · next mem => simp [mem]
    · split at claimed
      · next key => simp [key]
      · split at claimed
        · next alternate =>
          obtain ⟨half, held, rfl⟩ := Option.map_eq_some_iff.mp alternate
          simp [held]
        · cases claimed
  obtain ⟨half, mem, rfl⟩ := List.mem_map.mp named
  have kind := free.1 half mem
  unfold Gate.laneKind at kind
  split at kind
  · cases kind
  · split at kind
    · assumption
    all_goals cases kind

theorem tableOk_take {f : LoadFields} {e : EventIndex} {g : Gate} (accepted : Accepted g f e) (ok : TableOk g) :
    TableOk { g with lanes := (claimLanes e f g).lanes, events := g.events.set e (f.record g.clock.siteTime) } := by
  have apart := lanesApart accepted.inRange accepted.claimable
  have some_ : 1 ≤ f.lanes.length := by
    have inRange := accepted.inRange
    simp only [Gate.loadInRange, Bool.and_eq_true, decide_eq_true_eq] at inRange
    exact inRange.1.1.1.1.1.1.1.1
  have vacant := vacantIndex_vacant accepted.vacant
  have fresh := not_carried_of_loadIdentity accepted.identity
  have event (i : EventIndex) : (g.setEvent e (f.record g.clock.siteTime)).event i
      = if i = e then f.record g.clock.siteTime else g.event i := by
    split
    · next own => rw [own, setEvent_event_same]
    · next own => exact setEvent_event_other own ..
  refine
    { numbers := fun i j heldI heldJ same => ?_
      sorted := claimLanes_sorted e f ok.sorted
      unreserved := fun entry listed => ?_
      claims := fun lane claim => ?_
      resume := fun i => ?_ }
  · have heldI : occupied (g.setEvent e (f.record g.clock.siteTime)) i := heldI
    have heldJ : occupied (g.setEvent e (f.record g.clock.siteTime)) j := heldJ
    have same : ((g.setEvent e (f.record g.clock.siteTime)).event i).number
        = ((g.setEvent e (f.record g.clock.siteTime)).event j).number := same
    unfold occupied at heldI heldJ
    rw [event] at heldI heldJ same
    rw [event] at same
    split at heldI <;> split at heldJ
    · next ownI ownJ => rw [ownI, ownJ]
    · next ownI ownJ =>
      rw [if_pos ownI, if_neg ownJ] at same
      exact absurd ⟨j, heldJ, same.symm⟩ fresh
    · next ownI ownJ =>
      rw [if_neg ownI, if_pos ownJ] at same
      exact absurd ⟨i, heldI, same⟩ fresh
    · next ownI ownJ =>
      rw [if_neg ownI, if_neg ownJ] at same
      exact ok.numbers i j heldI heldJ same
  · rcases claimLanes_mem listed with before | ⟨lane, named, key⟩
    · exact ok.unreserved entry before
    · have free := accepted.claimable
      simp only [Gate.claimable, Bool.and_eq_true, List.all_eq_true, decide_eq_true_eq] at free
      have kind := free.1 lane named
      unfold Gate.laneKind at kind
      split at kind
      · cases kind
      · omega
  · show Sparse.get (claimLanes e f g).lanes lane.toNat = some claim ↔
      ((g.setEvent e (f.record g.clock.siteTime)).event claim.owner).phase ≠ .vacant ∧
        ((g.setEvent e (f.record g.clock.siteTime)).event claim.owner).names lane claim
    rw [claimLanes_get apart, event]
    have claims := claimed_eq_some_iff (e := e) (now := g.clock.siteTime) (lane := lane) (claim := claim) apart some_
    by_cases own : claim.owner = e
    · have before : Sparse.get g.lanes lane.toNat ≠ some claim := fun listed => by
        have held := ((ok.claims lane claim).mp listed).1
        rw [own] at held
        exact held vacant
      rw [if_pos own]
      have loaded : (f.record g.clock.siteTime).phase ≠ .vacant := by simp [LoadFields.record]
      simp only [Option.or_eq_some_iff, claims, own, before, and_false, or_false, true_and, ne_eq, loaded,
        not_false_eq_true]
    · rw [if_neg own, ← ok.claims lane claim]
      cases claimed : f.claimed e lane with
      | none => rw [Option.none_or]
      | some held =>
        rw [claimed, Option.some.injEq] at claims
        rw [Option.some_or, Option.some.injEq, get_eq_none_of_claimed accepted claimed]
        simp only [reduceCtorEq, iff_false]
        exact fun same => own (claims.mp same).1
  · show resumeFits ((g.setEvent e (f.record g.clock.siteTime)).event i)
    rw [event]
    split
    · simp [resumeFits, LoadFields.record, Event.vacant]
    · exact ok.resume i

/-! ## Every command -/

theorem tableOk_keptPlainly : KeptPlainly TableOk where
  tame t ok := tableOk_of_sameRecords ok t.lanes (fun e => (t.event e).sameRecord (ok.resume e))
  books b ok := by rw [b.gate]; exact tableOk_of_same ok rfl rfl
  upkeep _ ok := tableOk_of_same ok rfl rfl
  imageLoadEnd {acknowledged g} ok := by
    rw [(imageLoadEnd_emits acknowledged g).gate]
    exact tableOk_of_same ok rfl rfl
  take inRange identity vacant claimable := tableOk_take ⟨inRange, identity, vacant, claimable⟩
  retire closed ok := tableOk_setEvent ok (retired_sameRecord closed _)
  vacate := tableOk_release
  share _ _ ok := tableOk_of_same ok rfl rfl
  settings _ ok := tableOk_of_same ok rfl rfl
  eeprom _ ok := tableOk_of_same ok rfl rfl
  clear ok := tableOk_of_sameRecords ok rfl (fun e => by
    rw [clearBlocks_event]
    exact restarted_sameRecord (ok.resume e))

theorem powerOn_event (unitStraps : Byte) (zoneStraps : BitVec 2) (fitted : Option (List Byte)) (g : Gate)
    (e : EventIndex) : (powerOn unitStraps zoneStraps fitted g).event e = Event.vacant :=
  Vector.getElem_replicate _

theorem powerOn_tableOk (unitStraps : Byte) (zoneStraps : BitVec 2) (fitted : Option (List Byte)) (g : Gate) :
    TableOk (powerOn unitStraps zoneStraps fitted g) where
  numbers e f held := absurd (congrArg Event.phase (powerOn_event ..)) held
  sorted := Sparse.sorted_nil
  unreserved entry listed := by cases listed
  claims lane claim := by
    constructor
    · intro listed
      cases listed
    · rintro ⟨held, -⟩
      exact absurd (congrArg Event.phase (powerOn_event ..)) held
  resume e := by
    rw [powerOn_event]
    simp [resumeFits, Event.vacant]

end Sys2Proof.Machine

namespace Sys2Proof.Proofs

open Sys2Proof.Machine Sys2Proof.Safety Sys2Proof.Claims

/-- Settles O8: LOAD_EVENT claims lanes with the record that names them, and a record that becomes VACANT releases its
lanes. -/
theorem everyStepKeepsTheEventTable : Obligations.EveryStepKeepsTheEventTable := by
  intro s t ok stepped
  rw [← tableOk_iff] at ok ⊢
  exact step_keeps (fun _ _ held => tableOk_keptPlainly.bySteps.effect held (fun _ _ _ _ => powerOn_tableOk ..))
    ok stepped

end Sys2Proof.Proofs

/-! PROOF. The bounds of the command queue, the busy flag, the reply queue, the zones' queues and the Notice Pool. -/

namespace Sys2Proof.Machine

open Sys2Proof.Safety Sys2Proof.Claims

/-! ## Steps that leave the queues or shorten them -/

/-- A step that leaves the Command Unit's queues and what executes, keeps the fresh queues in form and adds no cell to a
sweep queue. -/
structure QueuesStay (g h : Gate) : Prop where
  queue : h.command.queue = g.command.queue
  busy : h.command.busy = g.command.busy
  work : h.command.work = g.command.work
  replies : h.command.replies = g.command.replies
  fresh : ∀ z, FreshOk (g.zone z) → FreshOk (h.zone z)
  sweep : ∀ z, (h.zone z).sweep.Sublist (g.zone z).sweep

theorem QueuesStay.refl (g : Gate) : QueuesStay g g :=
  ⟨rfl, rfl, rfl, rfl, fun _ => id, fun _ => .refl _⟩

theorem QueuesStay.trans {g h k : Gate} (p : QueuesStay g h) (q : QueuesStay h k) : QueuesStay g k :=
  ⟨q.queue.trans p.queue, q.busy.trans p.busy, q.work.trans p.work, q.replies.trans p.replies,
    fun z => q.fresh z ∘ p.fresh z, fun z => (q.sweep z).trans (p.sweep z)⟩

theorem Quiet.queuesStay {g h : Gate} (q : Quiet g h) : QueuesStay g h :=
  ⟨q.queue, q.busy, q.work, q.replies, fun z => (q.zone z).fresh, fun z => (q.zone z).sweep⟩

/-- A step that writes neither the Command Unit nor the zones. -/
theorem queuesStay_of_same {g h : Gate} (command : h.command = g.command := by rfl)
    (zones : h.zones = g.zones := by rfl) : QueuesStay g h := by
  have zone (z : ZoneIndex) : h.zone z = g.zone z := zone_of_zones zones z
  refine ⟨by rw [command], by rw [command], by rw [command], by rw [command], fun z => ?_, fun z => ?_⟩
  · rw [zone]
    exact id
  · rw [zone]

theorem QuietButUpkeep.queuesStay {g h : Gate} (q : QuietButUpkeep g h) : QueuesStay g h :=
  QueuesStay.trans queuesStay_of_same (Quiet.queuesStay q)

theorem imageLoadEnd_queuesStay (acknowledged : Nat) (g : Gate) : QueuesStay g (imageLoadEnd acknowledged g) := by
  have emits := imageLoadEnd_emits acknowledged g
  have command : (imageLoadEnd acknowledged g).command
      = { g.command with status := (imageLoadEnd acknowledged g).command.status } := congrArg Gate.command emits.gate
  refine ⟨by rw [command], by rw [command], by rw [command], by rw [command], fun z => ?_, fun z => ?_⟩
  · rcases imageLoadEnd_zone acknowledged g z with same | ⟨share, dark, written⟩
    · rw [same]
      exact id
    · rw [written]
      exact id
  · rcases imageLoadEnd_zone acknowledged g z with same | ⟨share, dark, written⟩
    · rw [same]
    · rw [written]
      exact .refl _

theorem modZone_queuesStay {f : Zone → Zone} (z : ZoneIndex) (g : Gate) (fresh : ∀ zone, (f zone).fresh = zone.fresh)
    (sweep : ∀ zone, (f zone).sweep = zone.sweep) : QueuesStay g (modZone z f g) := by
  refine ⟨rfl, rfl, rfl, rfl, fun i => ?_, fun i => ?_⟩
  · rw [modZone_zone]
    split
    · next own =>
      unfold FreshOk
      rw [own, fresh]
      exact id
    · exact id
  · rw [modZone_zone]
    split
    · next own => rw [own, sweep]
    · exact .refl _

theorem granted_queuesStay (user : TableUser) (walker : Walker) (g : Gate) :
    QueuesStay g (granted user { g with walker := walker }) := queuesStay_of_same

theorem sendStatus_queuesStay (g : Gate) : QueuesStay g (sendStatus g) :=
  ⟨rfl, rfl, rfl, rfl, fun _ => id, fun _ => .refl _⟩

theorem maintenanceVisit_queuesStay (g : Gate) : QueuesStay g (maintenanceVisit g) := by
  have visited (task : Task) : QueuesStay g (visitedBucket task g) := (visitedBucket_quietButUpkeep task g).queuesStay
  have finished (task : Task) (h : Gate) : QueuesStay h (task.finish h) := by
    cases task with
    | retire e carried => exact QueuesStay.trans queuesStay_of_same (becomeVacant_quiet e h).queuesStay
    | recount e => exact (finishRecount_quiet e h).queuesStay
    | ageScan => exact .refl h
  rcases maintenanceVisit_cases g with idle | ⟨task, rest, -, ⟨-, goes⟩ | ⟨-, ends⟩⟩
  · rw [idle]
    exact .refl g
  · rw [goes]
    exact visited task
  · rw [ends]
    exact ((visited task).trans (finished task _)).trans (endWalk_quietButUpkeep task rest _).queuesStay

theorem loadEvent_queuesStay (q : Request) (g : Gate) : QueuesStay g (loadEvent q g).gate := by
  rcases loadEvent_gate_cases q g with refused | ⟨e, -, -, -, -, taken⟩
  · rw [refused]
    exact .refl g
  · rw [taken]
    exact QueuesStay.trans queuesStay_of_same (takeRecord_quiet e _ g).queuesStay

theorem retireEvent_queuesStay (q : Request) (g : Gate) : QueuesStay g (retireEvent q g).gate := by
  rcases retireEvent_gate_cases q g with refused | ⟨e, closed, retired⟩
  · rw [refused]
    exact .refl g
  · have closed' : ((queueRetire e g).event e).phase = .closed := by rwa [queueRetire_eq_upkeep]
    rw [retired, changePhase_closed_retiring closed']
    refine QueuesStay.trans ?_ (post_quiet ..).queuesStay
    rw [queueRetire_eq_upkeep]
    exact queuesStay_of_same

theorem setZone_queuesStay (q : Request) (g : Gate) : QueuesStay g (setZone q g).gate := by
  rcases setZone_gate_cases q g with refused | ⟨z, share, -, -, dark, written⟩
  · rw [refused]
    exact .refl g
  · rw [written]
    exact modZone_queuesStay z g (fun _ => rfl) (fun _ => rfl)

theorem setProfile_queuesStay (q : Request) (g : Gate) : QueuesStay g (setProfile q g).gate := by
  rcases setProfile_gate_cases q g with refused | written
  · rw [refused]
    exact .refl g
  · rw [written]
    exact queuesStay_of_same

theorem setCueMap_queuesStay (q : Request) (g : Gate) : QueuesStay g (setCueMap q g).gate := by
  rcases setCueMap_gate_cases q g with refused | ⟨_, _, _, _, _, written⟩
  · rw [refused]
    exact .refl g
  · rw [written]
    exact queuesStay_of_same

theorem setTiming_queuesStay (q : Request) (g : Gate) : QueuesStay g (setTiming q g).gate := by
  rcases setTiming_gate_cases q g with refused | ⟨-, written⟩
  · rw [refused]
    exact .refl g
  · rw [written]
    exact QueuesStay.trans queuesStay_of_same (writeTiming_quiet ..).queuesStay

/-! ## The bounds -/

/-- R171: the command queue's bound and the busy flag's two levels. -/
structure CommandsOk (command : CommandUnit) : Prop where
  commands : command.queue.length ≤ Config.commandQueueSize
  busy : command.busy = true → Config.clearLevel < command.queue.length
  clear : command.busy = false → command.queue.length < Config.busyLevel

/-- R172, R173: the reply queue has room for the reply that an executing command owes. -/
structure RepliesOk (command : CommandUnit) : Prop where
  replies : command.replies.length ≤ Config.replyQueueSize
  owed : owesReply command.work = true → command.replies.length < Config.replyQueueSize

/-- R139, R140, R159: the zones' queues and the Notice Pool. -/
structure ZonesOk (g : Gate) : Prop where
  fresh : ∀ z, FreshOk (g.zone z)
  sweep : ∀ z, (g.zone z).sweep.length ≤ Config.sweepQueueSize
  pool : g.buffersHeld ≤ Config.poolSize

theorem queuesOk_iff {g : Gate} : QueuesOk g ↔ CommandsOk g.command ∧ RepliesOk g.command ∧ ZonesOk g :=
  ⟨fun ok => ⟨⟨ok.commands, ok.busy, ok.clear⟩, ⟨ok.replies, ok.owed⟩, ⟨ok.fresh, ok.sweep, ok.pool⟩⟩,
    fun ⟨commands, replies, zones⟩ => ⟨commands.commands, commands.busy, commands.clear, replies.replies, replies.owed,
      zones.fresh, zones.sweep, zones.pool⟩⟩

theorem buffersHeld_le {g h : Gate} (sweep : ∀ z, (h.zone z).sweep.length ≤ (g.zone z).sweep.length) :
    h.buffersHeld ≤ g.buffersHeld :=
  List.sum_le_sum (fun z _ => sweep z)

theorem zonesOk_of_stay {g h : Gate} (ok : ZonesOk g) (fresh : ∀ z, FreshOk (g.zone z) → FreshOk (h.zone z))
    (sweep : ∀ z, (h.zone z).sweep.Sublist (g.zone z).sweep) : ZonesOk h where
  fresh z := fresh z (ok.fresh z)
  sweep z := (sweep z).length_le.trans (ok.sweep z)
  pool := (buffersHeld_le fun z => (sweep z).length_le).trans ok.pool

theorem zonesOk_of_same {g h : Gate} (ok : ZonesOk g) (zones : h.zones = g.zones) : ZonesOk h := by
  have zone (z : ZoneIndex) : h.zone z = g.zone z := zone_of_zones zones z
  exact zonesOk_of_stay ok (fun z => by rw [zone]; exact id) (fun z => by rw [zone])

theorem QueuesStay.zonesOk {g h : Gate} (q : QueuesStay g h) (ok : ZonesOk g) : ZonesOk h :=
  zonesOk_of_stay ok q.fresh q.sweep

theorem QueuesStay.commandsOk {g h : Gate} (q : QueuesStay g h) (ok : CommandsOk g.command) : CommandsOk h.command := by
  refine ⟨?_, ?_, ?_⟩
  · rw [q.queue]
    exact ok.commands
  · rw [q.queue, q.busy]
    exact ok.busy
  · rw [q.queue, q.busy]
    exact ok.clear

theorem QueuesStay.repliesOk {g h : Gate} (q : QueuesStay g h) (ok : RepliesOk g.command) : RepliesOk h.command := by
  refine ⟨?_, ?_⟩
  · rw [q.replies]
    exact ok.replies
  · rw [q.work, q.replies]
    exact ok.owed

theorem QueuesStay.queuesOk {g h : Gate} (q : QueuesStay g h) (ok : QueuesOk g) : QueuesOk h := by
  rw [queuesOk_iff] at ok ⊢
  obtain ⟨commands, replies, zones⟩ := ok
  exact ⟨q.commandsOk commands, q.repliesOk replies, q.zonesOk zones⟩

/-! ## The command queue -/

theorem joinQueue_commandsOk {cell : List Byte} {g : Gate} (room : g.command.queue.length < Config.commandQueueSize)
    (ok : CommandsOk g.command) : CommandsOk (joinQueue cell g).command := by
  have length : (g.command.queue ++ [cell]).length = g.command.queue.length + 1 := by simp
  unfold joinQueue
  dsimp only
  split
  · next full =>
    refine ⟨?_, fun _ => ?_, fun clear => by cases clear⟩
    · exact full.1.trans_le (by decide)
    · exact Nat.lt_of_lt_of_eq (by decide) full.1.symm
  · next notFull =>
    refine ⟨?_, fun busy => ?_, fun clear => ?_⟩
    · show (g.command.queue ++ [cell]).length ≤ _
      omega
    · have before := ok.busy busy
      show _ < (g.command.queue ++ [cell]).length
      omega
    · have before := ok.clear clear
      have other : (g.command.queue ++ [cell]).length ≠ Config.busyLevel := fun same => notFull ⟨same, clear⟩
      show (g.command.queue ++ [cell]).length < _
      omega

theorem leaveQueue_commandsOk {g : Gate} (ok : CommandsOk g.command) : CommandsOk (leaveQueue g).command := by
  have length : g.command.queue.tail.length = g.command.queue.length - 1 := List.length_tail
  have commands := ok.commands
  unfold leaveQueue
  dsimp only
  split
  · next few =>
    refine ⟨?_, fun busy => (by cases busy), fun _ => ?_⟩
    · exact few.1.trans_le (by decide)
    · exact few.1.trans_lt (by decide)
  · next notFew =>
    refine ⟨?_, fun busy => ?_, fun clear => ?_⟩
    · show g.command.queue.tail.length ≤ _
      omega
    · have before := ok.busy busy
      have other : g.command.queue.tail.length ≠ Config.clearLevel := fun same => notFew ⟨same, busy⟩
      show _ < g.command.queue.tail.length
      omega
    · have before := ok.clear clear
      show g.command.queue.tail.length < _
      omega

/-! ## Every command -/

/-- The bounds while a command that has begun is carried out. -/
structure QueuesBegun (g : Gate) : Prop where
  commands : CommandsOk g.command
  zones : ZonesOk g
  ready : g.command.work = .ready
  room : g.command.replies.length < Config.replyQueueSize

theorem QueuesStay.queuesBegun {g h : Gate} (q : QueuesStay g h) (ok : QueuesBegun g) : QueuesBegun h :=
  ⟨q.commandsOk ok.commands, q.zonesOk ok.zones, q.work.trans ok.ready, by rw [q.replies]; exact ok.room⟩

theorem queuesBegun_of_leave {g : Gate} (begins : g.canBegin = true) (ok : QueuesOk g) : QueuesBegun (leaveQueue g) := by
  obtain ⟨commands, -, zones⟩ := queuesOk_iff.mp ok
  simp only [Gate.canBegin, Bool.and_eq_true, decide_eq_true_eq] at begins
  refine ⟨leaveQueue_commandsOk commands, zonesOk_of_same zones (by rw [leaveQueue_eq]), ?_, ?_⟩
  · rw [leaveQueue_eq]
    exact begins.1
  · rw [leaveQueue_replies]
    exact begins.2

/-- R173: a reply is placed by a command that has left nothing owed. -/
theorem placeReply_queuesOk {tag : Half} {code : Byte} {result : Result} {body : List Byte} {g : Gate}
    (commands : CommandsOk g.command) (zones : ZonesOk g) (settled : owesReply g.command.work = false)
    (room : g.command.replies.length < Config.replyQueueSize) : QueuesOk (placeReply tag code result body g) := by
  refine queuesOk_iff.mpr ⟨⟨commands.commands, commands.busy, commands.clear⟩, ⟨?_, fun owes => ?_⟩,
    zonesOk_of_same zones rfl⟩
  · show (g.command.replies ++ [_]).length ≤ _
    rw [List.length_append, List.length_singleton]
    exact room
  · exact absurd (owes.symm.trans settled) (by decide)

theorem reply_queuesOk {tag : Half} {code : Byte} {result : Result} {body : List Byte} {g : Gate} (ok : QueuesBegun g) :
    QueuesOk (placeReply tag code result body g) :=
  placeReply_queuesOk ok.commands ok.zones (by rw [ok.ready]; rfl) ok.room

theorem withWork_queuesOk {work : Work} {g : Gate} (ok : QueuesBegun g) :
    QueuesOk { g with command := { g.command with work := work } } :=
  queuesOk_iff.mpr ⟨⟨ok.commands.commands, ok.commands.busy, ok.commands.clear⟩,
    ⟨Nat.le_of_lt ok.room, fun _ => ok.room⟩, zonesOk_of_same ok.zones rfl⟩

/-- R103, R181: the state of a command that is still to place its reply, as it is once the command is settled. -/
theorem queuesBegun_of_owed {g : Gate} (owes : owesReply g.command.work = true) (ok : QueuesOk g) :
    QueuesBegun { g with command := { g.command with work := .ready } } := by
  obtain ⟨commands, replies, zones⟩ := queuesOk_iff.mp ok
  exact ⟨⟨commands.commands, commands.busy, commands.clear⟩, zonesOk_of_same zones rfl, rfl, replies.owed owes⟩

theorem afterItem_queuesOk {tag : Half} {left : List PurchaseItem} {results : List Result} {g : Gate}
    (owes : owesReply g.command.work = true) (ok : QueuesOk g) : QueuesOk (afterItem tag left results g) := by
  have begun := queuesBegun_of_owed owes ok
  cases left with
  | nil => exact reply_queuesOk begun
  | cons item rest => exact withWork_queuesOk (g := { g with command := { g.command with work := .ready } }) begun

theorem endSave_queuesOk {tag : Half} {stored : Bool} {g : Gate} (owes : owesReply g.command.work = true)
    (ok : QueuesOk g) : QueuesOk (endSave tag stored g) := by
  have counted : QueuesBegun { g with
      counters := g.counters.set PartCounter.imageSaves.pos (countSave stored g.counters[PartCounter.imageSaves.pos])
      command := { g.command with work := .ready } } :=
    QueuesStay.queuesBegun queuesStay_of_same (queuesBegun_of_owed owes ok)
  cases stored
  · exact (post_quiet ..).queuesStay.queuesOk (reply_queuesOk counted)
  · exact (post_quiet ..).queuesStay.queuesOk (reply_queuesOk counted)

theorem saveImageEnd_queuesOk {acknowledged : Nat} {g : Gate} (ok : QueuesOk g) : QueuesOk (saveImageEnd acknowledged g) := by
  rcases saveImageEnd_cases acknowledged g with idle | ⟨tag, image, saving, ⟨-, whole⟩ | ⟨-, part⟩⟩
  · rwa [idle]
  · rw [whole]
    refine endSave_queuesOk ?_ (QueuesStay.queuesOk queuesStay_of_same ok)
    show owesReply g.command.work = true
    rw [saving]
    rfl
  · have frame := writePart_frame image acknowledged g
    rw [part]
    refine endSave_queuesOk ?_ ?_
    · rw [frame]
      show owesReply g.command.work = true
      rw [saving]
      rfl
    · rw [frame]
      exact QueuesStay.queuesOk queuesStay_of_same ok

theorem managementCell_queuesOk {g : Gate} (ok : QueuesOk g) : QueuesOk (managementCell g) := by
  rcases managementCell_cases g with counted | ⟨cell, pre, before, room, joined⟩
  · exact counted.quiet.queuesStay.queuesOk ok
  · obtain ⟨commands, replies, zones⟩ := queuesOk_iff.mp (before.quiet.queuesStay.queuesOk ok)
    rw [joined]
    refine queuesOk_iff.mpr ⟨joinQueue_commandsOk room commands, ?_, zonesOk_of_same zones (by rw [joinQueue_eq])⟩
    rw [joinQueue_eq]
    exact ⟨replies.replies, replies.owed⟩

/-- R128: a visit is made where the queues it leaves are within bounds. -/
theorem sweepVisit_queuesOk {g : Gate} (ok : QueuesOk g) : QueuesOk (sweepVisit g) := by
  rcases sweepVisit_cases g with held | parked | ⟨fits, visited⟩
  · rwa [held]
  · rw [parked]
    exact QueuesStay.queuesOk queuesStay_of_same ok
  · have tame := visitBucket_tame g
    obtain ⟨commands, replies, zones⟩ := queuesOk_iff.mp ok
    simp only [Gate.fits, Bool.and_eq_true, List.all_eq_true, decide_eq_true_eq] at fits
    obtain ⟨sweep, pool⟩ := fits
    have after : QueuesOk (visitBucket g) :=
      { commands := by rw [tame.queue]; exact commands.commands
        busy := by rw [tame.queue, tame.busy]; exact commands.busy
        clear := by rw [tame.queue, tame.busy]; exact commands.clear
        replies := by rw [tame.replies]; exact replies.replies
        owed := by rw [tame.replies, tame.work]; exact replies.owed
        fresh := fun z => (tame.zone z).2 (zones.fresh z)
        sweep := fun z => sweep z (mem_allZones z)
        pool := pool }
    rw [visited]
    exact (granted_queuesStay ..).queuesOk after

theorem returnSlot_queuesOk {g : Gate} (ok : QueuesOk g) : QueuesOk (returnSlot g) := by
  rcases returnSlot_cases g with idle | ⟨reply, rest, queue, sent⟩ | ⟨-, sent⟩
  · rw [idle]
    exact QueuesStay.queuesOk queuesStay_of_same ok
  · obtain ⟨commands, replies, zones⟩ := queuesOk_iff.mp ok
    have shorter : rest.length ≤ g.command.replies.length := by simp [queue]
    rw [sent]
    exact queuesOk_iff.mpr ⟨⟨commands.commands, commands.busy, commands.clear⟩,
      ⟨shorter.trans replies.replies, fun owes => shorter.trans_lt (replies.owed owes)⟩, zonesOk_of_same zones rfl⟩
  · rw [sent]
    exact (sendStatus_queuesStay g).queuesOk ok

/-- Table 82: a restart empties the queues of the Command Unit and of the zones. -/
theorem clearBlocks_queuesOk (g : Gate) : QueuesOk (clearBlocks g) where
  commands := Nat.zero_le _
  busy busy := by cases busy
  clear _ := Nat.zero_lt_succ _
  replies := Nat.zero_le _
  owed _ := Nat.zero_lt_succ _
  fresh z := by
    rw [clearBlocks_zone]
    exact ⟨Nat.zero_le _, List.nodup_nil⟩
  sweep z := by
    rw [clearBlocks_zone]
    exact Nat.zero_le _
  pool := by
    have empty : (clearBlocks g).buffersHeld = 0 := by
      unfold Gate.buffersHeld
      simp [Zone.restarted]
    rw [empty]
    exact Nat.zero_le _

theorem queues_keptBySteps : KeptBySteps QueuesOk QueuesBegun where
  quiet q := q.queuesStay.queuesOk
  quietBegun q := q.queuesStay.queuesBegun
  leave begins _ := queuesBegun_of_leave begins
  reply := reply_queuesOk
  takeUp := withWork_queuesOk
  item := afterItem_queuesOk
  imageLoadEnd := (imageLoadEnd_queuesStay ..).queuesOk
  management := managementCell_queuesOk
  sweep := sweepVisit_queuesOk
  maintenance := (maintenanceVisit_queuesStay _).queuesOk
  age := (ageInstant_quietButUpkeep _).queuesStay.queuesOk
  returns := returnSlot_queuesOk
  load := (loadEvent_queuesStay ..).queuesBegun
  amend := (amendEvent_quietButUpkeep ..).queuesStay.queuesBegun
  retire := (retireEvent_queuesStay ..).queuesBegun
  setZone := (setZone_queuesStay ..).queuesBegun
  setProfile := (setProfile_queuesStay ..).queuesBegun
  setCueMap := (setCueMap_queuesStay ..).queuesBegun
  setTiming := (setTiming_queuesStay ..).queuesBegun
  save ok := QueuesStay.queuesOk queuesStay_of_same (withWork_queuesOk ok)
  saveEnd := saveImageEnd_queuesOk
  restart ok := by
    obtain ⟨commands, replies, zones⟩ := queuesOk_iff.mp (reply_queuesOk ok)
    exact queuesOk_iff.mpr ⟨⟨commands.commands, commands.busy, commands.clear⟩,
      ⟨replies.replies, fun owes => by cases owes⟩, zonesOk_of_same zones rfl⟩
  restarted {cause g} _ :=
    (restartNow_quietButUpkeep cause g).queuesStay.queuesOk
      ((post_quiet ..).queuesStay.queuesOk (clearBlocks_queuesOk _))

theorem powerOn_queuesOk (unitStraps : Byte) (zoneStraps : BitVec 2) (fitted : Option (List Byte)) (g : Gate) :
    QueuesOk (powerOn unitStraps zoneStraps fitted g) where
  commands := Nat.zero_le _
  busy busy := by cases busy
  clear _ := Nat.zero_lt_succ _
  replies := Nat.zero_le _
  owed _ := Nat.zero_lt_succ _
  fresh z := by
    rw [powerOn_zone]
    exact ⟨Nat.zero_le _, List.nodup_nil⟩
  sweep z := by
    rw [powerOn_zone]
    exact Nat.zero_le _
  pool := by
    have empty : (powerOn unitStraps zoneStraps fitted g).buffersHeld = 0 := by
      unfold Gate.buffersHeld
      simp [powerOn_zone, Zone.powerOn]
    rw [empty]
    exact Nat.zero_le _

end Sys2Proof.Machine

namespace Sys2Proof.Proofs

open Sys2Proof.Machine Sys2Proof.Safety Sys2Proof.Claims

/-- Settles O6: a command begins with room for its reply, which stays until the reply is placed; a visit of the walker that
would exceed a bound is not made. -/
theorem everyStepKeepsTheQueuesInBounds : Obligations.EveryStepKeepsTheQueuesInBounds :=
  fun _ _ => step_keeps (fun _ _ held => queues_keptBySteps.effect held (fun _ _ _ _ => powerOn_queuesOk ..))

end Sys2Proof.Proofs

/-! PROOF. The maintenance list: at most one task for an event and one scan, with RETIRE(e) in it exactly while e is
RETIRING. -/

namespace Sys2Proof.Machine

open Sys2Proof.Safety Sys2Proof.Claims

/-! ## The list by itself -/

/-- R55, R87, R88: a maintenance list that fits the events that are RETIRING and those that are loaded. -/
structure ListFits (retiring loaded : EventIndex → Prop) (tasks : List Task) : Prop where
  once : (tasks.map taskEvent).Nodup
  retire : ∀ e, retiring e ↔ ∃ carried, Task.retire e carried ∈ tasks
  recount : ∀ e, Task.recount e ∈ tasks → loaded e

theorem any_retires_iff {e : EventIndex} {tasks : List Task} :
    tasks.any (retires e) = true ↔ ∃ carried, Task.retire e carried ∈ tasks := by
  rw [List.any_eq_true]
  constructor
  · rintro ⟨task, listed, own⟩
    cases task with
    | retire f carried => exact ⟨carried, of_decide_eq_true own ▸ listed⟩
    | recount f => cases own
    | ageScan => cases own
  · rintro ⟨carried, listed⟩
    exact ⟨_, listed, decide_eq_true rfl⟩

theorem tasksOk_iff {g : Gate} : TasksOk g ↔
    ListFits (fun e => (g.event e).phase = .retiring) (occupied g) g.upkeep.tasks ∧
      (g.upkeep.tasks ≠ [] → g.upkeep.cursor.val < 8192) :=
  ⟨fun ok => ⟨⟨ok.once, fun e => (ok.retire e).trans any_retires_iff, ok.recount⟩, ok.cursor⟩,
    fun ⟨fits, cursor⟩ => ⟨fits.once, fun e => (fits.retire e).trans any_retires_iff.symm, fits.recount, cursor⟩⟩

namespace ListFits

variable {retiring retiring' loaded loaded' : EventIndex → Prop} {tasks : List Task} {e : EventIndex}

theorem congr (fits : ListFits retiring loaded tasks) (sameRetiring : ∀ e, retiring' e ↔ retiring e)
    (sameLoaded : ∀ e, loaded e → loaded' e) : ListFits retiring' loaded' tasks :=
  ⟨fits.once, fun e => (sameRetiring e).trans (fits.retire e), fun e listed => sameLoaded e (fits.recount e listed)⟩

/-- R87: an event that is not RETIRING has no task in the list, where it has no RECOUNT. -/
theorem noTask (fits : ListFits retiring loaded tasks) (notRetiring : ¬ retiring e)
    (uncounted : Task.recount e ∉ tasks) : some e ∉ tasks.map taskEvent := by
  intro listed
  obtain ⟨task, mem, event⟩ := List.mem_map.mp listed
  cases task with
  | retire f carried =>
    cases event
    exact notRetiring ((fits.retire _).mpr ⟨carried, mem⟩)
  | recount f =>
    cases event
    exact uncounted mem
  | ageScan => cases event

theorem once_append (fits : ListFits retiring loaded tasks) {task : Task} (new : taskEvent task ∉ tasks.map taskEvent) :
    ((tasks ++ [task]).map taskEvent).Nodup := by
  rw [List.map_append, List.nodup_append]
  refine ⟨fits.once, List.nodup_singleton _, fun a memA b memB same => ?_⟩
  cases List.mem_singleton.mp memB
  exact new (same ▸ memA)

theorem append_recount (fits : ListFits retiring loaded tasks) (notRetiring : ¬ retiring e) (held : loaded e)
    (uncounted : Task.recount e ∉ tasks) : ListFits retiring loaded (tasks ++ [.recount e]) where
  once := fits.once_append (fits.noTask notRetiring uncounted)
  retire f := by simp [fits.retire f]
  recount f listed := by
    rcases List.mem_append.mp listed with before | new
    · exact fits.recount f before
    · cases List.mem_singleton.mp new
      exact held

theorem append_ageScan (fits : ListFits retiring loaded tasks) (unscanned : Task.ageScan ∉ tasks) :
    ListFits retiring loaded (tasks ++ [.ageScan]) where
  once := by
    refine fits.once_append (fun listed => ?_)
    obtain ⟨task, mem, event⟩ := List.mem_map.mp listed
    cases task with
    | retire f carried => cases event
    | recount f => cases event
    | ageScan => exact unscanned mem
  retire f := by simp [fits.retire f]
  recount f listed := by
    rcases List.mem_append.mp listed with before | new
    · exact fits.recount f before
    · cases List.mem_singleton.mp new

theorem append_retire (fits : ListFits retiring loaded tasks) (notRetiring : ¬ retiring e)
    (uncounted : Task.recount e ∉ tasks) :
    ListFits (fun f => retiring f ∨ f = e) loaded (tasks ++ [.retire e false]) where
  once := fits.once_append (fits.noTask notRetiring uncounted)
  retire f := by
    simp only [List.mem_append, List.mem_singleton, Task.retire.injEq, exists_or, fits.retire f]
    exact or_congr_right ⟨fun own => ⟨false, own, rfl⟩, fun ⟨_, own, _⟩ => own⟩
  recount f listed := by
    rcases List.mem_append.mp listed with before | new
    · exact fits.recount f before
    · cases List.mem_singleton.mp new

theorem carryRecount (fits : ListFits retiring loaded tasks) (counted : Task.recount e ∈ tasks) :
    ListFits (fun f => retiring f ∨ f = e) loaded (carryRecount e tasks) where
  once := by
    have same : (Machine.carryRecount e tasks).map taskEvent = tasks.map taskEvent := by
      unfold Machine.carryRecount
      rw [List.map_map]
      refine List.map_congr_left (fun task _ => ?_)
      show taskEvent (if task = .recount e then .retire e true else task) = taskEvent task
      split
      · next own => rw [own]; rfl
      · rfl
    rw [same]
    exact fits.once
  retire f := by
    unfold Machine.carryRecount
    constructor
    · rintro (retiring | rfl)
      · obtain ⟨carried, listed⟩ := (fits.retire f).mp retiring
        exact ⟨carried, List.mem_map.mpr ⟨_, listed, if_neg (by simp)⟩⟩
      · exact ⟨true, List.mem_map.mpr ⟨_, counted, if_pos rfl⟩⟩
    · rintro ⟨carried, listed⟩
      obtain ⟨task, mem, same⟩ := List.mem_map.mp listed
      split at same
      · cases same
        exact .inr rfl
      · exact .inl ((fits.retire f).mpr ⟨carried, same ▸ mem⟩)
  recount f listed := by
    unfold Machine.carryRecount at listed
    obtain ⟨task, mem, same⟩ := List.mem_map.mp listed
    split at same
    · cases same
    · exact fits.recount f (same ▸ mem)

/-- R88: the list without a head that is no RETIRE. -/
theorem tail {task : Task} (fits : ListFits retiring loaded (task :: tasks)) (notRetire : ∀ f carried, task ≠ .retire f carried) :
    ListFits retiring loaded tasks where
  once := (List.nodup_cons.mp fits.once).2
  retire f := by
    rw [fits.retire f]
    refine exists_congr (fun carried => ?_)
    rw [List.mem_cons, or_iff_right (fun same => notRetire f carried same.symm)]
  recount f listed := fits.recount f (List.mem_cons_of_mem _ listed)

/-- R88: the list without the RETIRE at its head. -/
theorem tail_retire {carried : Bool} (fits : ListFits retiring loaded (.retire e carried :: tasks)) :
    ListFits (fun f => retiring f ∧ f ≠ e) (fun f => loaded f ∧ f ≠ e) tasks := by
  obtain ⟨new, once⟩ := List.nodup_cons.mp fits.once
  have noTask (task : Task) (listed : task ∈ tasks) : taskEvent task ≠ some e := fun own =>
    new (List.mem_map.mpr ⟨task, listed, own⟩)
  refine ⟨once, fun f => ?_, fun f listed => ?_⟩
  · rw [fits.retire f]
    constructor
    · rintro ⟨⟨carried, listed⟩, other⟩
      rcases List.mem_cons.mp listed with own | rest
      · cases own
        exact absurd rfl other
      · exact ⟨carried, rest⟩
    · rintro ⟨carried, listed⟩
      exact ⟨⟨carried, List.mem_cons_of_mem _ listed⟩, fun own => noTask _ listed (congrArg some own)⟩
  · exact ⟨fits.recount f (List.mem_cons_of_mem _ listed), fun own => noTask _ listed (congrArg some own)⟩

end ListFits

/-! ## The list as a part of the state -/

theorem tasksOk_of {g h : Gate} (ok : TasksOk g) (tasks : h.upkeep.tasks = g.upkeep.tasks)
    (cursor : h.upkeep.cursor = g.upkeep.cursor)
    (retiring : ∀ e, (h.event e).phase = .retiring ↔ (g.event e).phase = .retiring)
    (loaded : ∀ e, occupied g e → occupied h e) : TasksOk h := by
  obtain ⟨fits, walk⟩ := tasksOk_iff.mp ok
  rw [tasksOk_iff, tasks, cursor]
  exact ⟨fits.congr retiring loaded, walk⟩

theorem tasksOk_of_same {g h : Gate} (ok : TasksOk g) (upkeep : h.upkeep = g.upkeep := by rfl)
    (events : h.events = g.events := by rfl) : TasksOk h := by
  have event (e : EventIndex) : h.event e = g.event e := congrArg (fun events => events[e]) events
  exact tasksOk_of ok (by rw [upkeep]) (by rw [upkeep]) (fun e => by rw [event])
    (fun e held => by unfold occupied; rwa [event])

theorem tasksOk_of_tame {g h : Gate} (table : TableOk g) (ok : TasksOk g) (tame : Tame g h) : TasksOk h :=
  tasksOk_of ok tame.tasks tame.maintenance (fun e => (tame.event e).retiring (table.resume e))
    (fun e => mt ((tame.event e).vacant (table.resume e)).mp)

/-- R87: a walk that begins, or goes on, has a bucket left. -/
theorem setTasks_cursor {tasks : List Task} {g : Gate} (walk : g.upkeep.tasks ≠ [] → g.upkeep.cursor.val < 8192)
    (some_ : tasks ≠ []) : (setTasks tasks g).upkeep.cursor.val < 8192 := by
  by_cases same : tasks.head? = g.upkeep.tasks.head?
  · rw [setTasks_same_head same]
    refine walk (fun empty => ?_)
    rw [empty] at same
    exact some_ (List.head?_eq_none_iff.mp same)
  · rw [setTasks_new_head same]
    exact Nat.zero_lt_succ _

theorem setTasks_tasks (tasks : List Task) (g : Gate) : (setTasks tasks g).upkeep.tasks = tasks := by
  by_cases same : tasks.head? = g.upkeep.tasks.head?
  · rw [setTasks_same_head same]
  · rw [setTasks_new_head same]

theorem setTasks_events (tasks : List Task) (g : Gate) : (setTasks tasks g).events = g.events := by
  rw [setTasks_eq_upkeep]

theorem setTasks_event (tasks : List Task) (g : Gate) (e : EventIndex) : (setTasks tasks g).event e = g.event e :=
  congrArg (fun events => events[e]) (setTasks_events tasks g)

theorem setTasks_tasksOk {tasks : List Task} {g : Gate} (walk : g.upkeep.tasks ≠ [] → g.upkeep.cursor.val < 8192)
    (fits : ListFits (fun e => (g.event e).phase = .retiring) (occupied g) tasks) : TasksOk (setTasks tasks g) := by
  rw [tasksOk_iff, setTasks_tasks]
  refine ⟨fits.congr (fun e => by rw [setTasks_event]) (fun e held => ?_), setTasks_cursor walk⟩
  unfold occupied
  rwa [setTasks_event]

theorem beginWalk_tasksOk {g : Gate} (ok : TasksOk g) : TasksOk (beginWalk g) := by
  obtain ⟨fits, -⟩ := tasksOk_iff.mp ok
  exact tasksOk_iff.mpr ⟨fits, fun _ => Nat.zero_lt_succ _⟩

theorem queueRecount_tasksOk {e : EventIndex} {g : Gate} (notRetiring : (g.event e).phase ≠ .retiring)
    (held : occupied g e) (ok : TasksOk g) : TasksOk (queueRecount e g) := by
  obtain ⟨fits, walk⟩ := tasksOk_iff.mp ok
  unfold queueRecount
  split
  · exact beginWalk_tasksOk ok
  · split
    · exact ok
    · next uncounted => exact setTasks_tasksOk walk (fits.append_recount notRetiring held uncounted)

theorem queueAgeScan_tasksOk {g : Gate} (ok : TasksOk g) : TasksOk (queueAgeScan g) := by
  obtain ⟨fits, walk⟩ := tasksOk_iff.mp ok
  unfold queueAgeScan
  split
  · exact ok
  · next unscanned => exact setTasks_tasksOk walk (fits.append_ageScan unscanned)

theorem ageInstant_tasksOk {g : Gate} (ok : TasksOk g) : TasksOk (ageInstant g) := by
  unfold ageInstant
  split
  · have queued := queueAgeScan_tasksOk ok
    exact tasksOk_of queued rfl rfl (fun _ => Iff.rfl) (fun _ => id)
  · exact ok

/-! ## RETIRE_EVENT -/

theorem setEvent_event (e i : EventIndex) (ev : Event) (g : Gate) :
    (g.setEvent e ev).event i = if i = e then ev else g.event i := by
  split
  · next own => rw [own, setEvent_event_same]
  · next own => exact setEvent_event_other own ..

theorem queueRetire_tasks {e : EventIndex} {g : Gate} (closed : (g.event e).phase = .closed) (ok : TasksOk g) :
    ListFits (fun f => (g.event f).phase = .retiring ∨ f = e) (occupied g) (queueRetire e g).upkeep.tasks := by
  obtain ⟨fits, -⟩ := tasksOk_iff.mp ok
  have notRetiring : ¬ (g.event e).phase = .retiring := by simp [closed]
  by_cases counted : Task.recount e ∈ g.upkeep.tasks
  · rw [queueRetire_carrying counted, setTasks_tasks]
    exact fits.carryRecount counted
  · rw [queueRetire_adding counted, setTasks_tasks]
    exact fits.append_retire notRetiring counted

theorem queueRetire_cursor {e : EventIndex} {g : Gate} (walk : g.upkeep.tasks ≠ [] → g.upkeep.cursor.val < 8192) :
    (queueRetire e g).upkeep.tasks ≠ [] → (queueRetire e g).upkeep.cursor.val < 8192 := by
  by_cases counted : Task.recount e ∈ g.upkeep.tasks
  · rw [queueRetire_carrying counted, setTasks_tasks]
    exact setTasks_cursor walk
  · rw [queueRetire_adding counted, setTasks_tasks]
    exact setTasks_cursor walk

/-- R55: RETIRE(e) joins the list as e becomes RETIRING. -/
theorem retireEvent_tasksOk {q : Request} {g : Gate} (ok : TasksOk g) : TasksOk (retireEvent q g).gate := by
  rcases retireEvent_gate_cases q g with refused | ⟨e, closed, retired⟩
  · rwa [refused]
  · have frame := queueRetire_eq_upkeep e g
    have event (i : EventIndex) : (queueRetire e g).event i = g.event i := by rw [frame]; rfl
    have closed' : ((queueRetire e g).event e).phase = .closed := by rwa [event]
    rw [retired, changePhase_closed_retiring closed']
    refine tasksOk_of_same (g := (queueRetire e g).setEvent e _) (tasksOk_iff.mpr ⟨?_, ?_⟩)
    · refine (queueRetire_tasks closed ok).congr (fun i => ?_) (fun i held => ?_)
      · rw [setEvent_event, event]
        split
        · next own => simp [own, Event.retired]
        · next other => simp [other, event]
      · unfold occupied
        rw [setEvent_event, event]
        split
        · simp [Event.retired]
        · rwa [event]
    · exact queueRetire_cursor ok.cursor

/-! ## LOAD_EVENT and AMEND_EVENT -/

/-- The Event Table and the maintenance list. -/
structure TableAndTasks (g : Gate) : Prop where
  table : TableOk g
  tasks : TasksOk g

theorem loadEvent_tasksOk {q : Request} {g : Gate} (table : TableOk g) (ok : TasksOk g) :
    TasksOk (loadEvent q g).gate := by
  rcases loadEvent_gate_cases q g with refused | ⟨e, inRange, identity, vacant, claimable, taken⟩
  · rwa [refused]
  · have wasVacant := vacantIndex_vacant vacant
    have quiet := takeRecord_quiet e (loadFields q.body) g
    have tableTaken := tableOk_take ⟨inRange, identity, vacant, claimable⟩ table
    rw [taken]
    rw [takeRecord_lanes, takeRecord_events] at quiet
    refine tasksOk_of_tame tableTaken (tasksOk_of ok rfl rfl (fun i => ?_) (fun i held => ?_)) quiet.tame
    · show ((g.setEvent e _).event i).phase = .retiring ↔ _
      rw [setEvent_event]
      split
      · next own =>
        rw [own, wasVacant]
        simp [LoadFields.record]
      · exact Iff.rfl
    · show ((g.setEvent e _).event i).phase ≠ .vacant
      rw [setEvent_event]
      split
      · simp [LoadFields.record]
      · exact held

theorem amendEvent_tasksOk {q : Request} {g : Gate} (table : TableOk g) (ok : TasksOk g) :
    TasksOk (amendEvent q g).gate := by
  rcases amendEvent_gate_cases q g with same | ⟨e, found, notRetiring, written⟩
  · rwa [same]
  · obtain ⟨held, -⟩ := findEvent_some found
    have masked : Quiet g (applyGiven (amendFields q.body).mask (amendMask e) g) :=
      applyGiven_keeps (fun mask _ => amendMask_quiet e mask g) (Quiet.refl g)
    have tableMasked := tableOk_keptPlainly.tame masked.tame table
    have okMasked := tasksOk_of_tame table ok masked.tame
    have heldMasked := mt ((masked.event e).vacant (table.resume e)).mp held
    have notRetiringMasked := mt ((masked.event e).retiring (table.resume e)).mp notRetiring
    rw [written]
    have ranged : TableAndTasks (applyGiven (amendFields q.body).ranges (amendRanges e)
        (applyGiven (amendFields q.body).mask (amendMask e) g)) := by
      refine applyGiven_keeps (fun ranges _ => ?_) ⟨tableMasked, okMasked⟩
      refine ⟨tableOk_keptPlainly.butUpkeep (amendRanges_quietButUpkeep e ranges _) tableMasked, ?_⟩
      have write : Quiet (applyGiven (amendFields q.body).mask (amendMask e) g)
          (modEvent e (fun ev => { ev with ranges := ranges, recountFlag := true })
            (applyGiven (amendFields q.body).mask (amendMask e) g)) :=
        modEvent_quiet_of_frame e _ (fun _ => by exact ⟨rfl, rfl, rfl, rfl, rfl, rfl, rfl⟩)
      exact queueRecount_tasksOk (mt ((write.event e).retiring (tableMasked.resume e)).mp notRetiringMasked)
        (mt ((write.event e).vacant (tableMasked.resume e)).mp heldMasked)
        (tasksOk_of_tame tableMasked okMasked write.tame)
    exact tasksOk_of_tame ranged.table ranged.tasks (writeAmend_cases e _ g).tame

/-! ## The maintenance walker -/

theorem becomeVacant_event (e i : EventIndex) (g : Gate) :
    (becomeVacant e g).event i = if i = e then Event.vacant else g.event i :=
  setEvent_event e i Event.vacant g

/-- R88: the list loses the task whose walk ends. -/
theorem finish_tasks {task : Task} {rest : List Task} {g : Gate} (table : TableOk g)
    (fits : ListFits (fun e => (g.event e).phase = .retiring) (occupied g) (task :: rest)) :
    ListFits (fun e => ((task.finish g).event e).phase = .retiring) (occupied (task.finish g)) rest := by
  cases task with
  | retire e carried =>
    refine fits.tail_retire.congr (fun i => ?_) (fun i => ?_)
    · show ((becomeVacant e g).event i).phase = .retiring ↔ _
      rw [becomeVacant_event]
      split
      · next own => simp [own, Event.vacant]
      · next other => simp [other]
    · rintro ⟨held, other⟩
      show ((becomeVacant e g).event i).phase ≠ .vacant
      rwa [becomeVacant_event, if_neg other]
  | recount e =>
    have quiet := finishRecount_quiet e g
    exact (fits.tail (fun _ _ => by simp)).congr (fun i => (quiet.event i).retiring (table.resume i))
      (fun i => mt ((quiet.event i).vacant (table.resume i)).mp)
  | ageScan => exact fits.tail (fun _ _ => by simp)

theorem endWalk_tasksOk {task : Task} {rest : List Task} {g : Gate} (table : TableOk g)
    (fits : ListFits (fun e => (g.event e).phase = .retiring) (occupied g) (task :: rest)) :
    TasksOk (endWalk task rest g) := by
  have left := finish_tasks table fits
  unfold endWalk
  cases rest with
  | nil => exact tasksOk_iff.mpr ⟨left, fun some_ => absurd rfl some_⟩
  | cons next others => exact tasksOk_iff.mpr ⟨left, fun _ => Nat.zero_lt_succ _⟩

theorem visitedBucket_tasks (task : Task) (g : Gate) : (visitedBucket task g).upkeep.tasks = g.upkeep.tasks :=
  (visitedRecords_quiet task g).tasks

theorem maintenanceVisit_tasksOk {g : Gate} (table : TableOk g) (ok : TasksOk g) : TasksOk (maintenanceVisit g) := by
  rcases maintenanceVisit_cases g with idle | ⟨task, rest, tasks, visit⟩
  · rwa [idle]
  · have quiet := visitedRecords_quiet task g
    obtain ⟨fits, -⟩ := tasksOk_iff.mp ok
    have visitedFits : ListFits (fun e => ((visitedBucket task g).event e).phase = .retiring)
        (occupied (visitedBucket task g)) (visitedBucket task g).upkeep.tasks := by
      rw [visitedBucket_tasks]
      exact fits.congr (fun e => (quiet.event e).retiring (table.resume e))
        (fun e => mt ((quiet.event e).vacant (table.resume e)).mp)
    rcases visit with ⟨before, goes⟩ | ⟨-, ends⟩
    · rw [goes]
      refine tasksOk_iff.mpr ⟨visitedFits, fun _ => ?_⟩
      have bound := (visitedBucket task g).upkeep.cursor.isLt
      have other : (visitedBucket task g).upkeep.cursor.val ≠ 8192 := fun same => before (Fin.ext same)
      omega
    · rw [ends]
      rw [visitedBucket_tasks, tasks] at visitedFits
      exact endWalk_tasksOk (tableOk_keptPlainly.butUpkeep (visitedBucket_quietButUpkeep task g) table) visitedFits

/-! ## Restart -/

/-- R58, R92: the task that a restart queues for an event that is loaded. -/
def restartTask (g : Gate) (e : EventIndex) : Task :=
  if (g.event e).phase = .retiring then .retire e true else .recount e

/-- R58: the tasks that a restart queues for some events, in their order. -/
def restartTasks (g : Gate) (events : List EventIndex) : List Task :=
  (events.filter (fun e => (g.event e).phase ≠ .vacant)).map (restartTask g)

theorem restartTasks_nil (g : Gate) : restartTasks g [] = [] := rfl

theorem taskEvent_restartTask (g : Gate) (e : EventIndex) : taskEvent (restartTask g e) = some e := by
  unfold restartTask
  split <;> rfl

theorem restartTasks_fit (g : Gate) :
    ListFits (fun e => (g.event e).phase = .retiring) (occupied g) (restartTasks g allEvents) where
  once := by
    unfold restartTasks
    rw [List.map_map]
    refine List.Nodup.map_on (fun a _ b _ same => ?_) ((List.nodup_finRange 24).filter _)
    simp only [Function.comp_apply, taskEvent_restartTask] at same
    exact Option.some.inj same
  retire e := by
    unfold restartTasks
    constructor
    · intro retiring
      refine ⟨true, List.mem_map.mpr ⟨e, List.mem_filter.mpr ⟨mem_allEvents e, ?_⟩, if_pos retiring⟩⟩
      simp [retiring]
    · rintro ⟨carried, listed⟩
      obtain ⟨f, -, same⟩ := List.mem_map.mp listed
      unfold restartTask at same
      split at same
      · next retiring =>
        cases same
        exact retiring
      · cases same
  recount e listed := by
    unfold restartTasks at listed
    obtain ⟨f, loaded, same⟩ := List.mem_map.mp listed
    unfold restartTask at same
    split at same
    · cases same
    · cases same
      simpa using (List.mem_filter.mp loaded).2

theorem QuietButUpkeep.record {g h : Gate} (q : QuietButUpkeep g h) (e : EventIndex) :
    EventQuiet (g.event e) (h.event e) :=
  Quiet.event q e

/-- R58: the part as the blocks have taken their part of the restart and some events have been re-formed. -/
structure Reformed (start : Gate) (events : List EventIndex) (g : Gate) : Prop where
  quiet : QuietButUpkeep start g
  tasks : g.upkeep.tasks = restartTasks start events
  cursor : g.upkeep.tasks ≠ [] → g.upkeep.cursor.val < 8192

theorem Reformed.step {start g : Gate} {events : List EventIndex} (table : TableOk start) (before : Reformed start events g)
    (e : EventIndex) : Reformed start (events ++ [e]) (reformEvent e g) := by
  have delivery := reformDelivery_quiet e g
  have stays := before.quiet.trans delivery.butUpkeep
  have vacant : ((reformDelivery e g).event e).phase = .vacant ↔ (start.event e).phase = .vacant :=
    (stays.record e).vacant (table.resume e)
  have retiring : ((reformDelivery e g).event e).phase = .retiring ↔ (start.event e).phase = .retiring :=
    (stays.record e).retiring (table.resume e)
  have tasks : (reformDelivery e g).upkeep.tasks = restartTasks start events := delivery.tasks.trans before.tasks
  have walk : (reformDelivery e g).upkeep.tasks ≠ [] → (reformDelivery e g).upkeep.cursor.val < 8192 := by
    rw [delivery.tasks, delivery.maintenance]
    exact before.cursor
  have grown : restartTasks start (events ++ [e])
      = restartTasks start events ++ if (start.event e).phase = .vacant then [] else [restartTask start e] := by
    unfold restartTasks
    rw [List.filter_append, List.map_append]
    by_cases none_ : (start.event e).phase = .vacant <;> simp [none_]
  refine ⟨stays.trans (requeueTask_quietButUpkeep e _), ?_, ?_⟩
  · unfold reformEvent requeueTask
    rw [grown]
    by_cases none_ : (start.event e).phase = .vacant
    · rw [if_pos (vacant.mpr none_), if_pos none_, List.append_nil, tasks]
    · rw [if_neg (mt vacant.mp none_), if_neg none_]
      simp only [retiring]
      rw [setTasks_tasks, tasks]
      rfl
  · unfold reformEvent requeueTask
    split
    · exact walk
    · intro _
      exact setTasks_cursor walk (by simp)

theorem reformed_foldl {start : Gate} (table : TableOk start) (left done : List EventIndex) (g : Gate)
    (before : Reformed start done g) :
    Reformed start (done ++ left) (left.foldl (fun acc e => reformEvent e acc) g) := by
  induction left generalizing done g with
  | nil => rwa [List.append_nil]
  | cons e left ih =>
    rw [List.append_cons]
    exact ih (done ++ [e]) (reformEvent e g) (before.step table e)

theorem reformed_restartNow (cause : Byte) {g : Gate}
    (table : TableOk (postRestarted cause (clearBlocks (cutSave g)))) :
    Reformed (postRestarted cause (clearBlocks (cutSave g))) allEvents (restartNow cause g) := by
  have empty : (postRestarted cause (clearBlocks (cutSave g))).upkeep.tasks = [] := by
    rw [postRestarted, post_upkeep, clearBlocks]
  unfold restartNow
  exact reformed_foldl table allEvents [] _
    ⟨QuietButUpkeep.refl _, empty.trans (restartTasks_nil _).symm, fun some_ => absurd empty some_⟩

theorem restartedBlocks_tableOk {cause : Byte} {g : Gate} (table : TableOk g) :
    TableOk (postRestarted cause (clearBlocks (cutSave g))) := by
  have cut : TableOk (cutSave g) := by
    rw [cutSave_frame]
    exact tableOk_of_same table rfl rfl
  exact tableOk_keptPlainly.books (post_books ..) (tableOk_keptPlainly.clear cut)

theorem restartNow_tasksOk {cause : Byte} {g : Gate} (table : TableOk g) : TasksOk (restartNow cause g) := by
  have blocks := restartedBlocks_tableOk (cause := cause) table
  have reformed := reformed_restartNow cause blocks
  refine tasksOk_iff.mpr ⟨?_, reformed.cursor⟩
  rw [reformed.tasks]
  exact (restartTasks_fit _).congr (fun e => (reformed.quiet.record e).retiring (blocks.resume e))
    (fun e => mt ((reformed.quiet.record e).vacant (blocks.resume e)).mp)

/-! ## Every command -/

theorem tasksOk_of_books {g h : Gate} (books : Books g h) (ok : TasksOk g) : TasksOk h := by
  rw [books.gate]
  exact tasksOk_of_same ok

theorem imageLoadEnd_tasksOk {acknowledged : Nat} {g : Gate} (ok : TasksOk g) : TasksOk (imageLoadEnd acknowledged g) := by
  have finished (h : Gate) (same : h.upkeep = g.upkeep) (events : h.events = g.events) : TasksOk (finishLoad h) := by
    have okH : TasksOk h := tasksOk_of_same ok same events
    exact tasksOk_of okH rfl rfl (fun _ => Iff.rfl) (fun _ => id)
  rcases imageLoadEnd_cases acknowledged g with idle | ⟨image, -, taken⟩ | ⟨failure, aside⟩
  · rwa [idle]
  · rw [taken]
    exact tasksOk_of_books (post_books ..) (finished _ (by rw [takeImage_frame]) (by rw [takeImage_frame]))
  · rw [aside]
    exact tasksOk_of_books (post_books ..) (finished _ (by rw [takeDefaults_frame]) (by rw [takeDefaults_frame]))

theorem tableAndTasks_of_tame {g h : Gate} (tame : Tame g h) (ok : TableAndTasks g) : TableAndTasks h :=
  ⟨tableOk_keptPlainly.tame tame ok.table, tasksOk_of_tame ok.table ok.tasks tame⟩

theorem tableAndTasks_of_books {g h : Gate} (books : Books g h) (ok : TableAndTasks g) : TableAndTasks h :=
  ⟨tableOk_keptPlainly.books books ok.table, tasksOk_of_books books ok.tasks⟩

theorem tableAndTasks_of_same {g h : Gate} (ok : TableAndTasks g) (lanes : h.lanes = g.lanes := by rfl)
    (events : h.events = g.events := by rfl) (upkeep : h.upkeep = g.upkeep := by rfl) : TableAndTasks h :=
  ⟨tableOk_of_same ok.table lanes events, tasksOk_of_same ok.tasks upkeep events⟩

theorem setTiming_tableAndTasks {q : Request} {g : Gate} (ok : TableAndTasks g) : TableAndTasks (setTiming q g).gate := by
  rcases setTiming_gate_cases q g with refused | ⟨-, written⟩
  · rwa [refused]
  · rw [written]
    exact tableAndTasks_of_tame (writeTiming_quiet ..).tame (tableAndTasks_of_same ok)

theorem saveImageEnd_tableAndTasks {acknowledged : Nat} {g : Gate} (ok : TableAndTasks g) :
    TableAndTasks (saveImageEnd acknowledged g) := by
  rcases saveImageEnd_cases acknowledged g with idle | ⟨tag, image, -, ⟨-, whole⟩ | ⟨-, part⟩⟩
  · rwa [idle]
  · rw [whole]
    exact tableAndTasks_of_books (endSave_books ..) (tableAndTasks_of_same ok)
  · rw [part, writePart_frame]
    exact tableAndTasks_of_books (endSave_books ..) (tableAndTasks_of_same ok)

theorem managementCell_tableAndTasks {g : Gate} (ok : TableAndTasks g) : TableAndTasks (managementCell g) := by
  rcases managementCell_cases g with counted | ⟨cell, pre, before, -, joined⟩
  · exact tableAndTasks_of_tame counted.quiet.tame ok
  · rw [joined]
    exact tableAndTasks_of_books (joinQueue_books ..) (tableAndTasks_of_tame before.quiet.tame ok)

theorem tableAndTasks_keptBySteps : KeptBySteps TableAndTasks TableAndTasks where
  quiet q := tableAndTasks_of_tame q.tame
  quietBegun q := tableAndTasks_of_tame q.tame
  leave _ _ := tableAndTasks_of_books (leaveQueue_books _)
  reply := tableAndTasks_of_books (placeReply_books ..)
  takeUp := tableAndTasks_of_books (takeUpItems_books ..)
  item _ := tableAndTasks_of_books (afterItem_books ..)
  imageLoadEnd ok := ⟨tableOk_keptPlainly.imageLoadEnd ok.table, imageLoadEnd_tasksOk ok.tasks⟩
  management := managementCell_tableAndTasks
  sweep := tableAndTasks_of_tame (sweepVisit_tame _)
  maintenance ok := ⟨tableOk_keptPlainly.maintenanceVisit ok.table, maintenanceVisit_tasksOk ok.table ok.tasks⟩
  age ok := ⟨tableOk_keptPlainly.butUpkeep (ageInstant_quietButUpkeep _) ok.table, ageInstant_tasksOk ok.tasks⟩
  returns := tableAndTasks_of_books (returnSlot_books _)
  load ok := ⟨tableOk_keptPlainly.bySteps.load ok.table, loadEvent_tasksOk ok.table ok.tasks⟩
  amend ok := ⟨tableOk_keptPlainly.bySteps.amend ok.table, amendEvent_tasksOk ok.table ok.tasks⟩
  retire ok := ⟨tableOk_keptPlainly.retireEvent ok.table, retireEvent_tasksOk ok.tasks⟩
  setZone {q g} ok := by
    rcases setZone_gate_cases q g with refused | ⟨z, share, -, -, dark, written⟩
    · rwa [refused]
    · rw [written]
      exact tableAndTasks_of_same ok
  setProfile {q g} ok := by
    rcases setProfile_gate_cases q g with refused | written
    · rwa [refused]
    · rw [written]
      exact tableAndTasks_of_same ok
  setCueMap {q g} ok := by
    rcases setCueMap_gate_cases q g with refused | ⟨_, _, _, _, _, written⟩
    · rwa [refused]
    · rw [written]
      exact tableAndTasks_of_same ok
  setTiming := setTiming_tableAndTasks
  save ok := tableAndTasks_of_same ok
  saveEnd := saveImageEnd_tableAndTasks
  restart := tableAndTasks_of_books (beginRestart_books ..)
  restarted ok := ⟨tableOk_keptPlainly.restartNow ok.table, restartNow_tasksOk ok.table⟩

theorem powerOn_tasksOk (unitStraps : Byte) (zoneStraps : BitVec 2) (fitted : Option (List Byte)) (g : Gate) :
    TasksOk (powerOn unitStraps zoneStraps fitted g) := by
  refine tasksOk_iff.mpr ⟨⟨List.nodup_nil, fun e => ?_, fun e listed => by cases listed⟩, fun some_ => absurd rfl some_⟩
  rw [powerOn_event]
  constructor
  · intro retiring
    cases retiring
  · rintro ⟨_, listed⟩
    cases listed

theorem effect_tableAndTasks (i : Instr) {g : Gate} (ok : TableAndTasks g) : TableAndTasks (effect i g) :=
  tableAndTasks_keptBySteps.effect ok (fun _ _ _ _ => ⟨powerOn_tableOk .., powerOn_tasksOk ..⟩)

end Sys2Proof.Machine

namespace Sys2Proof.Proofs

open Sys2Proof.Machine Sys2Proof.Safety Sys2Proof.Claims

/-- Settles O9: tasks join and leave the list with the phases of their events, which the Event Table's invariant ties to
the records. -/
theorem everyStepKeepsTheMaintenanceList : Obligations.EveryStepKeepsTheMaintenanceList :=
  fun _ _ events tasks stepped =>
    (step_keeps (P := TableAndTasks) (fun i _ => effect_tableAndTasks i) ⟨tableOk_iff.mpr events, tasks⟩ stepped).tasks

end Sys2Proof.Proofs

/-! PROOF. The roster's invariant: a leg belongs to a sheet that its event holds in a LISTED phase, and no leg walks a later lap
beside a leg on its first. -/

namespace Sys2Proof.Machine

open Sys2Proof.Safety Sys2Proof.Claims

set_option Elab.async false

/-! ## The roster by itself -/

/-- What an event record owes a leg of a slot for a sheet. -/
abbrev Fit : Type := EventIndex → SheetSlot → SheetNumber → Prop

/-- R119, R124: every leg fits, has a lap number, and walks no later lap beside a first-lap leg. -/
structure RosterOk (fit : Fit) (g : Gate) : Prop where
  fits : ∀ e slot leg, g.leg e slot = some leg → fit e slot leg.sheet
  lap : ∀ e slot leg, g.leg e slot = some leg → leg.lap ≠ 0
  first : ∀ e slot leg f other walking, g.leg e slot = some leg → g.leg f other = some walking →
    leg.firstLap = true → walking.walking = true → walking.lap = 1

/-- A leg that goes on as another one, or has stopped walking. -/
structure Leg.GoesOn (leg after : Leg) : Prop where
  sheet : after.sheet = leg.sheet
  lap : after.lap = leg.lap
  walking : after.walking = true → leg.walking = true

theorem Leg.GoesOn.refl (leg : Leg) : leg.GoesOn leg :=
  ⟨rfl, rfl, id⟩

theorem Leg.GoesOn.firstLap {leg after : Leg} (goes : leg.GoesOn after) (first : after.firstLap = true) :
    leg.firstLap = true := by
  simp only [Leg.firstLap, Bool.and_eq_true, decide_eq_true_eq] at first ⊢
  exact ⟨goes.walking first.1, goes.lap.symm.trans first.2⟩

namespace RosterOk

variable {fit fit' : Fit} {g h : Gate}

/-- A roster whose legs all go on as legs of another stays in order. -/
theorem shrink (ok : RosterOk fit g)
    (from_ : ∀ e slot after, h.leg e slot = some after → ∃ leg, g.leg e slot = some leg ∧ leg.GoesOn after) :
    RosterOk fit h where
  fits e slot after held := by
    obtain ⟨leg, was, goes⟩ := from_ e slot after held
    exact goes.sheet ▸ ok.fits e slot leg was
  lap e slot after held := by
    obtain ⟨leg, was, goes⟩ := from_ e slot after held
    exact goes.lap ▸ ok.lap e slot leg was
  first e slot after f other walking held heldWalking first walks := by
    obtain ⟨leg, was, goes⟩ := from_ e slot after held
    obtain ⟨walker, wasWalking, goesWalking⟩ := from_ f other walking heldWalking
    exact goesWalking.lap.trans (ok.first e slot leg f other walker was wasWalking (goes.firstLap first)
      (goesWalking.walking walks))

theorem congr (ok : RosterOk fit g) (same : ∀ e slot, h.leg e slot = g.leg e slot) : RosterOk fit h :=
  ok.shrink (fun e slot after held => ⟨after, same e slot ▸ held, .refl after⟩)

/-- The roster stays in order for another demand that its legs meet. -/
theorem mono (ok : RosterOk fit g) (fits : ∀ e slot leg, g.leg e slot = some leg → fit e slot leg.sheet → fit' e slot leg.sheet) :
    RosterOk fit' g :=
  ⟨fun e slot leg held => fits e slot leg held (ok.fits e slot leg held), ok.lap, ok.first⟩

theorem setLeg_leg (e f : EventIndex) (slot other : SheetSlot) (leg : Option Leg) (g : Gate) :
    (setLeg e slot leg g).leg f other = if f = e ∧ other = slot then leg else g.leg f other := by
  split
  · next place => rw [place.1, place.2, setLeg_leg_same]
  · next place => exact setLeg_leg_other (Decidable.not_and_iff_not_or_not.mp place) leg g

theorem drop (ok : RosterOk fit g) (e : EventIndex) (slot : SheetSlot) : RosterOk fit (setLeg e slot none g) := by
  refine ok.shrink (fun f other after held => ?_)
  rw [setLeg_leg] at held
  split at held
  · cases held
  · exact ⟨after, held, .refl after⟩

/-- A leg of the roster goes on as another. -/
theorem replace (ok : RosterOk fit g) {e : EventIndex} {slot : SheetSlot} {leg after : Leg}
    (was : g.leg e slot = some leg) (goes : leg.GoesOn after) : RosterOk fit (setLeg e slot (some after) g) := by
  refine ok.shrink (fun f other next held => ?_)
  rw [setLeg_leg] at held
  split at held
  · next place =>
    cases held
    exact ⟨leg, by rw [place.1, place.2, was], goes⟩
  · exact ⟨next, held, .refl next⟩

theorem mapLeg (ok : RosterOk fit g) {f : Leg → Leg} (e : EventIndex) (slot : SheetSlot)
    (goes : ∀ leg : Leg, leg.GoesOn (f leg)) : RosterOk fit (setLeg e slot ((g.leg e slot).map f) g) := by
  cases was : g.leg e slot with
  | none => exact ok.drop e slot
  | some leg => exact ok.replace was (goes leg)

theorem mapLegs (ok : RosterOk fit g) {f : Leg → Leg} (goes : ∀ leg : Leg, leg.GoesOn (f leg)) :
    RosterOk fit (mapLegs f g) := by
  refine ok.shrink (fun e slot after held => ?_)
  rw [mapLegs_leg] at held
  obtain ⟨leg, was, rfl⟩ := Option.map_eq_some_iff.mp held
  exact ⟨leg, was, goes leg⟩

end RosterOk

/-! ## Suspending and resuming (R124) -/

theorem Leg.suspend_goesOn (leg : Leg) : leg.GoesOn leg.suspend := by
  unfold Leg.suspend
  split
  · exact ⟨rfl, rfl, fun walks => by cases walks⟩
  · exact .refl leg

theorem Leg.suspend_lap {leg : Leg} (walks : leg.suspend.walking = true) : leg.suspend.lap = 1 := by
  unfold Leg.suspend at walks ⊢
  split at walks
  · cases walks
  · next notLater =>
    rw [if_neg notLater]
    simpa [walks] using notLater

theorem lapUp_ne {lap : Half} (some_ : lap ≠ 0) : lapUp lap ≠ 0 ∧ lapUp lap ≠ 1 := by
  unfold lapUp
  split
  · next top =>
    rw [top]
    decide
  · constructor <;> bv_omega

theorem Leg.resume_sheet (cursor : Bucket) (leg : Leg) : (leg.resume cursor).sheet = leg.sheet := by
  unfold Leg.resume
  split <;> rfl

theorem Leg.resume_lap {cursor : Bucket} {leg : Leg} (some_ : leg.lap ≠ 0) : (leg.resume cursor).lap ≠ 0 := by
  unfold Leg.resume
  split
  · exact some_
  · exact (lapUp_ne some_).1

/-- R124: a leg that resumes, and one that goes on on a later lap, is on no first lap. -/
theorem Leg.resume_firstLap {cursor : Bucket} {leg : Leg} (some_ : leg.lap ≠ 0) (later : leg.firstLap = false) :
    (leg.resume cursor).firstLap = false := by
  unfold Leg.resume
  split
  · exact later
  · simpa [Leg.firstLap] using (lapUp_ne some_).2

theorem firstLap_false_of_not_hasFirstLap {g : Gate} (none_ : ¬ g.hasFirstLap = true) {e : EventIndex} {slot : SheetSlot}
    {leg : Leg} (held : g.leg e slot = some leg) : leg.firstLap = false :=
  Bool.eq_false_iff.mpr (fun first => none_ ((hasFirstLap_iff g).mpr ⟨e, slot, leg, held, first⟩))

theorem resumeWaiting_roster {fit : Fit} {g : Gate} (ok : RosterOk fit g) (none_ : ¬ g.hasFirstLap = true) :
    RosterOk fit (resumeWaiting g) := by
  have from_ (e : EventIndex) (slot : SheetSlot) (after : Leg) (held : (resumeWaiting g).leg e slot = some after) :
      ∃ leg, g.leg e slot = some leg ∧ leg.resume g.walker.cursor = after := by
    unfold resumeWaiting at held
    rw [mapLegs_leg] at held
    exact Option.map_eq_some_iff.mp held
  refine ⟨fun e slot after held => ?_, fun e slot after held => ?_,
    fun e slot after f other walking held heldWalking first walks => ?_⟩
  · obtain ⟨leg, was, rfl⟩ := from_ e slot after held
    rw [Leg.resume_sheet]
    exact ok.fits e slot leg was
  · obtain ⟨leg, was, rfl⟩ := from_ e slot after held
    exact Leg.resume_lap (ok.lap e slot leg was)
  · obtain ⟨leg, was, rfl⟩ := from_ e slot after held
    rw [Leg.resume_firstLap (ok.lap e slot leg was) (firstLap_false_of_not_hasFirstLap none_ was)] at first
    cases first

theorem afterFirstLap_roster {fit : Fit} {g : Gate} (wasFirstLap : Bool) (ok : RosterOk fit g) :
    RosterOk fit (afterFirstLap wasFirstLap g) := by
  unfold afterFirstLap
  split
  · next last =>
    simp only [Bool.and_eq_true, Bool.not_eq_true'] at last
    exact resumeWaiting_roster ok (by rw [last.2]; decide)
  · exact ok

theorem dropLeg_roster {fit : Fit} {g : Gate} (e : EventIndex) (slot : SheetSlot) (ok : RosterOk fit g) :
    RosterOk fit (dropLeg e slot g) := by
  unfold dropLeg
  split
  · exact ok
  · exact afterFirstLap_roster _ (ok.drop e slot)

theorem removeSweep_roster {fit : Fit} {g : Gate} (e : EventIndex) (ok : RosterOk fit g) :
    RosterOk fit (removeSweep e g) :=
  afterFirstLap_roster _ ((ok.drop e .current).drop e .pending)

theorem removeSweep_leg (e : EventIndex) (slot : SheetSlot) (g : Gate) : (removeSweep e g).leg e slot = none := by
  have cleared : (setLeg e .pending none (setLeg e .current none g)).leg e slot = none := by
    cases slot
    · rw [setLeg_leg_other (.inr (by decide)), setLeg_leg_same]
    · rw [setLeg_leg_same]
  unfold removeSweep afterFirstLap
  dsimp only
  split
  · rw [resumeWaiting, mapLegs_leg, cleared, Option.map_none]
  · exact cleared

/-- R119, R124: with the later-lap legs suspended, a leg may join on its first lap. -/
theorem enterLeg_roster {fit : Fit} {g : Gate} {e : EventIndex} {slot : SheetSlot} {leg : Leg} (ok : RosterOk fit g)
    (fits : fit e slot leg.sheet) (lap : leg.lap = 1) : RosterOk fit (enterLeg e slot leg g) := by
  have suspended := ok.mapLegs Leg.suspend_goesOn
  have legs (f : EventIndex) (other : SheetSlot) : (enterLeg e slot leg g).leg f other
      = if f = e ∧ other = slot then some leg else (mapLegs Leg.suspend g).leg f other := by
    unfold enterLeg
    rw [bumpEvent_leg, RosterOk.setLeg_leg]
  refine ⟨fun f other after held => ?_, fun f other after held => ?_,
    fun e₁ slot₁ first₁ f other after _ held _ walks => ?_⟩
  · rw [legs] at held
    split at held
    · next place =>
      cases held
      rw [place.1, place.2]
      exact fits
    · exact suspended.fits f other after held
  · rw [legs] at held
    split at held
    · cases held
      rw [lap]
      decide
    · exact suspended.lap f other after held
  · rw [legs] at held
    split at held
    · cases held
      exact lap
    · rw [mapLegs_leg] at held
      obtain ⟨leg, -, rfl⟩ := Option.map_eq_some_iff.mp held
      exact Leg.suspend_lap walks

theorem makeLate_roster {fit : Fit} {g : Gate} {e : EventIndex} {slot : SheetSlot} {leg : Leg} (ok : RosterOk fit g)
    (was : g.leg e slot = some leg) : RosterOk fit (makeLate e slot leg g) := by
  unfold makeLate
  split
  · exact (ok.replace was (after := { leg with late := true, deadline := none }) ⟨rfl, rfl, id⟩).congr (fun _ _ => rfl)
  · exact ok.replace was ⟨rfl, rfl, id⟩

theorem lateAtJoin_roster {fit : Fit} {g : Gate} {e : EventIndex} {slot : SheetSlot} {leg : Leg} (ok : RosterOk fit g)
    (was : g.leg e slot = some leg) : RosterOk fit (lateAtJoin e slot leg g) := by
  unfold lateAtJoin
  split
  · split
    · exact makeLate_roster ok was
    · exact ok
  · exact ok

theorem joinLeg_roster {fit : Fit} {g : Gate} {e : EventIndex} {slot : SheetSlot} (ok : RosterOk fit g)
    (fits : ∀ sheet, g.sheet e slot = some sheet → fit e slot sheet.number) : RosterOk fit (joinLeg e slot g) := by
  unfold joinLeg
  split
  · next sheet held free =>
    refine lateAtJoin_roster (enterLeg_roster ok (fits sheet held) rfl) ?_
    unfold enterLeg
    rw [bumpEvent_leg, setLeg_leg_same]
  · exact ok

theorem rejoinPending_roster {fit : Fit} {g : Gate} {e : EventIndex} (ok : RosterOk fit g)
    (fits : ∀ sheet, g.sheet e .pending = some sheet → fit e .pending sheet.number) :
    RosterOk fit (rejoinPending e g) := by
  unfold rejoinPending
  split
  · next sheet held free => exact enterLeg_roster ok (fits sheet held) rfl
  · exact ok

/-! ## A visit of the walker -/

theorem moveCell_roster {fit : Fit} {g : Gate} (e : EventIndex) (slot : SheetSlot) (z : ZoneIndex) (ok : RosterOk fit g) :
    RosterOk fit (moveCell e slot z g) := by
  unfold moveCell
  split
  · exact ok
  · next leg was =>
    split
    · exact ok
    · exact (ok.replace was (after := leg.moved z) ⟨rfl, rfl, id⟩).congr (fun _ _ => modZone_leg ..)

theorem moveCells_roster {fit : Fit} {g : Gate} (e : EventIndex) (slot : SheetSlot) (ok : RosterOk fit g) :
    RosterOk fit (moveCells e slot g) :=
  List.foldlRecOn allZones _ ok (fun _ kept z _ => moveCell_roster e slot z kept)

theorem flushOwed_roster {fit : Fit} {g : Gate} (r : EventIndex × SheetSlot) (ok : RosterOk fit g) :
    RosterOk fit (flushOwed r g) := by
  unfold flushOwed
  split
  · exact ok
  · split
    · exact (moveCells_roster r.1 r.2 ok).mapLeg r.1 r.2 (fun _ => ⟨rfl, rfl, id⟩)
    · exact ok

theorem flushLapEnd_roster {fit : Fit} {g : Gate} (r : EventIndex × SheetSlot) (ok : RosterOk fit g) :
    RosterOk fit (flushLapEnd r g) := by
  unfold flushLapEnd
  split
  · exact ok
  · split
    · exact moveCells_roster r.1 r.2 ok
    · exact ok

theorem placeFor_roster {fit : Fit} {g : Gate} (h : Holder) (r : EventIndex × SheetSlot) (ok : RosterOk fit g) :
    RosterOk fit (placeFor h r g) := by
  unfold placeFor
  split
  · exact ok
  · next leg was =>
    split
    · have placed : RosterOk fit (setLeg r.1 r.2
          (some { leg with cells := leg.cells.set h.zone (leg.cells[h.zone] ++ [h.decoder]) }) g) :=
        ok.replace was ⟨rfl, rfl, id⟩
      have counted : RosterOk fit (if leg.firstLap && leg.late then modZone h.zone (Zone.countBy .lateGrants 1)
          (setLeg r.1 r.2 (some { leg with cells := leg.cells.set h.zone (leg.cells[h.zone] ++ [h.decoder]) }) g)
          else setLeg r.1 r.2
            (some { leg with cells := leg.cells.set h.zone (leg.cells[h.zone] ++ [h.decoder]) }) g) := by
        split
        · exact placed.congr (fun _ _ => modZone_leg ..)
        · exact placed
      unfold place
      dsimp only
      split
      · exact moveCell_roster r.1 r.2 h.zone counted
      · exact counted
    · exact ok

theorem Leg.step_goesOn (leg : Leg) : leg.GoesOn leg.step := by
  unfold Leg.step
  split
  · exact ⟨rfl, rfl, id⟩
  · exact .refl leg

/-- R123: a leg whose lap ends begins its next one where no leg is on its first. -/
theorem resumed_roster {fit : Fit} {g : Gate} {e : EventIndex} {slot : SheetSlot} {leg : Leg} (ok : RosterOk fit g)
    (was : g.leg e slot = some leg) (none_ : ¬ g.hasFirstLap = true) (cursor : Bucket) :
    RosterOk fit (setLeg e slot (some (leg.resume cursor)) g) := by
  have lap := ok.lap e slot leg was
  have later := firstLap_false_of_not_hasFirstLap none_ was
  refine ⟨fun f other after held => ?_, fun f other after held => ?_,
    fun f other after _ _ _ held _ first _ => ?_⟩
  · rw [RosterOk.setLeg_leg] at held
    split at held
    · next place =>
      cases held
      rw [place.1, place.2, Leg.resume_sheet]
      exact ok.fits e slot leg was
    · exact ok.fits f other after held
  · rw [RosterOk.setLeg_leg] at held
    split at held
    · cases held
      exact Leg.resume_lap lap
    · exact ok.lap f other after held
  · rw [RosterOk.setLeg_leg] at held
    split at held
    · cases held
      rw [Leg.resume_firstLap lap later] at first
      cases first
    · rw [firstLap_false_of_not_hasFirstLap none_ held] at first
      cases first

theorem endLap_roster {fit : Fit} {g : Gate} (r : EventIndex × SheetSlot) (ok : RosterOk fit g) :
    RosterOk fit (endLap r g) := by
  unfold endLap
  split
  · exact ok
  · next leg was =>
    split
    · have counted : RosterOk fit (bumpEvent r.1 .lapsCompleted g) := ok.congr (fun _ _ => bumpEvent_leg ..)
      have ended : RosterOk fit (setLeg r.1 r.2 (some { leg with walking := false, deadline := none })
          (bumpEvent r.1 .lapsCompleted g)) :=
        counted.replace ((bumpEvent_leg ..).trans was) ⟨rfl, rfl, fun walks => by cases walks⟩
      dsimp only
      split
      · exact ended
      · next none_ =>
        split
        · exact resumeWaiting_roster ended none_
        · exact resumed_roster ended (setLeg_leg_same ..) none_ _
    · exact ok

end Sys2Proof.Machine

/-! PROOF. The steps that keep the roster in order and leave what its legs need: the modes of the events and the numbers of
their sheets. -/

namespace Sys2Proof.Machine

open Sys2Proof.Safety Sys2Proof.Claims

set_option Elab.async false

/-! ## The invariant as a roster in order -/

/-- R119: a leg's event is in a LISTED phase, and holds the leg's sheet in its slot. -/
def Gate.legFits (g : Gate) : Fit := fun e slot number =>
  (g.event e).phase.mode = .listedGrant ∧ (g.sheet e slot).map Sheet.number = some number

theorem legsOk_iff {g : Gate} : LegsOk g ↔ RosterOk g.legFits g := by
  constructor
  · intro ok
    refine ⟨fun e slot leg held => ?_, ok.lap, ok.first⟩
    obtain ⟨listed, sheet, there, number⟩ := ok.sheet e slot leg held
    exact ⟨listed, by rw [there, Option.map_some, number]⟩
  · intro ok
    refine ⟨fun e slot leg held => ?_, ok.lap, ok.first⟩
    obtain ⟨listed, number⟩ := ok.fits e slot leg held
    obtain ⟨sheet, there, same⟩ := Option.map_eq_some_iff.mp number
    exact ⟨listed, sheet, there, same⟩

/-- The invariant after a step that keeps the roster in order, where what remains of it still fits. -/
theorem legsOk_of_roster {g h : Gate} (roster : RosterOk g.legFits h)
    (fits : ∀ e slot leg, h.leg e slot = some leg → g.legFits e slot leg.sheet → h.legFits e slot leg.sheet) : LegsOk h :=
  legsOk_iff.mpr (roster.mono fits)

/-- An event in no LISTED phase has no leg. -/
theorem leg_eq_none_of_mode {g : Gate} (ok : LegsOk g) {e : EventIndex} (other : (g.event e).phase.mode ≠ .listedGrant)
    (slot : SheetSlot) : g.leg e slot = none := by
  cases held : g.leg e slot with
  | none => rfl
  | some leg => exact absurd (ok.sheet e slot leg held).1 other

/-! ## Steps that keep the roster and what its legs need -/

/-- A step that keeps a roster in order for whatever its legs need, and takes nothing of that away. -/
structure LegsStay (g h : Gate) : Prop where
  roster : ∀ fit, RosterOk fit g → RosterOk fit h
  fits : ∀ e slot number, g.legFits e slot number → h.legFits e slot number

theorem LegsStay.refl (g : Gate) : LegsStay g g :=
  ⟨fun _ => id, fun _ _ _ => id⟩

theorem LegsStay.trans {g h k : Gate} (p : LegsStay g h) (q : LegsStay h k) : LegsStay g k :=
  ⟨fun fit => q.roster fit ∘ p.roster fit, fun e slot number => q.fits e slot number ∘ p.fits e slot number⟩

theorem LegsStay.foldl {α : Type} {f : α → Gate → Gate} (stays : ∀ a g, LegsStay g (f a g)) (items : List α) (g : Gate) :
    LegsStay g (items.foldl (fun acc a => f a acc) g) :=
  List.foldlRecOn (motive := LegsStay g) items _ (.refl g) (fun acc before a _ => before.trans (stays a acc))

theorem LegsStay.legsOk {g h : Gate} (stay : LegsStay g h) (ok : LegsOk g) : LegsOk h :=
  legsOk_of_roster (stay.roster _ (legsOk_iff.mp ok)) (fun e slot leg _ => stay.fits e slot leg.sheet)

theorem legsStay_of_legs {g h : Gate} (legs : ∀ e slot, h.leg e slot = g.leg e slot)
    (mode : ∀ e, (h.event e).phase.mode = (g.event e).phase.mode)
    (sheets : ∀ e slot, (h.sheet e slot).map Sheet.number = (g.sheet e slot).map Sheet.number) : LegsStay g h :=
  ⟨fun _ ok => ok.congr legs, fun e slot _ fits => ⟨(mode e).trans fits.1, (sheets e slot).trans fits.2⟩⟩

theorem legsStay_of_same {g h : Gate} (events : h.events = g.events := by rfl)
    (roster : h.walker.roster = g.walker.roster := by rfl) : LegsStay g h := by
  have event (e : EventIndex) : h.event e = g.event e := congrArg (fun events => events[e]) events
  refine legsStay_of_legs (fun e slot => ?_) (fun e => by rw [event]) (fun e slot => ?_)
  · exact congrArg (fun roster => (roster[e]).leg slot) roster
  · unfold Gate.sheet
    rw [event]

theorem legFits_of_events {g h : Gate} (events : h.events = g.events := by rfl) : h.legFits = g.legFits := by
  have event (e : EventIndex) : h.event e = g.event e := congrArg (fun events => events[e]) events
  unfold Gate.legFits Gate.sheet
  simp only [event]

/-- A step of the roster alone. -/
theorem legsStay_of_roster {g h : Gate} (roster : ∀ fit, RosterOk fit g → RosterOk fit h)
    (events : h.events = g.events := by rfl) : LegsStay g h :=
  ⟨roster, fun _ _ _ fits => by rwa [legFits_of_events events]⟩

theorem Emits.legsStay {g h : Gate} (emits : Emits g h) : LegsStay g h := by
  rw [emits.gate]
  exact legsStay_of_same

theorem Books.legsStay {g h : Gate} (books : Books g h) : LegsStay g h := by
  rw [books.gate]
  exact legsStay_of_same

/-- A change of one event record that leaves its grant mode and the numbers of its sheets. -/
theorem modEvent_legsStay (e : EventIndex) {f : Event → Event} (g : Gate)
    (mode : (f (g.event e)).phase.mode = (g.event e).phase.mode)
    (sheets : ∀ slot, ((f (g.event e)).sheet slot).map Sheet.number = ((g.event e).sheet slot).map Sheet.number) :
    LegsStay g (modEvent e f g) := by
  refine legsStay_of_legs (fun _ _ => rfl) (fun i => ?_) (fun i slot => ?_)
  · rw [modEvent_event]
    split
    · next own => rw [own, mode]
    · rfl
  · unfold Gate.sheet
    rw [modEvent_event]
    split
    · next own => rw [own, sheets]
    · rfl

/-- A change of one event record that leaves phase and sheets. -/
theorem modEvent_legsStay_of_frame (e : EventIndex) {f : Event → Event} (g : Gate) (phase : ∀ ev, (f ev).phase = ev.phase)
    (current : ∀ ev, (f ev).current = ev.current) (pending : ∀ ev, (f ev).pendingSheet = ev.pendingSheet) :
    LegsStay g (modEvent e f g) := by
  refine modEvent_legsStay e g (by rw [phase]) (fun slot => ?_)
  cases slot
  · exact congrArg (Option.map Sheet.number) (current _)
  · exact congrArg (Option.map Sheet.number) (pending _)

theorem bumpEvent_legsStay (e : EventIndex) (k : EventCounter) (g : Gate) : LegsStay g (bumpEvent e k g) :=
  modEvent_legsStay_of_frame e g (fun _ => rfl) (fun _ => rfl) (fun _ => rfl)

/-- A sheet written in the place of one with its number. -/
theorem setSheet_legsStay {e : EventIndex} {slot : SheetSlot} {g : Gate} {sheet after : Sheet}
    (held : g.sheet e slot = some sheet) (number : after.number = sheet.number) :
    LegsStay g (modEvent e (Event.setSheet slot (some after)) g) := by
  have held : (g.event e).sheet slot = some sheet := held
  refine modEvent_legsStay e g (by cases slot <;> rfl) (fun other => ?_)
  by_cases own : other = slot
  · rw [own, Event.sheet_setSheet_same, held, Option.map_some, Option.map_some, number]
  · rw [Event.sheet_setSheet_other own]

/-! ## Zones, offers and purges -/

theorem modZone_legsStay (z : ZoneIndex) (f : Zone → Zone) (g : Gate) : LegsStay g (modZone z f g) :=
  legsStay_of_same

theorem onZones_legsStay (u : ZoneIndex → Zone → Zone) (g : Gate) : LegsStay g (onZones u g) :=
  legsStay_of_same

theorem offerFresh_legsStay (entry : FreshEntry) (z : ZoneIndex) (g : Gate) : LegsStay g (offerFresh entry z g) := by
  rw [offerFresh_eq]
  exact modZone_legsStay ..

theorem purgeFreshAll_legsStay (p : FreshEntry → Bool) (g : Gate) : LegsStay g (purgeFreshAll p g) :=
  LegsStay.foldl (f := purgeFresh p) (fun _ _ => legsStay_of_same) allZones g

theorem purgeSweepAll_legsStay (p : Notice → Bool) (g : Gate) : LegsStay g (purgeSweepAll p g) :=
  LegsStay.foldl (f := purgeSweep p) (fun _ _ => legsStay_of_same) allZones g

theorem openOffer_legsStay (e : EventIndex) (slot : SheetSlot) (g : Gate) : LegsStay g (openOffer e slot g) := by
  cases held : g.sheet e slot with
  | none =>
    rw [openOffer_none held]
    exact .refl g
  | some sheet =>
    rw [openOffer_eq held]
    refine (onZones_legsStay _ g).trans (setSheet_legsStay (sheet := sheet) ?_ rfl)
    rwa [onZones_sheet]

theorem setOpenLead_legsStay (e : EventIndex) (g : Gate) : LegsStay g (setOpenLead e g) := by
  unfold setOpenLead
  split
  · exact .refl g
  · dsimp only
    split
    · refine LegsStay.trans ?_ (openOffer_legsStay ..)
      exact modEvent_legsStay_of_frame e g (fun _ => rfl) (fun _ => rfl) (fun _ => rfl)
    · exact modEvent_legsStay_of_frame e g (fun _ => rfl) (fun _ => rfl) (fun _ => rfl)

theorem setOpenRepeat_legsStay (e : EventIndex) (g : Gate) : LegsStay g (setOpenRepeat e g) :=
  modEvent_legsStay_of_frame e g (fun _ => rfl) (fun _ => rfl) (fun _ => rfl)

theorem reofferPending_legsStay (e : EventIndex) (g : Gate) : LegsStay g (reofferPending e g) := by
  unfold reofferPending
  split
  · split
    · exact openOffer_legsStay ..
    · exact .refl g
  · exact .refl g

/-! ## Record changes -/

theorem shiftLive_legsStay (e : EventIndex) (z : ZoneIndex) (up : Bool) (g : Gate) : LegsStay g (shiftLive e z up g) := by
  unfold shiftLive
  split
  · exact modEvent_legsStay_of_frame e g (fun _ => rfl) (fun _ => rfl) (fun _ => rfl)
  · refine LegsStay.trans (h := { g with freeDraws := g.freeDraws + 1 }) legsStay_of_same ?_
    exact modEvent_legsStay_of_frame e _ (fun _ => rfl) (fun _ => rfl) (fun _ => rfl)

theorem shiftShadow_legsStay (z : ZoneIndex) (up : Bool) (g : Gate) : LegsStay g (shiftShadow z up g) := by
  unfold shiftShadow
  split <;> exact legsStay_of_same

theorem moveCount_legsStay (e : EventIndex) (b : Nat) (z : ZoneIndex) (up : Bool) (g : Gate) :
    LegsStay g (moveCount e b z up g) := by
  unfold moveCount
  dsimp only
  split
  · exact (shiftLive_legsStay ..).trans (shiftShadow_legsStay ..)
  · exact shiftLive_legsStay ..

theorem mapLegs_legsStay {f : Leg → Leg} (goes : ∀ leg : Leg, leg.GoesOn (f leg)) (g : Gate) :
    LegsStay g (mapLegs f g) :=
  legsStay_of_roster (fun _ ok => ok.mapLegs goes)

theorem takeOutOfEvent_legsStay (d : Decoder) (e : EventIndex) (z : ZoneIndex) (g : Gate) :
    LegsStay g (takeOutOfEvent d e z g) := by
  refine legsStay_of_roster (fun fit ok => ?_)
  have current := ok.mapLeg (f := fun leg => { leg with cells := leg.cells.set z (takeOut d leg.cells[z]) }) e .current
    (fun _ => ⟨rfl, rfl, id⟩)
  have pending := current.mapLeg (f := fun leg => { leg with cells := leg.cells.set z (takeOut d leg.cells[z]) }) e .pending
    (fun _ => ⟨rfl, rfl, id⟩)
  rwa [setLeg_leg_other (.inr (by decide))] at pending

theorem discardCells_legsStay (e : EventIndex) (z : ZoneIndex) (g : Gate) : LegsStay g (discardCells e z g) := by
  refine legsStay_of_roster (fun fit ok => ?_)
  have current := ok.mapLeg (f := fun leg => { leg with cells := leg.cells.set z [] }) e .current
    (fun _ => ⟨rfl, rfl, id⟩)
  have pending := current.mapLeg (f := fun leg => { leg with cells := leg.cells.set z [] }) e .pending
    (fun _ => ⟨rfl, rfl, id⟩)
  rwa [setLeg_leg_other (.inr (by decide))] at pending

theorem purgeLost_legsStay (before after : Option Holder) (e : EventIndex) (g : Gate) :
    LegsStay g (purgeLost before after e g) := by
  unfold purgeLost
  split
  · exact .refl g
  · split
    · exact LegsStay.trans (legsStay_of_same (g := g)) (takeOutOfEvent_legsStay ..)
    · exact .refl g

theorem freshForSheet_legsStay (h : Holder) (e : EventIndex) (slot : SheetSlot) (g : Gate) :
    LegsStay g (freshForSheet h e slot g) := by
  unfold freshForSheet
  split
  · exact .refl g
  · split
    · split
      · exact .refl g
      · exact offerFresh_legsStay ..
    · exact offerFresh_legsStay ..

theorem handFresh_legsStay (before after : Option Holder) (e : EventIndex) (g : Gate) :
    LegsStay g (handFresh before after e g) := by
  unfold handFresh freshRule
  split
  · exact .refl g
  · split
    · split
      · exact (freshForSheet_legsStay ..).trans (freshForSheet_legsStay ..)
      · exact .refl g
    · exact .refl g

theorem changeRecord_legsStay (key : Nat) (before after : Option Holder) (g : Gate) :
    LegsStay g (changeRecord key before after g) := by
  have counted := LegsStay.foldl (f := fun e acc => moveCounts (bucketOfKey key) before after e acc)
    (fun e acc => moveCounts_keeps (P := LegsStay acc) (fun _ _ _ stays => stays.trans (moveCount_legsStay ..)) (.refl acc))
    allEvents g
  have purged (h : Gate) := LegsStay.foldl (f := fun e acc => purgeLost before after e acc)
    (purgeLost_legsStay before after) allEvents h
  have handed (h : Gate) := LegsStay.foldl (f := fun e acc => handFresh before after e acc)
    (handFresh_legsStay before after) allEvents h
  exact ((counted.trans (purged _)).trans (handed _)).trans legsStay_of_same

theorem purgeDecoder_legsStay (d : Decoder) (g : Gate) : LegsStay g (purgeDecoder d g) := by
  unfold purgeDecoder takeOutEverywhere
  refine (purgeFreshAll_legsStay _ g).trans (mapLegs_legsStay (fun _ => ?_) _)
  exact ⟨rfl, rfl, id⟩

theorem legs_keptByRecords (start : Gate) : KeptByRecords (LegsStay start) where
  emits emits held := held.trans emits.legsStay
  change _ _ _ held := held.trans (changeRecord_legsStay ..)
  purge _ held := held.trans (purgeDecoder_legsStay ..)
  shadow _ _ held := held.trans (shiftShadow_legsStay ..)
  count _ _ held := held.trans (bumpEvent_legsStay ..)
  clear e held := held.trans (modEvent_legsStay_of_frame e _ (fun _ => rfl) (fun _ => rfl) (fun _ => rfl))

end Sys2Proof.Machine

/-! PROOF. The legs' invariant is kept by every command: sheets leave their slots with their legs, and an event leaves the
LISTED phases with its sweep. -/

namespace Sys2Proof.Machine

open Sys2Proof.Safety Sys2Proof.Claims

set_option Elab.async false

/-! ## Sheets -/

theorem discardSheet_roster {fit : Fit} {g : Gate} (e : EventIndex) (slot : SheetSlot) (ok : RosterOk fit g) :
    RosterOk fit (discardSheet e slot g) := by
  unfold discardSheet
  split
  · exact ok
  · refine (purgeSweepAll_legsStay ..).roster fit ((purgeFreshAll_legsStay ..).roster fit ?_)
    exact dropLeg_roster e slot (ok.congr fun _ _ => rfl)

theorem discardSheet_event (e i : EventIndex) (slot : SheetSlot) (g : Gate) :
    (discardSheet e slot g).event i = if i = e ∧ (g.sheet e slot).isSome then (g.event e).without slot else g.event i := by
  cases held : g.sheet e slot with
  | none =>
    rw [discardSheet_none held]
    simp
  | some sheet =>
    rw [discardSheet_eq held, onZones_event, dropLeg_event, modEvent_event]
    simp

theorem without_phase (slot : SheetSlot) (ev : Event) : (ev.without slot).phase = ev.phase := by
  cases slot <;> rfl

theorem without_sheet_other {slot other : SheetSlot} (apart : other ≠ slot) (ev : Event) :
    (ev.without slot).sheet other = ev.sheet other := by
  cases slot <;> cases other <;> first | rfl | exact absurd rfl apart

/-- R68: the leg of a discarded sheet is dropped; a leg with no sheet there is none. -/
theorem discardSheet_leg {e : EventIndex} {slot : SheetSlot} {g : Gate} (ok : LegsOk g) :
    (discardSheet e slot g).leg e slot = none := by
  cases held : g.sheet e slot with
  | none =>
    rw [discardSheet_none held]
    cases there : g.leg e slot with
    | none => rfl
    | some leg =>
      obtain ⟨-, sheet, kept, -⟩ := ok.sheet e slot leg there
      rw [held] at kept
      cases kept
  | some sheet => rw [discardSheet_eq held, onZones_leg, dropLeg_leg, if_pos ⟨rfl, rfl⟩]

theorem discardSheet_phase (e i : EventIndex) (slot : SheetSlot) (g : Gate) :
    ((discardSheet e slot g).event i).phase = (g.event i).phase := by
  rw [discardSheet_event]
  split
  · next own => rw [without_phase, own.1]
  · rfl

theorem discardSheet_sheet_other {e f : EventIndex} {slot other : SheetSlot} (apart : f ≠ e ∨ other ≠ slot) (g : Gate) :
    (discardSheet e slot g).sheet f other = g.sheet f other := by
  unfold Gate.sheet
  rw [discardSheet_event]
  split
  · next own =>
    rw [without_sheet_other (apart.resolve_left (fun other => other own.1)), own.1]
  · rfl

theorem discardSheet_legsOk {e : EventIndex} {slot : SheetSlot} {g : Gate} (ok : LegsOk g) :
    LegsOk (discardSheet e slot g) := by
  refine legsOk_of_roster (discardSheet_roster e slot (legsOk_iff.mp ok)) (fun f other leg held fits => ?_)
  have apart : f ≠ e ∨ other ≠ slot := by
    by_contra same
    rw [not_or, not_not, not_not] at same
    rw [same.1, same.2, discardSheet_leg ok] at held
    cases held
  exact ⟨by rw [discardSheet_phase]; exact fits.1, by rw [discardSheet_sheet_other apart]; exact fits.2⟩

/-- R64–R66: a sheet placed in a slot that its discard has left without a leg. -/
theorem placeSheet_legsOk {e : EventIndex} {slot : SheetSlot} {sheet : Sheet} {g : Gate} (ok : LegsOk g) :
    LegsOk (placeSheet e slot sheet g) := by
  have discarded := discardSheet_legsOk (e := e) (slot := slot) ok
  have roster : RosterOk (discardSheet e slot g).legFits (placeSheet e slot sheet g) :=
    (legsOk_iff.mp discarded).congr (fun _ _ => rfl)
  refine legsOk_of_roster roster (fun f other leg held fits => ?_)
  have apart : f ≠ e ∨ other ≠ slot := by
    by_contra same
    rw [not_or, not_not, not_not] at same
    have none_ : (placeSheet e slot sheet g).leg e slot = none := discardSheet_leg ok
    rw [same.1, same.2, none_] at held
    cases held
  unfold placeSheet Gate.legFits Gate.sheet
  rw [modEvent_event]
  split
  · next own =>
    have other_ := apart.resolve_left (fun other => other own)
    rw [own] at fits
    refine ⟨?_, ?_⟩
    · have phase : (Event.setSheet slot (some sheet) ((discardSheet e slot g).event e)).phase
          = ((discardSheet e slot g).event e).phase := by cases slot <;> rfl
      rw [phase]
      exact fits.1
    · rw [Event.sheet_setSheet_other other_]
      exact fits.2
  · exact fits

theorem enterLeg_fits {e i : EventIndex} {slot other : SheetSlot} {number : SheetNumber} (leg : Leg) {g : Gate}
    (fits : g.legFits i other number) : (enterLeg e slot leg g).legFits i other number :=
  (bumpEvent_legsStay e .legsJoined (setLeg e slot (some leg) (mapLegs Leg.suspend g))).fits i other number
    (legFits_of_events (g := g) ▸ fits)

theorem makeLate_fits {e i : EventIndex} {slot other : SheetSlot} {number : SheetNumber} (leg : Leg) {g : Gate}
    (fits : g.legFits i other number) : (makeLate e slot leg g).legFits i other number := by
  unfold makeLate
  split
  · rw [postLegLate, legFits_of_events (post_events ..)]
    exact (bumpEvent_legsStay e .lateLegs _).fits i other number (legFits_of_events (g := g) ▸ fits)
  · exact legFits_of_events (g := g) ▸ fits

theorem joinLeg_fits {e i : EventIndex} {slot other : SheetSlot} {number : SheetNumber} {g : Gate}
    (fits : g.legFits i other number) : (joinLeg e slot g).legFits i other number := by
  unfold joinLeg
  split
  · unfold lateAtJoin
    dsimp only
    split
    · split
      · exact makeLate_fits _ (enterLeg_fits _ fits)
      · exact enterLeg_fits _ fits
    · exact enterLeg_fits _ fits
  · exact fits

theorem joinLeg_legsOk {e : EventIndex} {slot : SheetSlot} {g : Gate} (listed : (g.event e).phase.mode = .listedGrant)
    (ok : LegsOk g) : LegsOk (joinLeg e slot g) :=
  legsOk_of_roster (joinLeg_roster (legsOk_iff.mp ok) (fun sheet held => ⟨listed, by rw [held, Option.map_some]⟩))
    (fun _ _ _ _ => joinLeg_fits)

theorem rejoinPending_legsOk {e : EventIndex} {g : Gate} (listed : (g.event e).phase.mode = .listedGrant)
    (ok : LegsOk g) : LegsOk (rejoinPending e g) := by
  refine legsOk_of_roster (rejoinPending_roster (legsOk_iff.mp ok) (fun sheet held => ⟨listed, by rw [held, Option.map_some]⟩))
    (fun i other leg _ fits => ?_)
  unfold rejoinPending
  split
  · exact enterLeg_fits _ fits
  · exact fits

theorem makeLate_legsOk {e : EventIndex} {slot : SheetSlot} {leg : Leg} {g : Gate} (was : g.leg e slot = some leg)
    (ok : LegsOk g) : LegsOk (makeLate e slot leg g) :=
  legsOk_of_roster (makeLate_roster (legsOk_iff.mp ok) was) (fun _ _ _ _ => makeLate_fits leg)

/-! ## Phase changes -/

theorem joinLeg_phase (e i : EventIndex) (slot : SheetSlot) (g : Gate) :
    ((joinLeg e slot g).event i).phase = (g.event i).phase := by
  change ((joinLeg e slot g).event i).withoutDelivery.phase = (g.event i).withoutDelivery.phase
  rw [joinLeg_withoutDelivery]

theorem judgePending_legsStay (e : EventIndex) (g : Gate) : LegsStay g (judgePending e g) := by
  unfold judgePending
  split
  · exact .refl g
  · next sheet held =>
    split
    · exact (bumpEvent_legsStay ..).trans legsStay_of_same
    · split
      · have held : (g.event e).pendingSheet = some sheet := held
        refine modEvent_legsStay e g rfl (fun slot => ?_)
        cases slot
        · rfl
        · exact (congrArg (Option.map Sheet.number) held).symm
      · exact .refl g

theorem classPendingOpen_legsStay (e : EventIndex) (g : Gate) : LegsStay g (classPendingOpen e g) := by
  unfold classPendingOpen
  split
  · exact .refl g
  · next sheet held => exact setSheet_legsStay held rfl

theorem enterOpen_legsStay (e : EventIndex) (g : Gate) : LegsStay g (enterOpen e g) :=
  (((openOffer_legsStay ..).trans (classPendingOpen_legsStay ..)).trans (setOpenLead_legsStay ..)).trans
    (setOpenRepeat_legsStay ..)

theorem enterListed_legsOk {e : EventIndex} {g : Gate} (listed : (g.event e).phase.mode = .listedGrant) (ok : LegsOk g) :
    LegsOk (enterListed e g) := by
  have current : LegsOk (joinLeg e .current g) := joinLeg_legsOk listed ok
  have pending : LegsOk (joinLeg e .pending (joinLeg e .current g)) :=
    joinLeg_legsOk (by rwa [joinLeg_phase]) current
  exact (judgePending_legsStay ..).legsOk pending

theorem enterNone_roster {fit : Fit} {e : EventIndex} {g : Gate} (ok : RosterOk fit g) :
    RosterOk fit (enterNone e g) :=
  (purgeSweepAll_legsStay ..).roster fit ((purgeFreshAll_legsStay ..).roster fit (removeSweep_roster e ok))

theorem purgeFreshAll_leg (p : FreshEntry → Bool) (i : EventIndex) (slot : SheetSlot) (g : Gate) :
    (purgeFreshAll p g).leg i slot = g.leg i slot := by
  simp [purgeFreshAll, allZones, purgeFresh]

theorem purgeSweepAll_leg (p : Notice → Bool) (i : EventIndex) (slot : SheetSlot) (g : Gate) :
    (purgeSweepAll p g).leg i slot = g.leg i slot := by
  simp [purgeSweepAll, allZones, purgeSweep]

theorem enterNone_leg (e : EventIndex) (slot : SheetSlot) (g : Gate) : (enterNone e g).leg e slot = none := by
  unfold enterNone
  rw [purgeSweepAll_leg, purgeFreshAll_leg, removeSweep_leg]

/-- R39, R74: an event record with the stamps of a change into a phase. -/
def Event.stamped (p : Phase) (now : Time) (ev : Event) : Event :=
  Event.startStarvation now (Event.stamp p now ev.leavePreview)

theorem stamped_phase (p : Phase) (now : Time) (ev : Event) : (ev.stamped p now).phase = p := by
  unfold Event.stamped Event.startStarvation
  split <;> rfl

theorem stamped_sheet (p : Phase) (now : Time) (ev : Event) (slot : SheetSlot) :
    (ev.stamped p now).sheet slot = ev.sheet slot := by
  unfold Event.stamped Event.startStarvation Event.leavePreview
  split <;> split <;> cases slot <;> rfl

theorem renewDeadline_legsStay (e : EventIndex) (left : Phase) (now : Time) (g : Gate) :
    LegsStay g (modEvent e (Event.renewDeadline left now) g) := by
  have frame (ev : Event) : Event.renewDeadline left now ev
      = { ev with deadline := (Event.renewDeadline left now ev).deadline } := by
    unfold Event.renewDeadline
    split <;> rfl
  exact modEvent_legsStay_of_frame e g (fun ev => by rw [frame]) (fun ev => by rw [frame]) (fun ev => by rw [frame])

/-- R47: an event that enters a phase that grants nothing loses its sweep. -/
theorem enterNone_legsOk {e : EventIndex} {f : Event → Event} {g : Gate} (ok : LegsOk g) :
    LegsOk (enterNone e (modEvent e f g)) := by
  have roster : RosterOk g.legFits (enterNone e (modEvent e f g)) :=
    enterNone_roster ((legsOk_iff.mp ok).congr fun _ _ => modEvent_leg ..)
  refine legsOk_of_roster roster (fun i slot leg held fits => ?_)
  have apart : i ≠ e := by
    rintro rfl
    rw [enterNone_leg] at held
    cases held
  unfold Gate.legFits Gate.sheet
  rw [enterNone_event, modEvent_event, if_neg apart]
  exact fits

/-- A change of the record of an event that has no leg. -/
theorem modEvent_legsOk {e : EventIndex} {f : Event → Event} {g : Gate} (ok : LegsOk g)
    (none_ : ∀ slot, g.leg e slot = none) : LegsOk (modEvent e f g) := by
  refine legsOk_of_roster ((legsOk_iff.mp ok).congr fun _ _ => modEvent_leg ..) (fun i slot leg held fits => ?_)
  have apart : i ≠ e := by
    rintro rfl
    rw [modEvent_leg, none_] at held
    cases held
  unfold Gate.legFits Gate.sheet
  rw [modEvent_event, if_neg apart]
  exact fits

/-- R40: no change from a LISTED phase into PREVIEW is among those of Table 31. -/
theorem changePhase_legsOk {e : EventIndex} {p : Phase} {g : Gate}
    (allowed : (g.event e).phase.mode = .listedGrant → p.mode ≠ .openGrant) (ok : LegsOk g) :
    LegsOk (changePhase e p g) := by
  have acted : LegsOk (entryActions e (g.event e).phase.mode p.mode
      (modEvent e (Event.stamped p g.clock.siteTime) g)) := by
    have phase : ((modEvent e (Event.stamped p g.clock.siteTime) g).event e).phase = p := by
      rw [modEvent_event, if_pos rfl, stamped_phase]
    by_cases left : (g.event e).phase.mode = .listedGrant
    · have goesOn (entered : p.mode = .listedGrant) : LegsOk (modEvent e (Event.stamped p g.clock.siteTime) g) :=
        (modEvent_legsStay e g (by rw [stamped_phase, entered, left]) (fun slot => by rw [stamped_sheet])).legsOk ok
      cases entered : p.mode with
      | noGrant =>
        rw [left]
        exact enterNone_legsOk ok
      | openGrant => exact absurd entered (allowed left)
      | listedGrant =>
        rw [left]
        exact goesOn entered
    · have stamped : LegsOk (modEvent e (Event.stamped p g.clock.siteTime) g) :=
        modEvent_legsOk ok (leg_eq_none_of_mode ok left)
      cases entered : p.mode with
      | noGrant =>
        cases mode : (g.event e).phase.mode with
        | noGrant => exact stamped
        | openGrant => exact enterNone_legsOk ok
        | listedGrant => exact absurd mode left
      | openGrant =>
        cases mode : (g.event e).phase.mode with
        | noGrant => exact (enterOpen_legsStay ..).legsOk stamped
        | openGrant => exact stamped
        | listedGrant => exact absurd mode left
      | listedGrant =>
        have listed : ((modEvent e (Event.stamped p g.clock.siteTime) g).event e).phase.mode = .listedGrant := by
          rw [phase, entered]
        cases mode : (g.event e).phase.mode with
        | noGrant => exact enterListed_legsOk listed stamped
        | openGrant => exact enterListed_legsOk listed stamped
        | listedGrant => exact absurd mode left
  exact (post_books ..).legsStay.legsOk ((renewDeadline_legsStay ..).legsOk acted)

theorem dropStart_legsStay (task : PhaseTask) (e : EventIndex) (g : Gate) : LegsStay g (dropStart task e g) := by
  unfold dropStart
  split
  · exact modEvent_legsStay_of_frame e g (fun _ => rfl) (fun _ => rfl) (fun _ => rfl)
  · exact .refl g

/-- R38: PREVIEW is entered from ON_SALE alone. -/
theorem applyTask_legsOk {e : EventIndex} {task : PhaseTask} {minutes : Nat} {g h : Gate}
    (applied : applyTask e task minutes g = some h) (ok : LegsOk g) : LegsOk h := by
  have dropped := (dropStart_legsStay task e g).legsOk ok
  have phase := (dropStart_phasesStay task e g).phase e
  obtain ⟨allowed, ⟨-, rfl⟩ | ⟨-, -, -, rfl⟩ | ⟨other, direct, rfl⟩⟩ := applyTask_cases applied
  · refine LegsStay.legsOk ?_ ok
    exact modEvent_legsStay_of_frame e g (fun _ => rfl) (fun _ => rfl) (fun _ => rfl)
  · refine (post_books ..).legsStay.legsOk (LegsStay.legsOk ?_ dropped)
    exact modEvent_legsStay_of_frame e _ (fun _ => rfl) (fun _ => rfl) (fun _ => rfl)
  · rw [judgedPhase_eq_phase direct] at allowed
    refine changePhase_legsOk (fun listed opens => ?_) dropped
    rw [phase] at listed
    cases task with
    | goPreview =>
      rw [of_decide_eq_true allowed] at listed
      cases listed
    | extendPreview => exact other rfl
    | goLive => cases opens
    | goExtra => cases opens
    | goWindDown => cases opens
    | goClosed => cases opens
    | backToSale => cases opens

/-! ## Site Clock, cues and deadlines -/

theorem takeTime_legsStay (cell : List Byte) (g : Gate) : LegsStay g (takeTime cell g) := by
  have counted (d : Int) (h : Gate) : LegsStay h (countOffset d h) := by
    unfold countOffset
    dsimp only
    split <;> split <;> [skip; split; skip; split] <;> exact legsStay_of_same
  have faulted (was : Bool) (h : Gate) : LegsStay h (postFault was h) := by
    unfold postFault
    split
    · exact .refl h
    · split <;> exact legsStay_of_same
  unfold takeTime
  dsimp only
  split
  · refine LegsStay.trans ?_ (faulted _ _)
    exact LegsStay.trans legsStay_of_same (counted _ _)
  · exact legsStay_of_same

theorem timeCell_legsStay (g : Gate) : LegsStay g (timeCell g) := by
  unfold timeCell
  split
  · exact LegsStay.trans (h := clearHandoff g) legsStay_of_same (takeTime_legsStay ..)
  · exact .refl g

theorem closeWindow_legsStay (z : ZoneIndex) (g : Gate) : LegsStay g (closeWindow z g) := by
  have risk (flag : Bool) (event : Byte) (n s : Nat) (h : Gate) : LegsStay h (setRisk z flag event n s h) := by
    unfold setRisk
    split
    · exact .refl h
    · exact legsStay_of_same
  have projected (h : Gate) : LegsStay h (project z h) := by
    unfold project
    dsimp only
    split <;> exact risk ..
  unfold closeWindow
  dsimp only
  split
  · exact (modZone_legsStay ..).trans (projected _)
  · exact modZone_legsStay ..

theorem windowClose_legsStay (g : Gate) : LegsStay g (windowClose g) := by
  unfold windowClose
  split
  · exact .refl g
  · refine LegsStay.trans (h := { g with clock := { g.clock with closesDue := g.clock.closesDue - 1 } }) legsStay_of_same ?_
    refine LegsStay.foldl (f := fun z acc => if acc.driven z then closeWindow z acc else acc) (fun z acc => ?_) allZones _
    split
    · exact closeWindow_legsStay z acc
    · exact .refl acc

theorem cueCell_legsOk {g : Gate} (ok : LegsOk g) : LegsOk (cueCell g) := by
  have applied (e : EventIndex) (entry : CueEntry) (sequence : Byte) (h : Gate) (held : LegsOk h) :
      LegsOk (applyCue e entry sequence h) := by
    unfold applyCue
    split
    · next applied => exact (bumpEvent_legsStay ..).legsOk (applyTask_legsOk applied held)
    · exact ((bumpEvent_legsStay ..).trans (post_books ..).legsStay).legsOk held
  unfold cueCell
  split
  · have cleared : LegsOk (clearHandoff g) := LegsStay.legsOk (g := g) legsStay_of_same ok
    unfold takeCue takeMapped
    split
    · exact (bump_books ..).legsStay.legsOk cleared
    · split
      · exact (bumpEvent_legsStay ..).legsOk cleared
      · split
        · exact (bumpEvent_legsStay ..).legsOk cleared
        · refine applied _ _ _ _ (LegsStay.legsOk ?_ cleared)
          exact modEvent_legsStay_of_frame _ _ (fun _ => rfl) (fun _ => rfl) (fun _ => rfl)
  · exact ok

theorem phaseDeadlineExpiry_legsOk {e : EventIndex} {g : Gate} (ok : LegsOk g) : LegsOk (phaseDeadlineExpiry e g) := by
  have removed : LegsOk (bumpEvent e .deadlineExpiries (modEvent e (fun ev => { ev with deadline := none }) g)) := by
    refine LegsStay.legsOk (LegsStay.trans ?_ (bumpEvent_legsStay ..)) ok
    exact modEvent_legsStay_of_frame e g (fun _ => rfl) (fun _ => rfl) (fun _ => rfl)
  unfold phaseDeadlineExpiry
  split
  · split
    · unfold expireDeadline
      dsimp only
      split
      · next task _ =>
        cases applied : applyTask e task 0 _ with
        | none => exact removed
        | some after => exact applyTask_legsOk applied removed
      · exact removed
    · exact ok
  · exact ok

theorem steerEvent_legsOk {q : Request} {g : Gate} (ok : LegsOk g) : LegsOk (steerEvent q g).gate := by
  unfold steerEvent
  split
  · exact ok
  · split
    · exact ok
    · dsimp only
      split
      · exact ok
      · split
        · exact ok
        · unfold steerTask
          split
          · exact ok
          · split
            · next applied => exact (bumpEvent_legsStay ..).legsOk (applyTask_legsOk applied ok)
            · exact ok

/-! ## The Key Unit -/

theorem placeSheet_phase (e i : EventIndex) (slot : SheetSlot) (sheet : Sheet) (g : Gate) :
    ((placeSheet e slot sheet g).event i).phase = (g.event i).phase := by
  unfold placeSheet
  rw [modEvent_event]
  split
  · next own =>
    have phase : (Event.setSheet slot (some sheet) ((discardSheet e slot g).event e)).phase
        = ((discardSheet e slot g).event e).phase := by cases slot <;> rfl
    rw [phase, discardSheet_phase, own]
  · exact discardSheet_phase ..

theorem deliver_legsOk {e : EventIndex} {slot : SheetSlot} {cls : SheetClass} {g : Gate}
    (listed : cls = .listedClass → (g.event e).phase.mode = .listedGrant) (ok : LegsOk g) :
    LegsOk (deliver e slot cls g) := by
  cases cls with
  | listedClass => exact joinLeg_legsOk (listed rfl) ok
  | openClass =>
    cases slot with
    | current => exact (openOffer_legsStay ..).legsOk ok
    | pending => exact (setOpenLead_legsStay ..).legsOk ok
  | noClass => exact ok

theorem returnFromStall_legsOk {e : EventIndex} {g : Gate} (ok : LegsOk g) : LegsOk (returnFromStall e g) := by
  unfold returnFromStall
  split
  · next stalled =>
    refine changePhase_legsOk (fun listed => ?_) ok
    rw [stalled] at listed
    cases listed
  · exact ok

theorem listed_of_sheetClass {p : Phase} (listed : p.mode.sheetClass = .listedClass) : p.mode = .listedGrant := by
  cases p <;> simp [Phase.mode, GrantMode.sheetClass] at listed ⊢

theorem resetStarvation_legsStay (e : EventIndex) (effective : Time) (g : Gate) :
    LegsStay g (modEvent e (Event.resetStarvation effective) g) :=
  modEvent_legsStay_of_frame e g (fun _ => rfl) (fun _ => rfl) (fun _ => rfl)

theorem acceptSheet_legsOk {e : EventIndex} {number : SheetNumber} {effective : Time} {blob : List Byte} {g : Gate}
    (ok : LegsOk g) : LegsOk (acceptSheet e number effective blob g) := by
  have counted : LegsOk (countPlacement e (g.placeFor e effective) (bumpEvent e .sheetsAccepted g)) := by
    refine LegsStay.legsOk (LegsStay.trans (bumpEvent_legsStay e .sheetsAccepted g) ?_) ok
    unfold countPlacement
    split
    · exact bumpEvent_legsStay ..
    · split
      · exact bumpEvent_legsStay ..
      · exact .refl _
  have phase : ((countPlacement e (g.placeFor e effective) (bumpEvent e .sheetsAccepted g)).event e).phase
      = (g.event e).phase := by
    have bumped (k : EventCounter) (h : Gate) : ((bumpEvent e k h).event e).phase = (h.event e).phase :=
      (bumpEvent_phasesStay e k h).phase e
    unfold countPlacement
    split
    · rw [bumped, bumped]
    · split
      · rw [bumped, bumped]
      · rw [bumped]
  unfold acceptSheet
  refine returnFromStall_legsOk (deliver_legsOk (fun listed => ?_)
    ((resetStarvation_legsStay ..).legsOk (placeSheet_legsOk counted)))
  rw [modEvent_event, if_pos rfl]
  change ((placeSheet e _ _ _).event e).phase.mode = .listedGrant
  rw [placeSheet_phase, phase]
  exact listed_of_sheetClass listed

theorem keyCell_legsOk {g : Gate} (ok : LegsOk g) : LegsOk (keyCell g) := by
  unfold keyCell
  split
  · have cleared : LegsOk (clearHandoff g) := LegsStay.legsOk (g := g) legsStay_of_same ok
    unfold takeKey judgeSheet
    split
    · exact cleared
    · split
      · exact (bumpEvent_legsStay ..).legsOk cleared
      · split
        · split
          · exact (bumpEvent_legsStay ..).legsOk cleared
          · split
            · exact (bumpEvent_legsStay ..).legsOk cleared
            · split
              · exact (bumpEvent_legsStay ..).legsOk cleared
              · exact acceptSheet_legsOk cleared
        · split
          · exact (bumpEvent_legsStay ..).legsOk cleared
          · exact acceptSheet_legsOk cleared
  · exact ok

/-- A roster whose legs stand in other places. -/
theorem rosterOk_of_moved {fit fit' : Fit} {g h : Gate} (ok : RosterOk fit g)
    (from_ : ∀ e slot leg, h.leg e slot = some leg →
      ∃ f other, g.leg f other = some leg ∧ (fit f other leg.sheet → fit' e slot leg.sheet)) : RosterOk fit' h where
  fits e slot leg held := by
    obtain ⟨f, other, was, fits⟩ := from_ e slot leg held
    exact fits (ok.fits f other leg was)
  lap e slot leg held := by
    obtain ⟨f, other, was, -⟩ := from_ e slot leg held
    exact ok.lap f other leg was
  first e slot leg f other walking held heldWalking := by
    obtain ⟨e', slot', was, -⟩ := from_ e slot leg held
    obtain ⟨f', other', wasWalking, -⟩ := from_ f other walking heldWalking
    exact ok.first e' slot' leg f' other' walking was wasWalking

/-- R131: the pending sheet's leg becomes the current sheet's with its sheet. -/
theorem movePending_legsOk {e : EventIndex} {g : Gate} (ok : LegsOk g) : LegsOk (movePending e g) := by
  refine legsOk_iff.mpr (rosterOk_of_moved (legsOk_iff.mp ok) (fun f slot leg held => ?_))
  have event (i : EventIndex) : (movePending e g).event i
      = if i = e then { g.event e with current := (g.event e).pendingSheet, pendingSheet := none, openLead := none }
        else g.event i := by
    unfold movePending
    rw [setLeg_event, setLeg_event, modEvent_event]
  unfold movePending at held
  rw [RosterOk.setLeg_leg, RosterOk.setLeg_leg] at held
  split at held
  · cases held
  · next notPending =>
    split at held
    · next place =>
      refine ⟨e, .pending, held, fun fits => ?_⟩
      unfold Gate.legFits Gate.sheet
      rw [event, if_pos place.1, place.2]
      exact fits
    · next notCurrent =>
      refine ⟨f, slot, held, fun fits => ?_⟩
      have apart : f ≠ e := by
        intro own
        cases slot
        · exact notCurrent ⟨own, rfl⟩
        · exact notPending ⟨own, rfl⟩
      unfold Gate.legFits Gate.sheet
      rw [event, if_neg apart]
      exact fits

theorem promotion_legsOk {e : EventIndex} {g : Gate} (ok : LegsOk g) : LegsOk (promotion e g) := by
  unfold promotion
  split
  · have moved := (bumpEvent_legsStay e .promotions _).legsOk
      (movePending_legsOk (e := e) (discardSheet_legsOk (e := e) (slot := .current) ok))
    unfold promote offerPromoted
    split
    · split
      · exact (openOffer_legsStay ..).legsOk moved
      · exact moved
    · exact moved
  · exact ok

theorem openLeadInstant_legsStay (e : EventIndex) (g : Gate) : LegsStay g (openLeadInstant e g) := by
  unfold openLeadInstant
  split
  · refine LegsStay.trans ?_ (openOffer_legsStay ..)
    exact modEvent_legsStay_of_frame e g (fun _ => rfl) (fun _ => rfl) (fun _ => rfl)
  · exact .refl g

theorem openRepeat_legsStay (e : EventIndex) (g : Gate) : LegsStay g (openRepeat e g) := by
  unfold openRepeat
  split
  · exact ((openOffer_legsStay ..).trans (reofferPending_legsStay ..)).trans (setOpenRepeat_legsStay ..)
  · exact .refl g

theorem starvationInstant_legsOk {e : EventIndex} {g : Gate} (ok : LegsOk g) : LegsOk (starvationInstant e g) := by
  have warned (h : Gate) : LegsStay h (warnStarvation e h) := by
    unfold warnStarvation
    dsimp only
    split
    · exact (post_books ..).legsStay
    · exact .refl h
  have stalled (h : Gate) (held : LegsOk h) : LegsOk (stallStarved e h) := by
    unfold stallStarved
    split
    · exact changePhase_legsOk (fun _ => by decide) held
    · exact held
  have advanced : LegsStay g (modEvent e Event.nextEpoch g) :=
    modEvent_legsStay_of_frame e g (fun _ => rfl) (fun _ => rfl) (fun _ => rfl)
  unfold starvationInstant starve
  split
  · dsimp only
    split
    · refine stalled _ ((warned _).legsOk (LegsStay.legsOk (advanced.trans ?_) ok))
      exact modEvent_legsStay_of_frame e _ (fun _ => rfl) (fun _ => rfl) (fun _ => rfl)
    · exact advanced.legsOk ok
  · exact ok

theorem legLate_legsOk {e : EventIndex} {slot : SheetSlot} {g : Gate} (ok : LegsOk g) : LegsOk (legLate e slot g) := by
  unfold legLate
  split
  · exact ok
  · next leg was =>
    split
    · exact ok
    · split
      · exact makeLate_legsOk was ok
      · exact ok

end Sys2Proof.Machine

/-! PROOF. The legs' invariant over commands, walks and restarts; what ties it to the Event Table and the maintenance list is that
an event RETIRING has no leg as it becomes VACANT. -/

namespace Sys2Proof.Machine

open Sys2Proof.Safety Sys2Proof.Claims

set_option Elab.async false

/-! ## The walkers -/

theorem visitBucket_legsStay (g : Gate) : LegsStay g (visitBucket g) := by
  have still {h k : Gate} (before : LegsStay g h) (roster : ∀ fit, RosterOk fit h → RosterOk fit k)
      (event : ∀ e, k.event e = h.event e) : LegsStay g k := by
    refine before.trans ⟨roster, fun e slot number fits => ?_⟩
    unfold Gate.legFits Gate.sheet
    rw [event]
    exact fits
  have ended (r : EventIndex × SheetSlot) (h : Gate) : LegsStay h (endLap r h) := by
    have counted := bumpEvent_legsStay r.1 .lapsCompleted h
    refine ⟨fun fit => endLap_roster r, fun e slot number fits => ?_⟩
    have after := counted.fits e slot number fits
    unfold endLap
    split
    · exact fits
    · split
      · dsimp only
        split
        · exact legFits_of_events (g := bumpEvent r.1 .lapsCompleted h) ▸ after
        · split
          · exact legFits_of_events (g := bumpEvent r.1 .lapsCompleted h) ▸ after
          · exact legFits_of_events (g := bumpEvent r.1 .lapsCompleted h) ▸ after
      · exact fits
  exact visitBucket_keeps (P := LegsStay g)
    (fun r h before => still before (fun fit => flushOwed_roster r) (flushOwed_event r h))
    (fun r holder h before => still before (fun fit => placeFor_roster holder r) (placeFor_event holder r h))
    (fun h before => before.trans (mapLegs_legsStay Leg.step_goesOn h))
    (fun r h before => still before (fun fit => flushLapEnd_roster r) (flushLapEnd_event r h))
    (fun h before => before.trans legsStay_of_same) (fun r h before => before.trans (ended r h)) (.refl g)

theorem granted_walker_legsStay (user : TableUser) (parked : Bool) (g : Gate) :
    LegsStay g (granted user { g with walker := { g.walker with parked := parked } }) :=
  legsStay_of_same

theorem sweepVisit_legsStay (g : Gate) : LegsStay g (sweepVisit g) := by
  rcases sweepVisit_cases g with held | parked | ⟨-, visited⟩
  · rw [held]
    exact .refl g
  · rw [parked]
    exact legsStay_of_same
  · rw [visited]
    exact (visitBucket_legsStay g).trans (granted_walker_legsStay ..)

theorem setTasks_legsStay (tasks : List Task) (g : Gate) : LegsStay g (setTasks tasks g) := by
  rw [setTasks_eq_upkeep]
  exact legsStay_of_same

theorem queueRecount_legsStay (e : EventIndex) (g : Gate) : LegsStay g (queueRecount e g) := by
  unfold queueRecount
  split
  · exact legsStay_of_same
  · split
    · exact .refl g
    · exact setTasks_legsStay ..

theorem ageInstant_legsStay (g : Gate) : LegsStay g (ageInstant g) := by
  have queued : LegsStay g (queueAgeScan g) := by
    unfold queueAgeScan
    split
    · exact .refl g
    · exact setTasks_legsStay ..
  unfold ageInstant
  split
  · exact queued.trans legsStay_of_same
  · exact .refl g

theorem visitedRecords_legsStay (task : Task) (g : Gate) : LegsStay g (visitedRecords task g) := by
  have applied := LegsStay.foldl (f := fun (entry : Nat × Holder) acc => task.applyTo entry.1 entry.2 acc)
    (fun entry acc => (legs_keptByRecords acc).applyTo task entry.1 entry.2 (.refl acc))
    (bucketRecords (Fin.ofNat 8192 g.upkeep.cursor.val) g) g
  exact applied.trans legsStay_of_same

theorem withCursor_legsStay (cursor : Fin 8193) (g : Gate) :
    LegsStay g { g with upkeep := { g.upkeep with cursor := cursor } } :=
  legsStay_of_same

theorem visitedBucket_legsStay (task : Task) (g : Gate) : LegsStay g (visitedBucket task g) :=
  (visitedRecords_legsStay task g).trans (withCursor_legsStay ..)

/-- R56: an event that is RETIRING has no leg, and becomes VACANT with none. -/
theorem becomeVacant_legsOk {e : EventIndex} {g : Gate} (retiring : (g.event e).phase = .retiring) (ok : LegsOk g) :
    LegsOk (becomeVacant e g) := by
  have none_ := leg_eq_none_of_mode ok (e := e) (by rw [retiring]; decide)
  have emptied : LegsOk (g.setEvent e Event.vacant) := modEvent_legsOk (f := fun _ => Event.vacant) ok none_
  exact (post_books ..).legsStay.legsOk (LegsStay.legsOk (g := g.setEvent e Event.vacant) legsStay_of_same emptied)

theorem endWalk_legsStay (task : Task) (rest : List Task) (g : Gate) :
    LegsStay (task.finish g) (endWalk task rest g) := by
  unfold endWalk
  cases rest <;> exact legsStay_of_same

theorem maintenanceVisit_legsOk {g : Gate} (table : TableOk g) (tasks : TasksOk g) (ok : LegsOk g) :
    LegsOk (maintenanceVisit g) := by
  rcases maintenanceVisit_cases g with idle | ⟨task, rest, list, ⟨-, goes⟩ | ⟨-, ends⟩⟩
  · rwa [idle]
  · rw [goes]
    exact (visitedBucket_legsStay task g).legsOk ok
  · rw [ends]
    have visited := (visitedBucket_legsStay task g).legsOk ok
    refine (endWalk_legsStay task rest _).legsOk ?_
    cases task with
    | retire e carried =>
      have retiring : (g.event e).phase = .retiring := by
        rw [tasks.retire e, any_retires_iff, list]
        exact ⟨carried, List.mem_cons_self⟩
      exact becomeVacant_legsOk
        (((visitedBucket_quietButUpkeep (.retire e carried) g).record e).retiring (table.resume e) |>.mpr retiring) visited
    | recount e =>
      refine LegsStay.legsOk ?_ visited
      refine LegsStay.trans ?_ (post_books ..).legsStay
      refine LegsStay.trans ?_ (bump_books ..).legsStay
      exact modEvent_legsStay_of_frame e _ (fun _ => rfl) (fun _ => rfl) (fun _ => rfl)
    | ageScan => exact visited

/-! ## Commands that write events -/

theorem loadEvent_legsOk {q : Request} {g : Gate} (ok : LegsOk g) : LegsOk (loadEvent q g).gate := by
  rcases loadEvent_gate_cases q g with refused | ⟨e, -, -, vacant, -, taken⟩
  · rwa [refused]
  · have wasVacant := vacantIndex_vacant vacant
    have none_ := leg_eq_none_of_mode ok (e := e) (by rw [wasVacant]; decide)
    have written : LegsOk (g.setEvent e ((loadFields q.body).record g.clock.siteTime)) :=
      modEvent_legsOk (f := fun _ => (loadFields q.body).record g.clock.siteTime) ok none_
    rw [taken]
    refine (takeRecord_emits e (loadFields q.body) g).legsStay.legsOk (LegsStay.legsOk ?_ written)
    exact legsStay_of_same

theorem applyGiven_legsStay {α : Type} {write : α → Gate → Gate} (writes : ∀ value g, LegsStay g (write value g))
    (given : Option α) (g : Gate) : LegsStay g (applyGiven given write g) :=
  applyGiven_keeps (P := LegsStay g) (fun value _ => writes value g) (.refl g)

theorem amendMask_legsStay (e : EventIndex) (mask : Byte) (g : Gate) : LegsStay g (amendMask e mask g) := by
  have blacked (old : BitVec 4) (z : ZoneIndex) (h : Gate) : LegsStay h (blackZone e old z h) := by
    unfold blackZone
    split
    · exact LegsStay.trans (legsStay_of_same (h := purgeFresh _ z h)) (discardCells_legsStay ..)
    · exact .refl h
  have masked : LegsStay g (modEvent e (fun ev => { ev with mask := mask.setWidth 4 }) g) :=
    modEvent_legsStay_of_frame e g (fun _ => rfl) (fun _ => rfl) (fun _ => rfl)
  unfold amendMask
  exact masked.trans (LegsStay.foldl (f := blackZone e (g.event e).mask) (blacked _) allZones _)

theorem amendRanges_legsStay (e : EventIndex) (ranges : List Range) (g : Gate) : LegsStay g (amendRanges e ranges g) := by
  unfold amendRanges
  refine LegsStay.trans ?_ (queueRecount_legsStay ..)
  exact modEvent_legsStay_of_frame e g (fun _ => rfl) (fun _ => rfl) (fun _ => rfl)

theorem writeAmend_legsStay (e : EventIndex) (f : AmendFields) (g : Gate) : LegsStay g (writeAmend e f g) := by
  have start (given : Option Time) (h : Gate) : LegsStay h (amendStart e given h) :=
    modEvent_legsStay_of_frame e h (fun _ => rfl) (fun _ => rfl) (fun _ => rfl)
  have cutoff (value : Byte) (h : Gate) : LegsStay h (modEvent e (fun ev => { ev with cutoff := value }) h) :=
    modEvent_legsStay_of_frame e h (fun _ => rfl) (fun _ => rfl) (fun _ => rfl)
  have extra (limit : Byte) (h : Gate) : LegsStay h (amendExtra e limit h) :=
    modEvent_legsStay_of_frame e h (fun _ => by rw [redate_frame]) (fun _ => by rw [redate_frame])
      (fun _ => by rw [redate_frame])
  have grace (value : Byte) (h : Gate) : LegsStay h (amendGrace e value h) :=
    modEvent_legsStay_of_frame e h (fun _ => by rw [redate_frame]) (fun _ => by rw [redate_frame])
      (fun _ => by rw [redate_frame])
  unfold writeAmend
  exact (((((applyGiven_legsStay (amendMask_legsStay e) f.mask g).trans
    (applyGiven_legsStay (amendRanges_legsStay e) f.ranges _)).trans (applyGiven_legsStay start f.start _)).trans
    (applyGiven_legsStay cutoff f.cutoff _)).trans (applyGiven_legsStay extra f.extraLimit _)).trans
    (applyGiven_legsStay grace f.grace _)

theorem amendEvent_legsStay (q : Request) (g : Gate) : LegsStay g (amendEvent q g).gate := by
  rcases amendEvent_gate_cases q g with same | ⟨e, -, -, written⟩
  · rw [same]
    exact .refl g
  · rw [written]
    exact writeAmend_legsStay ..

theorem retireEvent_legsOk {q : Request} {g : Gate} (ok : LegsOk g) : LegsOk (retireEvent q g).gate := by
  rcases retireEvent_gate_cases q g with refused | ⟨e, closed, retired⟩
  · rwa [refused]
  · have queued : LegsOk (queueRetire e g) := by
      rw [queueRetire_eq_upkeep]
      exact LegsStay.legsOk (g := g) legsStay_of_same ok
    rw [retired]
    exact changePhase_legsOk (fun _ => by decide) queued

/-! ## Settings -/

theorem setZone_legsStay (q : Request) (g : Gate) : LegsStay g (setZone q g).gate := by
  rcases setZone_gate_cases q g with refused | ⟨z, share, -, -, dark, written⟩
  · rw [refused]
    exact .refl g
  · rw [written]
    exact modZone_legsStay ..

theorem setProfile_legsStay (q : Request) (g : Gate) : LegsStay g (setProfile q g).gate := by
  rcases setProfile_gate_cases q g with refused | written
  · rw [refused]
    exact .refl g
  · rw [written]
    exact legsStay_of_same

theorem setCueMap_legsStay (q : Request) (g : Gate) : LegsStay g (setCueMap q g).gate := by
  rcases setCueMap_gate_cases q g with refused | ⟨_, _, _, _, _, written⟩
  · rw [refused]
    exact .refl g
  · rw [written]
    exact legsStay_of_same

theorem setTiming_legsStay (q : Request) (g : Gate) : LegsStay g (setTiming q g).gate := by
  have recomputed (e : EventIndex) (h : Gate) : LegsStay h (recomputeLead e h) := by
    unfold recomputeLead
    split
    · exact setOpenLead_legsStay ..
    · exact .refl h
  rcases setTiming_gate_cases q g with refused | ⟨-, written⟩
  · rw [refused]
    exact .refl g
  · rw [written]
    exact LegsStay.trans (h := { g with settings := g.settings.withTiming q.body }) legsStay_of_same
      (LegsStay.foldl (f := recomputeLead) recomputed allEvents _)

/-! ## Restart -/

theorem clearBlocks_leg (g : Gate) (e : EventIndex) (slot : SheetSlot) : (clearBlocks g).leg e slot = none := by
  have absent : (clearBlocks g).walker.roster[e] = Sweep.absent := Vector.getElem_replicate _
  unfold Gate.leg
  rw [absent]
  cases slot <;> rfl

/-- A part with no leg. -/
theorem legsOk_of_none {g : Gate} (none_ : ∀ e slot, g.leg e slot = none) : LegsOk g where
  sheet e slot leg held := by rw [none_] at held; cases held
  lap e slot leg held := by rw [none_] at held; cases held
  first e slot leg f other walking held := by rw [none_] at held; cases held

theorem reformEvent_legsOk {e : EventIndex} {g : Gate} (ok : LegsOk g) : LegsOk (reformEvent e g) := by
  have requeued (h : Gate) : LegsStay h (requeueTask e h) := by
    unfold requeueTask
    split
    · exact .refl h
    · refine LegsStay.trans ?_ (setTasks_legsStay ..)
      exact modEvent_legsStay_of_frame e h (fun _ => rfl) (fun _ => rfl) (fun _ => rfl)
  have delivered : LegsOk (reformDelivery e g) := by
    unfold reformDelivery
    split
    · next listed => exact rejoinPending_legsOk (by rwa [joinLeg_phase]) (joinLeg_legsOk listed ok)
    · split
      · exact (((openOffer_legsStay ..).trans (reofferPending_legsStay ..)).trans (setOpenRepeat_legsStay ..)).legsOk ok
      · exact ok
  exact (requeued _).legsOk delivered

theorem restartNow_legsOk (cause : Byte) (g : Gate) : LegsOk (restartNow cause g) := by
  have cleared : LegsOk (postRestarted cause (clearBlocks (cutSave g))) :=
    (post_books ..).legsStay.legsOk (legsOk_of_none (clearBlocks_leg _))
  exact List.foldlRecOn allEvents _ cleared (fun _ before _ _ => reformEvent_legsOk before)

theorem powerOn_legsOk (unitStraps : Byte) (zoneStraps : BitVec 2) (fitted : Option (List Byte)) (g : Gate) :
    LegsOk (powerOn unitStraps zoneStraps fitted g) := by
  refine legsOk_of_none (fun e slot => ?_)
  have absent : (powerOn unitStraps zoneStraps fitted g).walker.roster[e] = Sweep.absent := Vector.getElem_replicate _
  unfold Gate.leg
  rw [absent]
  cases slot <;> rfl

/-! ## Every command -/

theorem beginWhere_legsOk {p : Request → Bool} {run : Request → Gate → Gate} {g : Gate}
    (runs : ∀ q h, LegsOk h → LegsOk (run q h)) (ok : LegsOk g) : LegsOk (beginWhere p run g) := by
  have left : LegsOk (leaveQueue g) := (leaveQueue_books g).legsStay.legsOk ok
  rcases beginWhere_cases p run g with idle | ⟨cell, rest, -, -, -, ⟨-, refused⟩ | ⟨-, begun⟩⟩
  · rwa [idle]
  · rw [refused]
    exact (placeReply_books ..).legsStay.legsOk left
  · rw [begun]
    exact runs _ _ left

theorem executeCommand_legsOk {code : Byte} {meaning : Request → Gate → Answer} {g : Gate}
    (meets : ∀ q h, LegsOk h → LegsOk (meaning q h).gate) (ok : LegsOk g) : LegsOk (executeCommand code meaning g) := by
  unfold executeCommand beginCommand
  exact beginWhere_legsOk (fun q h begun => (placeReply_books ..).legsStay.legsOk (meets q h begun)) ok

theorem executeAtTable_legsOk {code : Byte} {meaning : Request → Gate → Answer} {g : Gate}
    (meets : ∀ q h, LegsStay h (meaning q h).gate) (ok : LegsOk g) : LegsOk (executeAtTable code meaning g) := by
  unfold executeAtTable
  refine beginWhere_legsOk (fun q h begun => (placeReply_books ..).legsStay.legsOk ?_) ok
  exact (meets q _).legsOk (LegsStay.legsOk (g := h) legsStay_of_same begun)

theorem unknownCommand_legsOk {g : Gate} (ok : LegsOk g) : LegsOk (unknownCommand g) := by
  unfold unknownCommand
  split
  · exact ok
  · dsimp only
    split
    · exact ((leaveQueue_books g).trans (placeReply_books ..)).legsStay.legsOk ok
    · exact ok

theorem purchase_legsOk {g : Gate} (ok : LegsOk g) : LegsOk (purchase g) := by
  unfold purchase beginCommand
  refine beginWhere_legsOk (fun q h begun => ?_) ok
  split
  · exact (takeUpItems_books ..).legsStay.legsOk begun
  · exact (placeReply_books ..).legsStay.legsOk begun

theorem purchaseItem_legsOk {g : Gate} (ok : LegsOk g) : LegsOk (purchaseItem g) := by
  unfold purchaseItem
  split
  · next item _ _ _ =>
    split
    · have bought := (legs_keptByRecords _).buyItem item (LegsStay.refl (granted .command g))
      refine (afterItem_books ..).legsStay.legsOk (bought.legsOk ?_)
      exact LegsStay.legsOk (g := g) legsStay_of_same ok
    · exact ok
  · exact ok

theorem saveImage_legsOk {g : Gate} (ok : LegsOk g) : LegsOk (saveImage g) := by
  unfold saveImage beginCommand
  refine beginWhere_legsOk (fun q h begun => ?_) ok
  split
  · exact LegsStay.legsOk (g := h) legsStay_of_same begun
  · exact (placeReply_books ..).legsStay.legsOk begun

theorem saveImageEnd_legsStay (acknowledged : Nat) (g : Gate) : LegsStay g (saveImageEnd acknowledged g) := by
  rcases saveImageEnd_cases acknowledged g with idle | ⟨tag, image, -, ⟨-, whole⟩ | ⟨-, part⟩⟩
  · rw [idle]
    exact .refl g
  · rw [whole]
    exact LegsStay.trans legsStay_of_same (endSave_books ..).legsStay
  · rw [part, writePart_frame]
    exact LegsStay.trans legsStay_of_same (endSave_books ..).legsStay

theorem restart_legsOk {g : Gate} (ok : LegsOk g) : LegsOk (restart g) := by
  unfold restart beginCommand
  refine beginWhere_legsOk (fun q h begun => ?_) ok
  split
  · exact (beginRestart_books ..).legsStay.legsOk begun
  · exact (placeReply_books ..).legsStay.legsOk begun

theorem imageLoadEnd_legsStay (acknowledged : Nat) (g : Gate) : LegsStay g (imageLoadEnd acknowledged g) :=
  LegsStay.trans legsStay_of_same (imageLoadEnd_emits acknowledged g).legsStay

theorem managementCell_legsStay (g : Gate) : LegsStay g (managementCell g) := by
  rcases managementCell_cases g with counted | ⟨cell, pre, before, -, joined⟩
  · exact counted.legsStay
  · rw [joined]
    exact before.legsStay.trans (joinQueue_books ..).legsStay

theorem effect_legsOk (i : Instr) {g : Gate} (table : TableOk g) (tasks : TasksOk g) (ok : LegsOk g) :
    LegsOk (effect i g) := by
  have atTable {code : Byte} {meaning : Request → Gate → Answer} (meets : ∀ q h, LegsStay h (meaning q h).gate) :
      LegsOk (executeAtTable code meaning g) := executeAtTable_legsOk meets ok
  have command {code : Byte} {meaning : Request → Gate → Answer} (meets : ∀ q h, LegsStay h (meaning q h).gate) :
      LegsOk (executeCommand code meaning g) := executeCommand_legsOk (fun q h => (meets q h).legsOk) ok
  cases i with
  | powerOn unitStraps zoneStraps fitted => exact powerOn_legsOk ..
  | imageLoadEnd acknowledged => exact (imageLoadEnd_legsStay ..).legsOk ok
  | inputCell step =>
    exact cellStep_keeps (fun _ _ emits => emits.legsStay.legsOk) (fun h => (timeCell_legsStay h).legsOk)
      (fun _ => cueCell_legsOk) (fun h => (managementCell_legsStay h).legsOk) (fun _ => keyCell_legsOk) ok
  | missingCell => exact (missingCell_emits g).legsStay.legsOk ok
  | nominalSlot => exact (nominalSlot_emits g).legsStay.legsOk ok
  | holdMessage zone value => exact (holdMessage_emits zone value g).legsStay.legsOk ok
  | siteClockTick => exact LegsStay.legsOk (g := g) legsStay_of_same ok
  | timeCell => exact (timeCell_legsStay g).legsOk ok
  | windowClose => exact (windowClose_legsStay g).legsOk ok
  | cueCell => exact cueCell_legsOk ok
  | phaseDeadlineExpiry e => exact phaseDeadlineExpiry_legsOk ok
  | keyCell => exact keyCell_legsOk ok
  | promotion e => exact promotion_legsOk ok
  | openLeadInstant e => exact (openLeadInstant_legsStay e g).legsOk ok
  | openRepeat e => exact (openRepeat_legsStay e g).legsOk ok
  | starvationInstant e => exact starvationInstant_legsOk ok
  | legLate e slot => exact legLate_legsOk ok
  | sweepVisit => exact (sweepVisit_legsStay g).legsOk ok
  | maintenanceVisit => exact maintenanceVisit_legsOk table tasks ok
  | ageInstant => exact (ageInstant_legsStay g).legsOk ok
  | managementCell => exact (managementCell_legsStay g).legsOk ok
  | returnSlot => exact (returnSlot_books g).legsStay.legsOk ok
  | unknownCommand => exact unknownCommand_legsOk ok
  | loadEvent => exact executeCommand_legsOk (fun _ _ => loadEvent_legsOk) ok
  | amendEvent => exact command amendEvent_legsStay
  | steerEvent => exact executeCommand_legsOk (fun _ _ => steerEvent_legsOk) ok
  | retireEvent => exact executeCommand_legsOk (fun _ _ => retireEvent_legsOk) ok
  | readEvent => exact command (fun q h => by rw [readEvent_gate]; exact .refl h)
  | purchase => exact purchase_legsOk ok
  | purchaseItem => exact purchaseItem_legsOk ok
  | cancel => exact atTable (fun q h => (legs_keptByRecords h).cancel q (.refl h))
  | putHolder => exact atTable (fun q h => (legs_keptByRecords h).putHolder q (.refl h))
  | dropHolder => exact atTable (fun q h => (legs_keptByRecords h).dropHolder q (.refl h))
  | force => exact atTable (fun q h => (legs_keptByRecords h).force q (.refl h))
  | release => exact atTable (fun q h => (legs_keptByRecords h).release q (.refl h))
  | bar => exact atTable (fun q h => (legs_keptByRecords h).bar q (.refl h))
  | unbar => exact atTable (fun q h => (legs_keptByRecords h).unbar q (.refl h))
  | readHolder => exact atTable (fun q h => by rw [readHolder_gate]; exact .refl h)
  | dump => exact atTable (fun q h => by rw [dump_gate]; exact .refl h)
  | setZone => exact command setZone_legsStay
  | setProfile => exact command setProfile_legsStay
  | setCueMap => exact command setCueMap_legsStay
  | setTiming => exact command setTiming_legsStay
  | readCounters => exact command (fun q h => (legs_keptByRecords h).readCounters q (.refl h))
  | saveImage => exact saveImage_legsOk ok
  | saveImageEnd acknowledged => exact (saveImageEnd_legsStay acknowledged g).legsOk ok
  | restart => exact restart_legsOk ok
  | restartStep =>
    show LegsOk (restartStep g)
    unfold restartStep
    split
    · exact restartNow_legsOk ..
    · exact ok
  | restartLine =>
    show LegsOk (restartLine g)
    unfold restartLine
    split
    · exact ok
    · exact restartNow_legsOk ..

end Sys2Proof.Machine

namespace Sys2Proof.Proofs

open Sys2Proof.Machine Sys2Proof.Safety Sys2Proof.Claims

/-- Settles O10: legs join for sheets held in LISTED phases and go with them; a leg resumes where no leg is on its first
lap. -/
theorem everyStepKeepsTheLegs : Obligations.EveryStepKeepsTheLegs := by
  intro s t events tasks ok stepped
  cases front : s.pending with
  | nil =>
    rw [step_of_idle front] at stepped
    cases stepped
    exact ok
  | cons c rest =>
    rw [step_of_front front, exec_eq_effect] at stepped
    cases stepped
    exact effect_legsOk c (tableOk_iff.mpr events) tasks ok

end Sys2Proof.Proofs

/-! PROOF. The Holder Table: what a command or a visit of the maintenance walker may write of it, and that each such write leaves
it well formed. -/

namespace Sys2Proof.Machine

open Sys2Proof.Safety Sys2Proof.Claims

set_option Elab.async false

/-! ## What the writes of the table are -/

/-- The three sets of a record hold no index that is both granted and denied. -/
def Holder.apart (h : Holder) : Prop :=
  h.grants &&& h.denies = 0

/-- R86: a record in the table is left, changed without its decoder number, or freed. -/
inductive RecordWrite (table : List (Nat × Holder)) (key : Nat) (h : Holder) : List (Nat × Holder) → Prop
  | left : RecordWrite table key h table
  | changed (after : Holder) (decoder : after.decoder = h.decoder) (apart : h.apart → after.apart) :
    RecordWrite table key h (Sparse.set table key after)
  | freed : RecordWrite table key h (Sparse.erase table key)

/-- R83: a decoder has no record in its bucket. -/
def Unlisted (d : Decoder) (table : List (Nat × Holder)) : Prop :=
  ∀ key h, Sparse.get table key = some h → bucketOfKey key = (bucketOf d).val → h.decoder ≠ d

/-- What one command does to the table: nothing, a write of one record that a lookup has found, or a new record. -/
inductive TableStep (table : List (Nat × Holder)) : List (Nat × Holder) → Prop
  | left : TableStep table table
  | record {key : Nat} {h : Holder} {after : List (Nat × Holder)} (listed : Sparse.get table key = some h)
      (write : RecordWrite table key h after) : TableStep table after
  | new {key : Nat} (h : Holder) (below : key < Config.tableSize) (bucket : bucketOfKey key = (bucketOf h.decoder).val)
      (free : Sparse.get table key = none) (unlisted : Unlisted h.decoder table)
      (number : decoderInRange h.decoder = true) (apart : h.apart) : TableStep table (Sparse.set table key h)

/-! ## They leave the table well formed -/

theorem holdersOk_of_sub {table after : List (Nat × Holder)} (ok : HoldersOk table) (sorted : Sparse.Sorted after)
    (sub : ∀ entry ∈ after, entry ∈ table) : HoldersOk after where
  sorted := sorted
  key entry listed := ok.key entry (sub entry listed)
  bucket entry listed := ok.bucket entry (sub entry listed)
  number entry listed := ok.number entry (sub entry listed)
  overrides entry listed := ok.overrides entry (sub entry listed)
  one a listedA b listedB := ok.one a (sub a listedA) b (sub b listedB)

/-- A record written under a key, where no other key has a record of its decoder. -/
theorem holdersOk_set {table : List (Nat × Holder)} {key : Nat} {h : Holder} (ok : HoldersOk table)
    (below : key < Config.tableSize) (bucket : (bucketOf h.decoder).val = bucketOfKey key)
    (number : decoderInRange h.decoder = true) (apart : h.apart)
    (one : ∀ entry ∈ table, entry.2.decoder = h.decoder → entry.1 = key) : HoldersOk (Sparse.set table key h) where
  sorted := Sparse.sorted_set ok.sorted ..
  key entry listed := by
    rcases Sparse.mem_set listed with rfl | old
    · exact below
    · exact ok.key entry old
  bucket entry listed := by
    rcases Sparse.mem_set listed with rfl | old
    · exact bucket
    · exact ok.bucket entry old
  number entry listed := by
    rcases Sparse.mem_set listed with rfl | old
    · exact number
    · exact ok.number entry old
  overrides entry listed := by
    rcases Sparse.mem_set listed with rfl | old
    · exact apart
    · exact ok.overrides entry old
  one a listedA b listedB same := by
    rcases Sparse.mem_set listedA with rfl | oldA <;> rcases Sparse.mem_set listedB with rfl | oldB
    · rfl
    · exact (one b oldB same.symm).symm
    · exact one a oldA same
    · exact ok.one a oldA b oldB same

theorem RecordWrite.holdersOk {table after : List (Nat × Holder)} {key : Nat} {h : Holder}
    (write : RecordWrite table key h after) (listed : Sparse.get table key = some h) (ok : HoldersOk table) :
    HoldersOk after := by
  have entry := Sparse.mem_of_get listed
  cases write with
  | left => exact ok
  | changed record decoder apart =>
    refine holdersOk_set ok (ok.key _ entry) ?_ ?_ (apart (ok.overrides _ entry)) (fun other there same => ?_)
    · rw [decoder]
      exact ok.bucket _ entry
    · rw [decoder]
      exact ok.number _ entry
    · exact ok.one other there _ entry (same.trans decoder)
  | freed => exact holdersOk_of_sub ok (Sparse.sorted_erase ok.sorted _) (fun other there => (Sparse.mem_erase.mp there).1)

theorem TableStep.holdersOk {table after : List (Nat × Holder)} (stepped : TableStep table after) (ok : HoldersOk table) :
    HoldersOk after := by
  cases stepped with
  | left => exact ok
  | record listed write => exact write.holdersOk listed ok
  | new h below bucket free unlisted number apart =>
    refine holdersOk_set ok below bucket.symm number apart (fun other there same => ?_)
    have held := Sparse.get_of_mem ok.sorted there
    have own := ok.bucket other there
    rw [same] at own
    exact absurd same (unlisted other.1 other.2 held own.symm)

/-! ## Lookups and placements -/

theorem eq_slotKey_of_bucket {key : Nat} {b : Bucket} (bucket : bucketOfKey key = b.val) :
    key = slotKey b (key % 4) ∧ key % 4 ∈ allWays := by
  unfold bucketOfKey at bucket
  refine ⟨?_, mem_allWays.mpr (Nat.mod_lt _ (by decide))⟩
  unfold slotKey
  omega

theorem unlisted_of_findHolder {d : Decoder} {g : Gate} (absent : findHolder d g = none) : Unlisted d g.holders := by
  intro key h held bucket own
  obtain ⟨place, listed⟩ := eq_slotKey_of_bucket bucket
  unfold findHolder at absent
  rw [List.findSome?_eq_none_iff] at absent
  have none_ := absent (key % 4) listed
  rw [← place, held] at none_
  simp [own] at none_

theorem placement_free {d : Decoder} {g : Gate} {key : Nat} (placed : placement d g = .ok key) :
    key < Config.tableSize ∧ Sparse.get g.holders key = none := by
  unfold placement at placed
  split at placed
  · cases placed
  · split at placed
    · next way free =>
      cases placed
      have listed := mem_allWays.mp (List.mem_of_find?_eq_some free)
      have bound := (bucketOf d).isLt
      refine ⟨?_, by simpa using List.find?_some free⟩
      unfold slotKey
      show _ < 32768
      omega
    · cases placed

theorem changeRecord_holders (key : Nat) (before after : Option Holder) (g : Gate) :
    (changeRecord key before after g).holders = (writeHolder key after g).holders :=
  (changeRecord_delivers key before after g).holders

theorem rewrite_tableStep {d : Decoder} {key : Nat} {h after : Holder} {g : Gate} (found : findHolder d g = some (key, h))
    (decoder : after.decoder = h.decoder) (apart : h.apart → after.apart) :
    TableStep g.holders (rewriteHolder key h after g).holders := by
  unfold rewriteHolder
  rw [changeRecord_holders]
  exact .record (findHolder_some found).1 (.changed after decoder apart)

/-- R83: a new record goes into a free way of its decoder's bucket. -/
theorem new_tableStep {d : Decoder} {key : Nat} {h : Holder} {g : Gate} (absent : findHolder d g = none)
    (placed : placement d g = .ok key) (number : decoderInRange d = true) (decoder : h.decoder = d) (apart : h.apart) :
    TableStep g.holders (changeRecord key none (some h) g).holders := by
  subst decoder
  obtain ⟨below, free⟩ := placement_free placed
  rw [changeRecord_holders]
  exact .new h below (bucketOfKey_of_placement placed) free (unlisted_of_findHolder absent) number apart

/-- A record without a granted index holds none against a denied one. -/
theorem apart_of_empty {h : Holder} (grants : h.grants = 0) : h.apart := by
  unfold Holder.apart
  rw [grants]
  simp

/-! ## The commands on holder records -/

theorem buyItem_tableStep (item : PurchaseItem) (g : Gate) : TableStep g.holders (buyItem item g).2.holders := by
  have held {e : EventIndex} {z : ZoneIndex} {key : Nat} {h : Holder} (found : findHolder item.decoder g = some (key, h)) :
      TableStep g.holders (buyHeld e z item key h g).2.holders := by
    unfold buyHeld
    split
    · exact .left
    · split
      · exact .left
      · split
        · exact .left
        · exact rewrite_tableStep (after := h.buy e) found rfl id
  have new {e : EventIndex} {z : ZoneIndex} (absent : findHolder item.decoder g = none)
      (number : decoderInRange item.decoder = true) : TableStep g.holders (buyNew e z item g).2.holders := by
    unfold buyNew
    split
    · dsimp only
      rw [bumpEvent_holders, countRefusal_holders]
      exact .left
    · next placed =>
      dsimp only
      rw [bumpEvent_holders, bump_holders]
      exact new_tableStep absent placed number rfl (apart_of_empty rfl)
  unfold buyItem
  split
  · exact .left
  · split
    · next number =>
      split
      · exact .left
      · unfold buyFor
        split
        · exact .left
        · split
          · exact .left
          · split
            · exact .left
            · split
              · next found => exact held found
              · next absent => exact new absent number
    · exact .left

theorem cancel_tableStep (q : Request) (g : Gate) : TableStep g.holders (cancel q g).gate.holders := by
  unfold cancel
  dsimp only
  split
  · exact .left
  · split
    · exact .left
    · split
      · exact .left
      · next found =>
        split
        · exact .left
        · rw [cancelSets, answerChanged_gate, bumpEach_holders]
          exact rewrite_tableStep found rfl id

theorem putHolder_tableStep (q : Request) (g : Gate) : TableStep g.holders (putHolder q g).gate.holders := by
  have put (d : Decoder) (z : ZoneIndex) (region : Half) (exempt : Bool) (bought : EventSet)
      (number : decoderInRange d = true) : TableStep g.holders (putRecord d z region exempt bought g).gate.holders := by
    unfold putRecord
    split
    · next found => exact rewrite_tableStep found rfl id
    · next absent =>
      split
      · simpa using TableStep.left
      · next placed => exact new_tableStep (h := newStatic d z region exempt bought) absent placed number rfl (apart_of_empty rfl)
  unfold putHolder
  dsimp only
  split
  · exact .left
  · split
    · exact .left
    · split
      · exact .left
      · next inRange =>
        split
        · exact .left
        · exact put _ _ _ _ _ (by simpa using fun outside => inRange (.inl outside))

theorem dropHolder_tableStep (q : Request) (g : Gate) : TableStep g.holders (dropHolder q g).gate.holders := by
  refine withHolder_gate (P := fun h => TableStep g.holders h.holders) .left (fun _ key h found => ?_)
  dsimp only
  rw [bump_holders, changeRecord_holders]
  exact .record (findHolder_some found).1 .freed

theorem forced_apart (grant : Bool) (named : EventSet) {h : Holder} (apart : h.apart) : (h.forced grant named).apart := by
  unfold Holder.apart at apart ⊢
  have bits (i : Nat) : (h.grants.getLsbD i && h.denies.getLsbD i) = false := by
    rw [← BitVec.getLsbD_and, apart]
    exact BitVec.getLsbD_zero
  refine BitVec.eq_of_getLsbD_eq (fun i inside => ?_)
  have bit := bits i
  cases grant <;>
    simp only [Holder.forced, Bool.false_eq_true, if_false, if_true, BitVec.getLsbD_and, BitVec.getLsbD_or,
      BitVec.getLsbD_not, inside, decide_true, Bool.true_and, BitVec.ofNat_eq_ofNat, BitVec.getLsbD_zero] <;>
    generalize h.grants.getLsbD i = granted at bit ⊢ <;>
    generalize h.denies.getLsbD i = denied at bit ⊢ <;>
    generalize named.getLsbD i = chosen <;>
    revert granted denied chosen <;>
    decide

/-- Sets with indices taken out stay apart. -/
theorem apart_of_mask {h after : Holder} {mask : EventSet} (grants : after.grants = h.grants &&& mask)
    (denies : after.denies = h.denies &&& mask) (apart : h.apart) : after.apart := by
  unfold Holder.apart at apart ⊢
  have same : h.grants &&& mask &&& (h.denies &&& mask) = (h.grants &&& h.denies) &&& mask := by
    ext i
    simp only [BitVec.getElem_and]
    cases h.grants[i] <;> cases h.denies[i] <;> cases mask[i] <;> rfl
  rw [grants, denies, same, apart]
  simp

theorem force_tableStep (q : Request) (g : Gate) : TableStep g.holders (force q g).gate.holders := by
  refine withOverride_gate (P := fun h => TableStep g.holders h.holders) .left (fun d key h grant named found => ?_)
  rw [answerChanged_gate, bumpEach_holders]
  exact rewrite_tableStep found (forced_decoder grant named h) (forced_apart grant named)

theorem release_tableStep (q : Request) (g : Gate) : TableStep g.holders (release q g).gate.holders := by
  refine withOverride_gate (P := fun h => TableStep g.holders h.holders) .left (fun d key h keep named found => ?_)
  rw [answerChanged_gate, bumpEach_holders]
  exact rewrite_tableStep found rfl (apart_of_mask (mask := ~~~named) rfl rfl)

theorem bar_tableStep (q : Request) (g : Gate) : TableStep g.holders (bar q g).gate.holders := by
  refine withHolder_gate (P := fun h => TableStep g.holders h.holders) .left (fun d key h found => ?_)
  split
  · exact .left
  · rw [answerChanged_gate, bump_holders, purgeDecoder_holders]
    exact rewrite_tableStep found rfl id

theorem unbar_tableStep (q : Request) (g : Gate) : TableStep g.holders (unbar q g).gate.holders := by
  refine withHolder_gate (P := fun h => TableStep g.holders h.holders) .left (fun d key h found => ?_)
  split
  · exact rewrite_tableStep found rfl id
  · exact .left

/-! ## The maintenance walker -/

theorem applyTo_recordWrite (task : Task) (key : Nat) (h : Holder) (g : Gate) :
    RecordWrite g.holders key h (task.applyTo key h g).holders := by
  have written (after : Holder) (decoder : after.decoder = h.decoder) (apart : h.apart → after.apart) :
      RecordWrite g.holders key h (changeRecord key (some h) (some after) g).holders := by
    rw [changeRecord_holders]
    exact .changed after decoder apart
  cases task with
  | retire e carried =>
    show RecordWrite g.holders key h (retireRecord e key h g).holders
    unfold retireRecord
    split
    · exact .left
    · exact written _ rfl (apart_of_mask (mask := ~~~(1#24 <<< e.val)) rfl rfl)
  | recount e =>
    show RecordWrite g.holders key h (recountRecord e h g).holders
    unfold recountRecord
    split
    · rw [(shiftShadow_delivers h.zone true g).holders]
      exact .left
    · exact .left
  | ageScan =>
    show RecordWrite g.holders key h (ageRecord key h g).holders
    unfold ageRecord
    split
    · exact .left
    · split
      · split
        · exact written { h with ageMark := false } rfl id
        · rw [bump_holders, changeRecord_holders]
          exact .freed
      · split
        · exact .left
        · exact written { h with ageMark := true } rfl id

theorem RecordWrite.get_other {table after : List (Nat × Holder)} {key other : Nat} {h : Holder}
    (write : RecordWrite table key h after) (apart : other ≠ key) : Sparse.get after other = Sparse.get table other := by
  cases write with
  | left => rfl
  | changed record => exact Sparse.get_set_other _ _ apart
  | freed => exact Sparse.get_erase_other _ apart

theorem bucketRecords_keys (b : Bucket) (g : Gate) :
    (bucketRecords b g).Pairwise (fun a c => a.1 ≠ c.1) := by
  have ways : allWays.Pairwise (· ≠ ·) := by decide
  unfold bucketRecords
  refine List.Pairwise.filterMap _ (fun a c apart x there y here => ?_) ways
  obtain ⟨_, -, rfl⟩ := Option.map_eq_some_iff.mp there
  obtain ⟨_, -, rfl⟩ := Option.map_eq_some_iff.mp here
  unfold slotKey
  dsimp only
  omega

/-- R88: the visit of a bucket writes its records one after the other; each is still in the table as its turn comes. -/
theorem visitRecords_foldl {P : List (Nat × Holder) → Prop} {task : Task} (records : List (Nat × Holder)) (g : Gate)
    (apart : records.Pairwise (fun a c => a.1 ≠ c.1))
    (listed : ∀ entry ∈ records, Sparse.get g.holders entry.1 = some entry.2)
    (keeps : ∀ table after key h, Sparse.get table key = some h → RecordWrite table key h after → P table → P after)
    (held : P g.holders) : P (records.foldl (fun acc entry => task.applyTo entry.1 entry.2 acc) g).holders := by
  induction records generalizing g with
  | nil => exact held
  | cons entry rest ih =>
    obtain ⟨others, restApart⟩ := List.pairwise_cons.mp apart
    have write := applyTo_recordWrite task entry.1 entry.2 g
    refine ih _ restApart (fun other there => ?_) (keeps _ _ _ _ (listed entry List.mem_cons_self) write held)
    rw [write.get_other (others other there).symm]
    exact listed other (List.mem_cons_of_mem _ there)

theorem maintenanceVisit_holdersOk {g : Gate} (ok : HoldersOk g.holders) : HoldersOk (maintenanceVisit g).holders := by
  have visited (task : Task) : HoldersOk (visitRecords task g).holders :=
    visitRecords_foldl (bucketRecords (Fin.ofNat 8192 g.upkeep.cursor.val) g) g (bucketRecords_keys _ g)
      (fun _ => get_of_mem_bucketRecords) (fun _ _ _ _ there write before => write.holdersOk there before) ok
  unfold maintenanceVisit makeVisit
  split
  · exact ok
  · split
    · dsimp only
      split
      · rw [endWalk_holders]
        exact visited _
      · exact visited _
    · exact ok

/-! ## Restart and every command -/

theorem holdersRestarted_holdersOk {hold : Bool} {holders : List (Nat × Holder)} (ok : HoldersOk holders) :
    HoldersOk (holdersRestarted hold holders) := by
  cases hold with
  | true => exact ok
  | false =>
    have from_ (entry : Nat × Holder) (listed : entry ∈ holders.map fun entry => (entry.1, entry.2.withoutOverrides)) :
        ∃ old ∈ holders, (old.1, old.2.withoutOverrides) = entry := List.mem_map.mp listed
    refine ⟨Sparse.sorted_map ok.sorted Holder.withoutOverrides, fun entry listed => ?_, fun entry listed => ?_,
      fun entry listed => ?_, fun entry listed => ?_, fun a listedA b listedB same => ?_⟩
    · obtain ⟨old, member, rfl⟩ := from_ entry listed
      exact ok.key old member
    · obtain ⟨old, member, rfl⟩ := from_ entry listed
      exact ok.bucket old member
    · obtain ⟨old, member, rfl⟩ := from_ entry listed
      exact ok.number old member
    · obtain ⟨old, member, rfl⟩ := from_ entry listed
      simp [Holder.withoutOverrides]
    · obtain ⟨oldA, memberA, rfl⟩ := from_ a listedA
      obtain ⟨oldB, memberB, rfl⟩ := from_ b listedB
      exact ok.one oldA memberA oldB memberB same

theorem restartNow_holdersOk {cause : Byte} {g : Gate} (ok : HoldersOk g.holders) :
    HoldersOk (restartNow cause g).holders := by
  have cut : (cutSave g).holders = g.holders := by rw [cutSave_frame]
  rw [restartNow, foldl_holders reformEvent_holders]
  exact holdersRestarted_holdersOk (cut.symm ▸ ok)

theorem holdersOk_nil : HoldersOk [] where
  sorted := Sparse.sorted_nil
  key entry listed := by cases listed
  bucket entry listed := by cases listed
  number entry listed := by cases listed
  overrides entry listed := by cases listed
  one a listed := by cases listed

theorem purchaseItem_tableStep (g : Gate) : TableStep g.holders (purchaseItem g).holders := by
  have after (tag : Half) (left : List PurchaseItem) (results : List Result) (h : Gate) :
      (afterItem tag left results h).holders = h.holders := by
    cases left <;> rfl
  unfold purchaseItem takeItem
  split
  · split
    · dsimp only
      rw [after]
      exact buyItem_tableStep _ (granted .command g)
    · exact .left
  · exact .left

theorem effect_holdersOk (i : Instr) {g : Gate} (ok : HoldersOk g.holders) : HoldersOk (effect i g).holders := by
  have atTable {code : Byte} {meaning : Request → Gate → Answer}
      (steps : ∀ q h, TableStep h.holders (meaning q h).gate.holders) :
      HoldersOk (executeAtTable code meaning g).holders :=
    executeAtTable_table ok (fun q h before => (steps q h).holdersOk before)
  cases writes : writesHolders i with
  | false =>
    have same := exec_holders (s := { State.reset with gate := g }) writes (exec_eq_effect ..)
    exact same.symm ▸ ok
  | true =>
    cases i with
    | powerOn unitStraps zoneStraps fitted => exact holdersOk_nil
    | purchaseItem => exact (purchaseItem_tableStep g).holdersOk ok
    | cancel => exact atTable cancel_tableStep
    | putHolder => exact atTable putHolder_tableStep
    | dropHolder => exact atTable dropHolder_tableStep
    | force => exact atTable force_tableStep
    | release => exact atTable release_tableStep
    | bar => exact atTable bar_tableStep
    | unbar => exact atTable unbar_tableStep
    | maintenanceVisit => exact maintenanceVisit_holdersOk ok
    | restartStep =>
      show HoldersOk (restartStep g).holders
      unfold restartStep
      split
      · exact restartNow_holdersOk ok
      · exact ok
    | restartLine =>
      show HoldersOk (restartLine g).holders
      unfold restartLine
      split
      · exact ok
      · exact restartNow_holdersOk ok
    | _ => cases writes

end Sys2Proof.Machine

namespace Sys2Proof.Proofs

open Sys2Proof.Machine Sys2Proof.Safety Sys2Proof.Claims

/-- Settles O5: a command writes one record that a lookup has found, or a new one where no lookup finds the decoder. -/
theorem everyStepKeepsTheHolderTable : Obligations.EveryStepKeepsTheHolderTable :=
  fun _ _ => step_keeps (P := fun g => HoldersOk g.holders) (fun i _ => effect_holdersOk i)

end Sys2Proof.Proofs

/-! PROOF. Counters and items (R14, R177), and the state right after power-on: the statements CountersHoldAndItemsReplace and
ResetIsThePowerOnState. -/

namespace Sys2Proof.Machine

open Sys2Proof.Safety Sys2Proof.Claims

set_option Elab.async false

/-! ## A counter of each group -/

theorem countUp_toNat (c : Counter) (n : Nat) : (countUp c n).toNat = min (c.toNat + n) 4294967295 := by
  unfold countUp
  rw [BitVec.toNat_ofNat]
  omega

@[simp] theorem countUp_zero (c : Counter) : countUp c 0 = c := by
  refine BitVec.eq_of_toNat_eq ?_
  have := c.isLt
  rw [countUp_toNat]
  omega

/-- Table 78 gives every zone counter its own position. -/
theorem ZoneCounter.pos_injective : Function.Injective ZoneCounter.pos := by
  have pos_eq : ∀ k : ZoneCounter, k.pos.val = k.ctorIdx := fun k => by cases k <;> rfl
  intro j k same
  have index : j.ctorIdx = k.ctorIdx := by rw [← pos_eq, ← pos_eq, same]
  rw [← ZoneCounter.ofNat_ctorIdx j, index, ZoneCounter.ofNat_ctorIdx]

/-- Table 78 gives every event counter its own position. -/
theorem EventCounter.pos_injective : Function.Injective EventCounter.pos := by
  have pos_eq : ∀ k : EventCounter, k.pos.val = k.ctorIdx := fun k => by cases k <;> rfl
  intro j k same
  have index : j.ctorIdx = k.ctorIdx := by rw [← pos_eq, ← pos_eq, same]
  rw [← EventCounter.ofNat_ctorIdx j, index, EventCounter.ofNat_ctorIdx]

theorem Zone.countBy_counter (j k : ZoneCounter) (n : Nat) (zone : Zone) :
    (Zone.countBy j n zone).counters[k.pos]
      = if k = j then countUp zone.counters[k.pos] n else zone.counters[k.pos] := by
  by_cases same : k = j
  · subst same
    simp [Zone.countBy]
  · have apart : (j.pos : Nat) ≠ k.pos := fun equal => same (ZoneCounter.pos_injective (Fin.ext equal)).symm
    simp [Zone.countBy, same, Vector.getElem_set_ne, apart]

theorem Event.countBy_counter (j k : EventCounter) (n : Nat) (ev : Event) :
    (Event.countBy j n ev).counters[k.pos]
      = if k = j then countUp ev.counters[k.pos] n else ev.counters[k.pos] := by
  by_cases same : k = j
  · subst same
    simp [Event.countBy]
  · have apart : (j.pos : Nat) ≠ k.pos := fun equal => same (EventCounter.pos_injective (Fin.ext equal)).symm
    simp [Event.countBy, same, Vector.getElem_set_ne, apart]

/-- A counter of an event record, after a change of that or another record. -/
theorem eventCount_modEvent (e f : EventIndex) (change : Event → Event) (k : EventCounter) (g : Gate) :
    eventCount (modEvent e change g) f k
      = if f = e then (change (g.event e)).counters[k.pos] else eventCount g f k := by
  unfold eventCount
  rw [modEvent_event]
  split <;> rfl

theorem eventCount_bumpEvent (e f : EventIndex) (j k : EventCounter) (g : Gate) :
    eventCount (bumpEvent e j g) f k = if f = e ∧ k = j then countUp (eventCount g f k) 1 else eventCount g f k := by
  unfold bumpEvent
  rw [eventCount_modEvent, Event.countBy_counter]
  by_cases event : f = e
  · subst event
    by_cases counter : k = j <;> simp [counter, eventCount]
  · simp [event]

/-! ## The pending status set -/

theorem insertItem_of_new {item : Item} {items : List Item} (new : ∀ held ∈ items, item.sameKey held = false) :
    insertItem item items = items ++ [item] := by
  induction items with
  | nil => rfl
  | cons held rest ih =>
    rw [insertItem, new held (.head _), if_neg Bool.false_ne_true, ih fun other listed => new other (.tail _ listed)]
    rfl

theorem insertItem_of_held {item held : Item} {older newer : List Item} (first : ∀ other ∈ older, item.sameKey other = false)
    (same : item.sameKey held = true) : insertItem item (older ++ held :: newer) = older ++ item :: newer := by
  induction older with
  | nil => simp [insertItem, same]
  | cons other rest ih =>
    rw [List.cons_append, insertItem, first other (.head _), if_neg Bool.false_ne_true,
      ih fun another listed => first another (.tail _ listed)]
    rfl

/-! ## The state right after power-on -/

/-- The first state is the one that POWER_ON of a part with an unwritten EEPROM leaves. -/
theorem reset_eq_powerOn : State.reset.gate = powerOn 0 0 (some []) State.reset.gate := rfl

theorem reset_event (e : EventIndex) : State.reset.gate.event e = Event.vacant := Vector.getElem_replicate _

theorem reset_zone (z : ZoneIndex) : State.reset.gate.zone z = Zone.powerOn := Vector.getElem_replicate _

theorem reset_sheet (e : EventIndex) (slot : SheetSlot) : State.reset.gate.sheet e slot = none := by
  unfold Gate.sheet
  rw [reset_event]
  cases slot <;> rfl

theorem reset_leg (e : EventIndex) (slot : SheetSlot) : State.reset.gate.leg e slot = none := by
  have absent : State.reset.gate.walker.roster[e] = Sweep.absent := Vector.getElem_replicate _
  unfold Gate.leg
  rw [absent]
  cases slot <;> rfl

theorem reset_eventCount (e : EventIndex) (k : EventCounter) : eventCount State.reset.gate e k = 0 := by
  unfold eventCount
  rw [reset_event]
  exact Vector.getElem_replicate _

theorem reset_zoneCounter (z : ZoneIndex) (k : ZoneCounter) : zoneCounter State.reset.gate z k = 0 := by
  unfold zoneCounter
  rw [reset_zone]
  exact Vector.getElem_replicate _

end Sys2Proof.Machine

namespace Sys2Proof.Proofs

open Sys2Proof.Machine Sys2Proof.Safety Sys2Proof.Claims

/-- Settles O11: each counter has its own position in its group, and an item enters by the recursion of insertItem. -/
theorem countersHoldAndItemsReplace : Obligations.CountersHoldAndItemsReplace := by
  refine ⟨fun k g => ⟨?_, fun j other => ?_, rfl⟩, fun k n zone => ⟨?_, fun j other => ?_, rfl⟩,
    fun k n ev => ⟨?_, fun j other => ?_, rfl⟩, fun _ _ => insertItem_of_new, fun _ _ _ _ => insertItem_of_held⟩
  · rw [partCount_bump, if_pos rfl, countUp_toNat]
  · rw [partCount_bump, if_neg other]
  · rw [Zone.countBy_counter, if_pos rfl, countUp_toNat]
  · rw [Zone.countBy_counter, if_neg other]
  · rw [Event.countBy_counter, if_pos rfl, countUp_toNat]
  · rw [Event.countBy_counter, if_neg other]

/-- Settles O2: every block holds its power-on value, and a part right after power-on meets each invariant. -/
theorem resetIsThePowerOnState : Obligations.ResetIsThePowerOnState := by
  refine ⟨rfl, rfl, rfl, rfl, rfl, rfl, rfl, rfl, fun e => Vector.getElem_replicate _, fun lane => rfl, rfl, rfl, rfl, rfl,
    rfl, fun e => ?_, rfl, rfl, rfl, rfl, fun z => ?_, rfl, rfl, rfl, rfl, fun k => Vector.getElem_replicate _,
    reset_zoneCounter, reset_eventCount, reset_memory_wf, ?_, holdersOk_nil, ?_, List.Pairwise.nil, ?_, ?_, ?_⟩
  · rw [reset_event]
    exact ⟨rfl, fun z => Vector.getElem_replicate _, rfl, fun slot => ⟨reset_sheet e slot, reset_leg e slot⟩⟩
  · rw [reset_zone]
    exact ⟨rfl, rfl, rfl, rfl, rfl, rfl, rfl, rfl, rfl, fun e => Vector.getElem_replicate _⟩
  · exact reset_eq_powerOn ▸ powerOn_settingsOk ..
  · exact reset_eq_powerOn ▸ powerOn_queuesOk ..
  · exact tableOk_iff.mp (reset_eq_powerOn ▸ powerOn_tableOk ..)
  · exact reset_eq_powerOn ▸ powerOn_tasksOk ..
  · exact reset_eq_powerOn ▸ powerOn_legsOk ..

end Sys2Proof.Proofs

/-! PROOF. Open offers (R70) and the joins of legs (R120), once for each: what they make of the event's record, of the zones
and of the roster. -/

namespace Sys2Proof.Machine

open Sys2Proof.Safety Sys2Proof.Claims

set_option Elab.async false

/-! ## Open offers -/

/-- R70: a sheet that has been offered openly. -/
def Sheet.offered (sheet : Sheet) : Sheet :=
  { sheet with mark := true }

theorem setSheet_sheet (slot : SheetSlot) (ev : Event) : Event.setSheet slot (ev.sheet slot) ev = ev := by
  cases slot <;> rfl

theorem opens_iff {g : Gate} {e : EventIndex} {z : ZoneIndex} : g.opens e z = true ↔ unblacked g e z := by
  simp [Gate.opens, unblacked, Event.masks]

theorem openOffer_event (e i : EventIndex) (slot : SheetSlot) (g : Gate) :
    (openOffer e slot g).event i
      = if i = e then Event.setSheet slot ((g.sheet e slot).map Sheet.offered) (g.event e) else g.event i := by
  cases held : g.sheet e slot with
  | none =>
    rw [openOffer_none held]
    split
    · next same =>
      subst same
      have empty : (g.event i).sheet slot = none := held
      rw [Option.map_none, ← empty, setSheet_sheet]
    · rfl
  | some sheet =>
    rw [openOffer_eq held, modEvent_event, onZones_event, onZones_event]
    rfl

theorem openOffer_frame (e : EventIndex) (slot : SheetSlot) (g : Gate) :
    openOffer e slot g = { g with events := (openOffer e slot g).events, zones := (openOffer e slot g).zones } := by
  cases held : g.sheet e slot with
  | none => rw [openOffer_none held]
  | some sheet =>
    rw [openOffer_eq held]
    rfl

theorem openOffer_walker (e : EventIndex) (slot : SheetSlot) (g : Gate) : (openOffer e slot g).walker = g.walker := by
  rw [openOffer_frame]

theorem openOffer_clock (e : EventIndex) (slot : SheetSlot) (g : Gate) : (openOffer e slot g).clock = g.clock := by
  rw [openOffer_frame]

theorem openOffer_settings (e : EventIndex) (slot : SheetSlot) (g : Gate) :
    (openOffer e slot g).settings = g.settings := by
  rw [openOffer_frame]

theorem openOffer_zone {e : EventIndex} {slot : SheetSlot} {g : Gate} {sheet : Sheet} (held : g.sheet e slot = some sheet)
    (z : ZoneIndex) :
    (openOffer e slot g).zone z
      = if g.opens e z then offerZone (openEntry e sheet.number) (g.zone z) else g.zone z := by
  rw [openOffer_eq held, modEvent_zone, onZones_zone]

theorem openOffer_zone_of_blacked (e : EventIndex) (slot : SheetSlot) {g : Gate} {z : ZoneIndex}
    (blacked : ¬ unblacked g e z) : (openOffer e slot g).zone z = g.zone z := by
  cases held : g.sheet e slot with
  | none => rw [openOffer_none held]
  | some sheet => rw [openOffer_zone held, if_neg (fun opens => blacked (opens_iff.mp opens))]

theorem offerTo_prefix (entry : FreshEntry) (queue : List FreshEntry) : queue <+: offerTo entry queue := by
  unfold offerTo
  split
  · exact List.prefix_rfl
  · exact List.prefix_append ..

theorem openOffer_prefix (e : EventIndex) (slot : SheetSlot) (g : Gate) (z : ZoneIndex) :
    (g.zone z).fresh <+: ((openOffer e slot g).zone z).fresh := by
  cases held : g.sheet e slot with
  | none => rw [openOffer_none held]
  | some sheet =>
    rw [openOffer_zone held]
    split
    · rw [offerZone_fresh]
      exact offerTo_prefix ..
    · exact List.prefix_rfl

/-- An open entry that stands, or that a full queue has refused, is not offered less where queues only grow. -/
theorem offered_of_prefix {g h : Gate} {e : EventIndex} {number : SheetNumber} {z : ZoneIndex}
    (grows : (g.zone z).fresh <+: (h.zone z).fresh) (offered : Offered g e number z) : Offered h e number z :=
  offered.imp (fun listed => grows.subset listed) (fun full => full.trans grows.length_le)

theorem openOffer_offered {e : EventIndex} {slot : SheetSlot} {g : Gate} {sheet : Sheet} {z : ZoneIndex}
    (held : g.sheet e slot = some sheet) (unmasked : unblacked g e z) :
    Offered (openOffer e slot g) e sheet.number z := by
  unfold Offered
  rw [openOffer_zone held, if_pos (opens_iff.mpr unmasked), offerZone_fresh]
  show openEntry e sheet.number ∈ _ ∨ _
  unfold offerTo
  split
  · next stays => exact stays
  · exact .inl (List.mem_append_right _ (.head _))

/-! ## The open lead -/

theorem setOpenLead_none {e : EventIndex} {g : Gate} (empty : g.sheet e .pending = none) : setOpenLead e g = g := by
  unfold setOpenLead
  rw [empty]

theorem setOpenLead_reached {e : EventIndex} {g : Gate} {sheet : Sheet} (held : g.sheet e .pending = some sheet)
    (reached : g.reached (leadInstant sheet.effective g.settings.openLead) = true) :
    setOpenLead e g = openOffer e .pending (modEvent e (fun ev => { ev with openLead := none }) g) := by
  unfold setOpenLead
  rw [held]
  exact if_pos reached

theorem setOpenLead_waits {e : EventIndex} {g : Gate} {sheet : Sheet} (held : g.sheet e .pending = some sheet)
    (waits : ¬ g.reached (leadInstant sheet.effective g.settings.openLead) = true) :
    setOpenLead e g
      = modEvent e (fun ev => { ev with openLead := some (leadInstant sheet.effective g.settings.openLead) }) g := by
  unfold setOpenLead
  rw [held]
  exact if_neg waits

/-- What holds of the part itself, with a record of e changed, and after a pending sheet's open offer holds after the open
lead is set. -/
theorem setOpenLead_keeps {Q : Gate → Prop} {e : EventIndex} {g : Gate} (same : Q g)
    (dated : ∀ lead, Q (modEvent e (fun ev => { ev with openLead := lead }) g))
    (offered : Q (openOffer e .pending (modEvent e (fun ev => { ev with openLead := none }) g))) : Q (setOpenLead e g) := by
  cases held : g.sheet e .pending with
  | none => rwa [setOpenLead_none held]
  | some sheet =>
    by_cases reached : g.reached (leadInstant sheet.effective g.settings.openLead) = true
    · rwa [setOpenLead_reached held reached]
    · rw [setOpenLead_waits held reached]
      exact dated _

theorem setOpenLead_event_other {e i : EventIndex} (other : i ≠ e) (g : Gate) :
    (setOpenLead e g).event i = g.event i := by
  refine setOpenLead_keeps (Q := fun h => h.event i = g.event i) rfl (fun _ => ?_) ?_
  · rw [modEvent_event, if_neg other]
  · rw [openOffer_event, if_neg other, modEvent_event, if_neg other]

theorem setOpenLead_walker (e : EventIndex) (g : Gate) : (setOpenLead e g).walker = g.walker :=
  setOpenLead_keeps (Q := fun h => h.walker = g.walker) rfl (fun _ => rfl) (openOffer_walker ..)

theorem setOpenLead_clock (e : EventIndex) (g : Gate) : (setOpenLead e g).clock = g.clock :=
  setOpenLead_keeps (Q := fun h => h.clock = g.clock) rfl (fun _ => rfl) (openOffer_clock ..)

theorem setOpenLead_settings (e : EventIndex) (g : Gate) : (setOpenLead e g).settings = g.settings :=
  setOpenLead_keeps (Q := fun h => h.settings = g.settings) rfl (fun _ => rfl) (openOffer_settings ..)

theorem setOpenLead_prefix (e : EventIndex) (g : Gate) (z : ZoneIndex) :
    (g.zone z).fresh <+: ((setOpenLead e g).zone z).fresh :=
  setOpenLead_keeps (Q := fun h => (g.zone z).fresh <+: (h.zone z).fresh) List.prefix_rfl (fun _ => List.prefix_rfl)
    (openOffer_prefix (g := modEvent e _ g) ..)

theorem unblacked_modEvent {e i : EventIndex} {f : Event → Event} (mask : ∀ ev, (f ev).mask = ev.mask) {g : Gate}
    {z : ZoneIndex} : unblacked (modEvent e f g) i z ↔ unblacked g i z := by
  unfold unblacked
  rw [modEvent_driven, modEvent_event]
  split
  · next same =>
    subst same
    rw [mask]
  · rfl

theorem setOpenLead_zone_of_blacked {e : EventIndex} {g : Gate} {z : ZoneIndex} (blacked : ¬ unblacked g e z) :
    (setOpenLead e g).zone z = g.zone z :=
  setOpenLead_keeps (Q := fun h => h.zone z = g.zone z) rfl (fun _ => rfl)
    (openOffer_zone_of_blacked e .pending fun opens => blacked ((unblacked_modEvent (by intro; rfl)).mp opens))

/-! ## Joins -/

/-- R120: of an event record a join writes counters alone, and no other than those of joins and late legs. -/
theorem joinLeg_event (e i : EventIndex) (slot : SheetSlot) (g : Gate) :
    (joinLeg e slot g).event i = { g.event i with counters := ((joinLeg e slot g).event i).counters } := by
  have counted (k : EventCounter) (h : Gate) :
      (bumpEvent e k h).event i = { h.event i with counters := ((bumpEvent e k h).event i).counters } := by
    rw [bumpEvent_event]
    split
    · next same => subst same; rfl
    · rfl
  have entered (leg : Leg) :
      (enterLeg e slot leg g).event i = { g.event i with counters := ((enterLeg e slot leg g).event i).counters } :=
    counted .legsJoined (setLeg e slot (some leg) (mapLegs Leg.suspend g))
  have late (leg : Leg) (h : Gate) :
      (makeLate e slot leg h).event i = { h.event i with counters := ((makeLate e slot leg h).event i).counters } := by
    unfold makeLate
    split
    · exact counted .lateLegs (setLeg e slot _ h)
    · rfl
  unfold joinLeg
  split
  · unfold lateAtJoin
    dsimp only
    split
    · split
      · rw [late, entered]
      · exact entered _
    · exact entered _
  · rfl

theorem joinLeg_event_other {e i : EventIndex} (other : i ≠ e) (slot : SheetSlot) (g : Gate) :
    (joinLeg e slot g).event i = g.event i := by
  have counted (k : EventCounter) (h : Gate) : (bumpEvent e k h).event i = h.event i := by
    rw [bumpEvent_event, if_neg other]
  have late (leg : Leg) (h : Gate) : (makeLate e slot leg h).event i = h.event i := by
    unfold makeLate
    split
    · exact counted .lateLegs (setLeg e slot _ h)
    · rfl
  have entered (leg : Leg) : (enterLeg e slot leg g).event i = g.event i :=
    counted .legsJoined (setLeg e slot (some leg) (mapLegs Leg.suspend g))
  unfold joinLeg
  split
  · unfold lateAtJoin
    dsimp only
    split
    · split
      · rw [late, entered]
      · exact entered _
    · exact entered _
  · rfl

theorem joinLeg_sheet (e i : EventIndex) (slot other : SheetSlot) (g : Gate) :
    (joinLeg e slot g).sheet i other = g.sheet i other := by
  unfold Gate.sheet
  rw [joinLeg_event]
  cases other <;> rfl

theorem eventCount_joinLeg {k : EventCounter} (e i : EventIndex) (slot : SheetSlot) (g : Gate) (joined : k ≠ .legsJoined)
    (late : k ≠ .lateLegs) : eventCount (joinLeg e slot g) i k = eventCount g i k := by
  have entered (leg : Leg) : eventCount (enterLeg e slot leg g) i k = eventCount g i k := by
    unfold enterLeg
    rw [eventCount_bumpEvent, if_neg (fun both => joined both.2)]
    rfl
  have made (leg : Leg) (h : Gate) : eventCount (makeLate e slot leg h) i k = eventCount h i k := by
    unfold makeLate
    split
    · show eventCount (bumpEvent e .lateLegs (setLeg e slot _ h)) i k = _
      rw [eventCount_bumpEvent, if_neg (fun both => late both.2)]
      rfl
    · rfl
  unfold joinLeg
  split
  · unfold lateAtJoin
    dsimp only
    split
    · split
      · rw [made, entered]
      · exact entered _
    · exact entered _
  · rfl

theorem suspend_sheet (leg : Leg) : leg.suspend.sheet = leg.sheet := by
  unfold Leg.suspend
  split <;> rfl

/-- R124: a join at most suspends the other legs. -/
theorem joinLeg_leg_apart {e f : EventIndex} {slot other : SheetSlot} (apart : f ≠ e ∨ other ≠ slot) (g : Gate) :
    (joinLeg e slot g).leg f other = (g.leg f other).map Leg.suspend ∨
      (joinLeg e slot g).leg f other = g.leg f other := by
  unfold joinLeg
  split
  · next sheet _ free =>
    have entered (joined : Leg) : (enterLeg e slot joined g).leg f other = (g.leg f other).map Leg.suspend := by
      unfold enterLeg
      rw [bumpEvent_leg, setLeg_leg_other apart, mapLegs_leg]
    have late (joined : Leg) :
        (makeLate e slot joined (enterLeg e slot joined g)).leg f other = (g.leg f other).map Leg.suspend := by
      unfold makeLate
      split
      · rw [postLegLate, post_leg, bumpEvent_leg, setLeg_leg_other apart, entered]
      · rw [setLeg_leg_other apart, entered]
    left
    unfold lateAtJoin
    dsimp only
    split
    · split
      · exact late _
      · exact entered _
    · exact entered _
  · exact .inr rfl

theorem joinLeg_of_held {e : EventIndex} {slot : SheetSlot} {g : Gate} {leg : Leg} (held : g.leg e slot = some leg) :
    joinLeg e slot g = g := by
  unfold joinLeg
  rw [held]
  split
  · next absent => cases absent
  · rfl

/-- R124: a leg stays through a join, on its sheet. -/
theorem joinLeg_leg_held {e f : EventIndex} {slot other : SheetSlot} {g : Gate} {leg : Leg}
    (held : g.leg f other = some leg) :
    ∃ after, (joinLeg e slot g).leg f other = some after ∧ after.sheet = leg.sheet := by
  by_cases same : f = e ∧ other = slot
  · obtain ⟨rfl, rfl⟩ := same
    exact ⟨leg, by rw [joinLeg_of_held held, held], rfl⟩
  · rcases joinLeg_leg_apart (not_and_or.mp same) g with suspended | stays
    · exact ⟨leg.suspend, by rw [suspended, held, Option.map_some], suspend_sheet leg⟩
    · exact ⟨leg, stays.trans held, rfl⟩

theorem joinLeg_leg_absent {e f : EventIndex} {slot other : SheetSlot} {g : Gate} (apart : f ≠ e ∨ other ≠ slot)
    (absent : g.leg f other = none) : (joinLeg e slot g).leg f other = none := by
  rcases joinLeg_leg_apart apart g with suspended | stays
  · rw [suspended, absent, Option.map_none]
  · rw [stays, absent]

/-- R120: a join leaves a leg for the sheet of its slot. -/
theorem joinLeg_leg_exists {e : EventIndex} {slot : SheetSlot} {g : Gate} {sheet : Sheet}
    (held : g.sheet e slot = some sheet) :
    ∃ leg, (joinLeg e slot g).leg e slot = some leg ∧ (g.leg e slot = none → leg.sheet = sheet.number) := by
  cases free : g.leg e slot with
  | none =>
    rw [joinLeg_leg held free]
    refine ⟨_, rfl, fun _ => ?_⟩
    split <;> rfl
  | some leg =>
    obtain ⟨after, joined, -⟩ := joinLeg_leg_held (e := e) (slot := slot) free
    exact ⟨after, joined, fun absent => by cases absent⟩

/-! ## Items that stay posted -/

theorem mem_insertItem_self (item : Item) (items : List Item) : item ∈ insertItem item items := by
  induction items with
  | nil => exact .head _
  | cons held rest ih =>
    unfold insertItem
    split
    · exact .head _
    · exact .tail _ ih

theorem mem_insertItem_of_other {item held : Item} {items : List Item} (listed : held ∈ items)
    (other : item.sameKey held = false) : held ∈ insertItem item items := by
  induction items with
  | nil => cases listed
  | cons first rest ih =>
    unfold insertItem
    split
    · next same =>
      rcases List.mem_cons.mp listed with rfl | later
      · rw [other] at same
        cases same
      · exact .tail _ later
    · rcases List.mem_cons.mp listed with rfl | later
      · exact .head _
      · exact .tail _ (ih later)

end Sys2Proof.Machine

/-! PROOF. A phase change (R39–R47): the record it leaves, what its entry actions do for each pair of grant modes (Table 34),
and the statement PhaseChangeStampsDatesAndDelivers built from these. -/

namespace Sys2Proof.Machine

open Sys2Proof.Safety Sys2Proof.Claims

set_option Elab.async false

/-! ## The record -/

theorem deadlineFor_eq_table33 (ev : Event) (p : Phase) (now : Time) : ev.deadlineFor p now = table33 ev now p := by
  cases p <;> rfl

/-- R39, R42, R74: an event record with the stamps and the deadline of a change into phase p at a site time. -/
def Event.changed (p : Phase) (now : Time) (ev : Event) : Event :=
  Event.renewDeadline ev.phase now (ev.stamped p now)

theorem changed_eq (p : Phase) (now : Time) (ev : Event) : ev.changed p now = { ev with
    phase := p
    previousEntry := some ev.currentEntry
    previousPhase := some ev.phase
    currentEntry := now
    liveStamp := if p = .live ∧ ev.liveStamp = none then some now else ev.liveStamp
    resumePhase := if p = .stalled then some ev.phase else none
    deadline := if p = .stalled ∨ (ev.phase = .stalled ∧ p ≠ .closed) then ev.deadline else table33 ev now p
    openLead := if ev.phase = .preview then none else ev.openLead
    openRepeat := if ev.phase = .preview then none else ev.openRepeat
    base := if p.mode ≠ .noGrant ∧ ev.base = none then some now else ev.base
    nextStarvation :=
      if p.mode ≠ .noGrant ∧ ev.base = none then some (timeAdd now (ev.epoch.toNat * 1000)) else ev.nextStarvation } := by
  have left : ev.leavePreview = { ev with
      openLead := if ev.phase = .preview then none else ev.openLead
      openRepeat := if ev.phase = .preview then none else ev.openRepeat } := by
    unfold Event.leavePreview
    split <;> rfl
  have begun (at_ : Event) : Event.startStarvation now at_ = { at_ with
      base := if at_.phase.mode ≠ .noGrant ∧ at_.base = none then some now else at_.base
      nextStarvation := if at_.phase.mode ≠ .noGrant ∧ at_.base = none then some (timeAdd now (at_.epoch.toNat * 1000))
        else at_.nextStarvation } := by
    unfold Event.startStarvation
    split <;> rfl
  have renewed (at_ : Event) : Event.renewDeadline ev.phase now at_ = { at_ with
      deadline := if at_.phase = .stalled ∨ (ev.phase = .stalled ∧ at_.phase ≠ .closed) then at_.deadline
        else table33 at_ now at_.phase } := by
    unfold Event.renewDeadline
    rw [deadlineFor_eq_table33]
    split <;> rfl
  have frame (at_ : Event) (start : at_.scheduledStart = ev.scheduledStart) (preview : at_.previewLength = ev.previewLength)
      (extra : at_.extraLimit = ev.extraLimit) (grace : at_.grace = ev.grace) : table33 at_ now p = table33 ev now p := by
    cases p <;> simp only [table33, start, preview, extra, grace]
  unfold Event.changed Event.stamped
  rw [renewed, begun, left, frame _ rfl rfl rfl rfl]
  rfl

/-- The part once the stamps have been written, when the entry actions begin. -/
def stampedGate (e : EventIndex) (p : Phase) (g : Gate) : Gate :=
  modEvent e (Event.stamped p g.clock.siteTime) g

/-- The part once the entry actions have been taken. -/
def actedGate (e : EventIndex) (p : Phase) (g : Gate) : Gate :=
  entryActions e (g.event e).phase.mode p.mode (stampedGate e p g)

theorem changePhase_eq (e : EventIndex) (p : Phase) (g : Gate) :
    changePhase e p g = postPhase e (g.event e).phase.number p.number
      (modEvent e (Event.renewDeadline (g.event e).phase g.clock.siteTime) (actedGate e p g)) := rfl

/-- Apart from sheets, open instants and counters a phase change leaves the record with its stamps and its deadline. -/
theorem changePhase_record (e : EventIndex) (p : Phase) (g : Gate) :
    ((changePhase e p g).event e).withoutDelivery = ((g.event e).changed p g.clock.siteTime).withoutDelivery := by
  have renewed (left : Phase) (now : Time) (ev : Event) : (Event.renewDeadline left now ev).withoutDelivery
      = Event.renewDeadline left now ev.withoutDelivery := by
    unfold Event.renewDeadline
    split
    · next stays => exact (if_pos stays).symm
    · next renews => exact (if_neg renews).symm
  rw [changePhase_eq, postPhase, post_event, modEvent_event_same, renewed, actedGate, entryActions_withoutDelivery, ← renewed,
    stampedGate, modEvent_event_same]
  rfl

/-- A renewed deadline is the deadline alone. -/
theorem renewDeadline_frame (left : Phase) (now : Time) (ev : Event) :
    Event.renewDeadline left now ev = { ev with deadline := (Event.renewDeadline left now ev).deadline } := by
  unfold Event.renewDeadline
  split <;> rfl

/-- The sheets, open instants and counters after a phase change are those after its entry actions. -/
theorem changePhase_event (e : EventIndex) (p : Phase) (g : Gate) : (changePhase e p g).event e
    = { (actedGate e p g).event e with deadline := ((changePhase e p g).event e).deadline } := by
  rw [changePhase_eq, postPhase, post_event, modEvent_event_same]
  exact renewDeadline_frame ..

theorem changePhase_zone (e : EventIndex) (p : Phase) (g : Gate) (z : ZoneIndex) :
    (changePhase e p g).zone z = (actedGate e p g).zone z := rfl

theorem changePhase_walker (e : EventIndex) (p : Phase) (g : Gate) :
    (changePhase e p g).walker = (actedGate e p g).walker := rfl

theorem changePhase_zones (e : EventIndex) (p : Phase) (g : Gate) :
    (changePhase e p g).zones = (actedGate e p g).zones := rfl

theorem changePhase_leg (e f : EventIndex) (p : Phase) (slot : SheetSlot) (g : Gate) :
    (changePhase e p g).leg f slot = (actedGate e p g).leg f slot := rfl

theorem changePhase_status (e : EventIndex) (p : Phase) (g : Gate) : (changePhase e p g).command.status
    = insertItem
        { kind := .phase, object := eventObject e,
          detail := [(g.event e).phase.number, p.number] ++ field 4 (actedGate e p g).clock.siteTime.toNat }
        (actedGate e p g).command.status := rfl

theorem stamped_delivery (p : Phase) (now : Time) (ev : Event) : ev.stamped p now = { ev.stamped p now with
    current := ev.current, pendingSheet := ev.pendingSheet, counters := ev.counters, mask := ev.mask
    openLead := if ev.phase = .preview then none else ev.openLead
    openRepeat := if ev.phase = .preview then none else ev.openRepeat } := by
  unfold Event.stamped Event.startStarvation Event.leavePreview
  split <;> split <;> rfl

theorem stampedGate_event (e : EventIndex) (p : Phase) (g : Gate) :
    (stampedGate e p g).event e = (g.event e).stamped p g.clock.siteTime := by
  rw [stampedGate, modEvent_event_same]

theorem stampedGate_sheet (e i : EventIndex) (p : Phase) (slot : SheetSlot) (g : Gate) :
    (stampedGate e p g).sheet i slot = g.sheet i slot := by
  unfold Gate.sheet stampedGate
  rw [modEvent_event]
  split
  · next same => rw [same, stamped_sheet]
  · rfl

theorem unblacked_stampedGate {e i : EventIndex} {p : Phase} {g : Gate} {z : ZoneIndex} :
    unblacked (stampedGate e p g) i z ↔ unblacked g i z :=
  unblacked_modEvent (fun ev => by rw [stamped_delivery])

/-! ## Entry into a NONE phase (R47) -/

theorem purgeFreshAll_eq (p : FreshEntry → Bool) (g : Gate) :
    purgeFreshAll p g = onZones (fun _ zone => { zone with fresh := zone.fresh.filter fun entry => !p entry }) g :=
  foldZones_eq _ (purgeFresh p) g (fun _ _ => rfl)

theorem purgeSweepAll_eq (p : Notice → Bool) (g : Gate) :
    purgeSweepAll p g = onZones (fun _ zone =>
      Zone.countBy .sweepCellsPurged (zone.sweep.length - (zone.sweep.filter fun notice => !p notice).length)
        { zone with sweep := zone.sweep.filter fun notice => !p notice }) g :=
  foldZones_eq _ (purgeSweep p) g (fun _ _ => rfl)

theorem enterNone_zone_fresh (e : EventIndex) (g : Gate) (z : ZoneIndex) : ((enterNone e g).zone z).fresh
    = ((removeSweep e g).zone z).fresh.filter fun entry => !decide (entry.event = e) := by
  rw [enterNone, purgeSweepAll_eq, purgeFreshAll_eq, onZones_zone]
  show ((onZones _ (removeSweep e g)).zone z).fresh = _
  rw [onZones_zone]

theorem enterNone_zone_sweep (e : EventIndex) (g : Gate) (z : ZoneIndex) : ((enterNone e g).zone z).sweep
    = ((purgeFreshAll (fun entry => entry.event = e) (removeSweep e g)).zone z).sweep.filter
        fun cell => !decide (cell.event = e) := by
  rw [enterNone, purgeSweepAll_eq, onZones_zone]
  rfl

theorem enterNone_work_gone (e : EventIndex) (g : Gate) (z : ZoneIndex) :
    (∀ entry ∈ ((enterNone e g).zone z).fresh, entry.event ≠ e) ∧
      ∀ cell ∈ ((enterNone e g).zone z).sweep, cell.event ≠ e := by
  refine ⟨fun entry listed => ?_, fun cell listed => ?_⟩
  · rw [enterNone_zone_fresh] at listed
    simpa using (List.mem_filter.mp listed).2
  · rw [enterNone_zone_sweep] at listed
    simpa using (List.mem_filter.mp listed).2

/-! ## Entry into a LISTED phase (R45, R72) -/

theorem judgePending_none {e : EventIndex} {g : Gate} (empty : g.sheet e .pending = none) : judgePending e g = g := by
  unfold judgePending
  rw [empty]

theorem judgePending_offered {e : EventIndex} {g : Gate} {sheet : Sheet} (held : g.sheet e .pending = some sheet)
    (offered : OpenlyOffered sheet) : judgePending e g
      = post .previewTail (eventObject e) (field 4 sheet.number.toNat ++ [0, 0]) (bumpEvent e .previewTails g) := by
  unfold judgePending
  rw [held]
  exact if_pos offered

theorem judgePending_event_unoffered {e : EventIndex} {g : Gate} {sheet : Sheet} (held : g.sheet e .pending = some sheet)
    (unoffered : ¬ OpenlyOffered sheet) : (judgePending e g).event e = { g.event e with
      pendingSheet := some { sheet with cls := .listedClass }
      openLead := if sheet.cls = .listedClass then (g.event e).openLead else none } := by
  have pending : (g.event e).pendingSheet = some sheet := held
  unfold judgePending
  rw [held]
  dsimp only
  rw [if_neg unoffered]
  split
  · next unlisted =>
    rw [modEvent_event_same, if_neg (by rintro same; simp [same] at unlisted)]
    rfl
  · next listed =>
    have same : sheet.cls = .listedClass := by
      cases cls : sheet.cls <;> simp [cls] at listed ⊢
    have whole : { sheet with cls := SheetClass.listedClass } = sheet := by rw [← same]
    rw [if_pos same, whole, ← pending]

theorem judgePending_event_other {e i : EventIndex} (other : i ≠ e) (g : Gate) :
    (judgePending e g).event i = g.event i := by
  unfold judgePending
  split
  · rfl
  · split
    · rw [post_event, bumpEvent_event, if_neg other]
    · split
      · rw [modEvent_event, if_neg other]
      · rfl

theorem judgePending_leg (e i : EventIndex) (slot : SheetSlot) (g : Gate) :
    (judgePending e g).leg i slot = g.leg i slot := by
  unfold judgePending
  split
  · rfl
  · split
    · rfl
    · split <;> rfl

/-- The part when the pending sheet is judged: both legs have joined. -/
def joinedGate (e : EventIndex) (g : Gate) : Gate :=
  joinLeg e .pending (joinLeg e .current g)

theorem enterListed_eq (e : EventIndex) (g : Gate) : enterListed e g = judgePending e (joinedGate e g) := rfl

theorem joinedGate_event (e i : EventIndex) (g : Gate) :
    (joinedGate e g).event i = { g.event i with counters := ((joinedGate e g).event i).counters } := by
  unfold joinedGate
  rw [joinLeg_event e i .pending (joinLeg e .current g), joinLeg_event e i .current g]

theorem joinedGate_event_other {e i : EventIndex} (other : i ≠ e) (g : Gate) :
    (joinedGate e g).event i = g.event i := by
  unfold joinedGate
  rw [joinLeg_event_other other, joinLeg_event_other other]

theorem joinedGate_sheet (e i : EventIndex) (slot : SheetSlot) (g : Gate) :
    (joinedGate e g).sheet i slot = g.sheet i slot := by
  unfold joinedGate
  rw [joinLeg_sheet, joinLeg_sheet]

theorem eventCount_joinedGate (e i : EventIndex) (g : Gate) :
    eventCount (joinedGate e g) i .previewTails = eventCount g i .previewTails := by
  unfold joinedGate
  rw [eventCount_joinLeg e i .pending _ (by decide) (by decide), eventCount_joinLeg e i .current _ (by decide) (by decide)]

theorem enterListed_leg {e : EventIndex} {slot : SheetSlot} {g : Gate} {sheet : Sheet}
    (held : g.sheet e slot = some sheet) :
    ∃ leg, (enterListed e g).leg e slot = some leg ∧ (g.leg e slot = none → leg.sheet = sheet.number) := by
  rw [enterListed_eq, judgePending_leg]
  cases slot with
  | current =>
    obtain ⟨leg, joined, fits⟩ := joinLeg_leg_exists held
    obtain ⟨after, stays, same⟩ := joinLeg_leg_held (e := e) (slot := .pending) joined
    exact ⟨after, stays, fun absent => same.trans (fits absent)⟩
  | pending =>
    obtain ⟨leg, joined, fits⟩ := joinLeg_leg_exists (g := joinLeg e .current g)
      ((joinLeg_sheet e e .current .pending g).trans held)
    exact ⟨leg, joined, fun absent => fits (joinLeg_leg_absent (.inr (by decide)) absent)⟩

/-! ## Entry into PREVIEW (R46, R70, R71) -/

theorem classPendingOpen_none {e : EventIndex} {g : Gate} (empty : g.sheet e .pending = none) :
    classPendingOpen e g = g := by
  unfold classPendingOpen
  rw [empty]

theorem classPendingOpen_some {e : EventIndex} {g : Gate} {sheet : Sheet} (held : g.sheet e .pending = some sheet) :
    classPendingOpen e g = modEvent e (Event.setSheet .pending (some { sheet with cls := .openClass })) g := by
  unfold classPendingOpen
  rw [held]

/-- R46: with no pending sheet the entry into PREVIEW offers the current sheet and dates the next offer. -/
theorem enterOpen_of_none {e : EventIndex} {g : Gate} (empty : g.sheet e .pending = none) :
    enterOpen e g = setOpenRepeat e (openOffer e .current g) := by
  have stays : (openOffer e .current g).sheet e .pending = none := by
    unfold Gate.sheet
    rw [openOffer_event, if_pos rfl]
    exact empty
  rw [enterOpen, classPendingOpen_none stays, setOpenLead_none stays]

/-- The part when the open lead of a pending sheet is set: the current sheet is offered and the pending one classed. -/
def classedGate (e : EventIndex) (sheet : Sheet) (g : Gate) : Gate :=
  modEvent e (Event.setSheet .pending (some { sheet with cls := .openClass })) (openOffer e .current g)

theorem enterOpen_of_some {e : EventIndex} {g : Gate} {sheet : Sheet} (held : g.sheet e .pending = some sheet) :
    enterOpen e g = setOpenRepeat e (setOpenLead e (classedGate e sheet g)) := by
  have stays : (openOffer e .current g).sheet e .pending = some sheet := by
    unfold Gate.sheet
    rw [openOffer_event, if_pos rfl]
    exact held
  rw [enterOpen, classPendingOpen_some stays]
  rfl

theorem classedGate_event (e : EventIndex) (sheet : Sheet) (g : Gate) : (classedGate e sheet g).event e = { g.event e with
    current := (g.event e).current.map Sheet.offered
    pendingSheet := some { sheet with cls := .openClass } } := by
  rw [classedGate, modEvent_event_same, openOffer_event, if_pos rfl]
  rfl

theorem classedGate_sheet (e : EventIndex) (sheet : Sheet) (g : Gate) :
    (classedGate e sheet g).sheet e .pending = some { sheet with cls := .openClass } := by
  unfold Gate.sheet
  rw [classedGate_event]
  rfl

theorem unblacked_openOffer {e i : EventIndex} {slot : SheetSlot} {g : Gate} {z : ZoneIndex} :
    unblacked (openOffer e slot g) i z ↔ unblacked g i z := by
  have driven : (openOffer e slot g).driven z = g.driven z := by
    rw [openOffer_frame]
    rfl
  unfold unblacked
  rw [driven, openOffer_event]
  split
  · next same => cases slot <;> rw [same] <;> rfl
  · rfl

theorem unblacked_classedGate {e : EventIndex} {sheet : Sheet} {g : Gate} {z : ZoneIndex} :
    unblacked (classedGate e sheet g) e z ↔ unblacked g e z :=
  (unblacked_modEvent (fun _ => by rfl)).trans unblacked_openOffer

theorem classedGate_settings (e : EventIndex) (sheet : Sheet) (g : Gate) :
    (classedGate e sheet g).settings = g.settings :=
  openOffer_settings ..

theorem classedGate_clock (e : EventIndex) (sheet : Sheet) (g : Gate) : (classedGate e sheet g).clock = g.clock :=
  openOffer_clock ..

theorem setOpenRepeat_event (e : EventIndex) (g : Gate) : (setOpenRepeat e g).event e = { g.event e with
    openRepeat := some (timeAdd g.clock.siteTime (g.settings.repeatInterval.toNat * 1000)) } := by
  rw [setOpenRepeat, modEvent_event_same]

theorem enterOpen_event_of_none {e : EventIndex} {g : Gate} (empty : g.sheet e .pending = none) :
    (enterOpen e g).event e = { g.event e with
      current := (g.event e).current.map Sheet.offered
      openRepeat := some (timeAdd g.clock.siteTime (g.settings.repeatInterval.toNat * 1000)) } := by
  rw [enterOpen_of_none empty, setOpenRepeat_event, openOffer_event, if_pos rfl, openOffer_clock, openOffer_settings]
  rfl

theorem reached_congr {g h : Gate} (clock : h.clock = g.clock) (t : Time) : h.reached t = g.reached t := by
  unfold Gate.reached
  rw [clock]

theorem reached_iff {g : Gate} {t : Time} : g.reached t = true ↔ Reached g t := by
  simp [Gate.reached, Reached]

section PendingSheet

variable {e : EventIndex} {g : Gate} {sheet : Sheet}

theorem setOpenLead_classedGate_waits
    (waits : ¬ Reached g (leadInstant sheet.effective g.settings.openLead)) :
    setOpenLead e (classedGate e sheet g)
      = modEvent e (fun ev => { ev with openLead := some (leadInstant sheet.effective g.settings.openLead) })
          (classedGate e sheet g) := by
  rw [setOpenLead_waits (classedGate_sheet e sheet g), classedGate_settings]
  rw [classedGate_settings, reached_congr (classedGate_clock e sheet g)]
  exact fun reached => waits (reached_iff.mp reached)

theorem setOpenLead_classedGate_reached
    (reached : Reached g (leadInstant sheet.effective g.settings.openLead)) :
    setOpenLead e (classedGate e sheet g)
      = openOffer e .pending (modEvent e (fun ev => { ev with openLead := none }) (classedGate e sheet g)) := by
  rw [setOpenLead_reached (classedGate_sheet e sheet g)]
  rw [classedGate_settings, reached_congr (classedGate_clock e sheet g)]
  exact reached_iff.mpr reached

theorem undated_sheet : (modEvent e (fun ev => { ev with openLead := none }) (classedGate e sheet g)).sheet e .pending
    = some { sheet with cls := .openClass } := by
  unfold Gate.sheet
  rw [modEvent_event_same, classedGate_event]
  rfl

theorem enterOpen_event_of_waits (held : g.sheet e .pending = some sheet)
    (waits : ¬ Reached g (leadInstant sheet.effective g.settings.openLead)) :
    (enterOpen e g).event e = { g.event e with
      current := (g.event e).current.map Sheet.offered
      pendingSheet := some { sheet with cls := .openClass }
      openLead := some (leadInstant sheet.effective g.settings.openLead)
      openRepeat := some (timeAdd g.clock.siteTime (g.settings.repeatInterval.toNat * 1000)) } := by
  rw [enterOpen_of_some held, setOpenRepeat_event, setOpenLead_clock, setOpenLead_settings, classedGate_clock,
    classedGate_settings, setOpenLead_classedGate_waits waits, modEvent_event_same, classedGate_event]

theorem enterOpen_event_of_reached (held : g.sheet e .pending = some sheet)
    (reached : Reached g (leadInstant sheet.effective g.settings.openLead)) :
    (enterOpen e g).event e = { g.event e with
      current := (g.event e).current.map Sheet.offered
      pendingSheet := some { sheet with cls := .openClass, mark := true }
      openLead := none
      openRepeat := some (timeAdd g.clock.siteTime (g.settings.repeatInterval.toNat * 1000)) } := by
  rw [enterOpen_of_some held, setOpenRepeat_event, setOpenLead_clock, setOpenLead_settings, classedGate_clock,
    classedGate_settings, setOpenLead_classedGate_reached reached, openOffer_event, if_pos rfl, undated_sheet,
    modEvent_event_same, classedGate_event]
  rfl

theorem enterOpen_offered_pending (held : g.sheet e .pending = some sheet)
    (reached : Reached g (leadInstant sheet.effective g.settings.openLead)) {z : ZoneIndex} (unmasked : unblacked g e z) :
    Offered (enterOpen e g) e sheet.number z := by
  rw [enterOpen_of_some held, setOpenLead_classedGate_reached reached]
  exact openOffer_offered (sheet := { sheet with cls := .openClass }) undated_sheet
    ((unblacked_modEvent (fun _ => by rfl)).mpr (unblacked_classedGate.mpr unmasked))

end PendingSheet

theorem enterOpen_walker (e : EventIndex) (g : Gate) : (enterOpen e g).walker = g.walker := by
  cases held : g.sheet e .pending with
  | none =>
    rw [enterOpen_of_none held]
    exact openOffer_walker ..
  | some sheet =>
    rw [enterOpen_of_some held]
    exact (setOpenLead_walker ..).trans (openOffer_walker ..)

/-- R70, R71: whatever the pending sheet, the current sheet is offered and the next open repeat dated. -/
theorem enterOpen_current (e : EventIndex) (g : Gate) :
    ((enterOpen e g).event e).current = (g.event e).current.map Sheet.offered ∧
      ((enterOpen e g).event e).openRepeat
        = some (timeAdd g.clock.siteTime (g.settings.repeatInterval.toNat * 1000)) := by
  cases held : g.sheet e .pending with
  | none =>
    rw [enterOpen_event_of_none held]
    exact ⟨rfl, rfl⟩
  | some sheet =>
    by_cases reached : Reached g (leadInstant sheet.effective g.settings.openLead)
    · rw [enterOpen_event_of_reached held reached]
      exact ⟨rfl, rfl⟩
    · rw [enterOpen_event_of_waits held reached]
      exact ⟨rfl, rfl⟩

theorem enterOpen_zone_of_blacked {e : EventIndex} {g : Gate} {z : ZoneIndex} (blacked : ¬ unblacked g e z) :
    (enterOpen e g).zone z = g.zone z := by
  have first := openOffer_zone_of_blacked e .current blacked
  cases held : g.sheet e .pending with
  | none =>
    rw [enterOpen_of_none held]
    exact first
  | some sheet =>
    rw [enterOpen_of_some held]
    exact (setOpenLead_zone_of_blacked (fun opens => blacked (unblacked_classedGate.mp opens))).trans first

theorem enterOpen_offered_current {e : EventIndex} {g : Gate} {sheet : Sheet} {z : ZoneIndex}
    (current : g.sheet e .current = some sheet) (unmasked : unblacked g e z) :
    Offered (enterOpen e g) e sheet.number z := by
  have first := openOffer_offered current unmasked
  cases held : g.sheet e .pending with
  | none =>
    rw [enterOpen_of_none held]
    exact first
  | some pending =>
    rw [enterOpen_of_some held]
    exact offered_of_prefix (setOpenLead_prefix e (classedGate e pending g) z) first

theorem enterOpen_event_other {e i : EventIndex} (other : i ≠ e) (g : Gate) : (enterOpen e g).event i = g.event i := by
  have first : (openOffer e .current g).event i = g.event i := by rw [openOffer_event, if_neg other]
  cases held : g.sheet e .pending with
  | none =>
    rw [enterOpen_of_none held, setOpenRepeat, modEvent_event, if_neg other, first]
  | some sheet =>
    rw [enterOpen_of_some held, setOpenRepeat, modEvent_event, if_neg other, setOpenLead_event_other other, classedGate,
      modEvent_event, if_neg other, first]

/-! ## The entry actions by grant mode (Table 34) -/

theorem actedGate_of_same_mode {e : EventIndex} {p : Phase} {g : Gate} (same : (g.event e).phase.mode = p.mode) :
    actedGate e p g = stampedGate e p g := by
  unfold actedGate
  rw [same]
  cases p.mode <;> rfl

theorem actedGate_of_none_entered {e : EventIndex} {p : Phase} {g : Gate} (left : (g.event e).phase.mode ≠ .noGrant)
    (entered : p.mode = .noGrant) : actedGate e p g = enterNone e (stampedGate e p g) := by
  unfold actedGate
  rw [entered]
  cases mode : (g.event e).phase.mode with
  | noGrant => exact absurd mode left
  | openGrant => rfl
  | listedGrant => rfl

theorem actedGate_of_listed_entered {e : EventIndex} {p : Phase} {g : Gate} (left : (g.event e).phase.mode ≠ .listedGrant)
    (entered : p.mode = .listedGrant) : actedGate e p g = enterListed e (stampedGate e p g) := by
  unfold actedGate
  rw [entered]
  cases mode : (g.event e).phase.mode with
  | noGrant => rfl
  | openGrant => rfl
  | listedGrant => exact absurd mode left

theorem actedGate_of_preview_entered {e : EventIndex} {g : Gate} (left : (g.event e).phase.mode = .noGrant) :
    actedGate e .preview g = enterOpen e (stampedGate e .preview g) := by
  unfold actedGate
  rw [left]
  rfl

theorem entryActions_event_other {e i : EventIndex} (other : i ≠ e) (left entered : GrantMode) (g : Gate) :
    (entryActions e left entered g).event i = g.event i := by
  have listed : (enterListed e g).event i = g.event i := by
    rw [enterListed_eq, judgePending_event_other other, joinedGate_event_other other]
  cases left <;> cases entered
  case noGrant.openGrant => exact enterOpen_event_other other g
  case noGrant.listedGrant => exact listed
  case openGrant.listedGrant => exact listed
  case openGrant.noGrant => exact enterNone_event e i g
  case listedGrant.noGrant => exact enterNone_event e i g
  all_goals rfl

theorem changePhase_event_other {e i : EventIndex} (other : i ≠ e) (p : Phase) (g : Gate) :
    (changePhase e p g).event i = g.event i := by
  rw [changePhase_eq, postPhase, post_event, modEvent_event, if_neg other, actedGate, entryActions_event_other other,
    stampedGate, modEvent_event, if_neg other]

theorem enterListed_openInstants {e : EventIndex} {g : Gate} (gone : (g.event e).openLead = none) :
    ((enterListed e g).event e).openLead = none ∧ ((enterListed e g).event e).openRepeat = (g.event e).openRepeat := by
  have joined : ((joinedGate e g).event e).openLead = none ∧
      ((joinedGate e g).event e).openRepeat = (g.event e).openRepeat := by
    rw [joinedGate_event]
    exact ⟨gone, rfl⟩
  rw [enterListed_eq]
  cases held : (joinedGate e g).sheet e .pending with
  | none => rwa [judgePending_none held]
  | some sheet =>
    by_cases offered : OpenlyOffered sheet
    · rw [judgePending_offered held offered, post_event, bumpEvent_event, if_pos rfl]
      exact joined
    · rw [judgePending_event_unoffered held offered]
      refine ⟨?_, joined.2⟩
      dsimp only
      rw [joined.1, ite_self]

/-! ## What a phase change does, by the modes left and entered -/

section Changes

variable {e : EventIndex} {p : Phase} {g : Gate}

theorem actedGate_clock (e : EventIndex) (p : Phase) (g : Gate) : (actedGate e p g).clock = g.clock :=
  (entryActions_delivers e (g.event e).phase.mode p.mode (stampedGate e p g)).clock

theorem changePhase_posts (e : EventIndex) (p : Phase) (g : Gate) : (changePhase e p g).command.status
    = insertItem
        { kind := .phase, object := eventObject e,
          detail := [(g.event e).phase.number, p.number] ++ field 4 g.clock.siteTime.toNat }
        (actedGate e p g).command.status := by
  rw [changePhase_status, actedGate_clock]

theorem changePhase_base (e : EventIndex) (p : Phase) (g : Gate) :
    ((changePhase e p g).event e).base
        = (if p.mode ≠ .noGrant ∧ (g.event e).base = none then some g.clock.siteTime else (g.event e).base) ∧
      ((changePhase e p g).event e).nextStarvation
        = if p.mode ≠ .noGrant ∧ (g.event e).base = none then
            some (timeAdd g.clock.siteTime ((g.event e).epoch.toNat * 1000))
          else (g.event e).nextStarvation := by
  have record := changePhase_record e p g
  rw [changed_eq] at record
  exact ⟨congrArg Event.base record, congrArg Event.nextStarvation record⟩

theorem changePhase_of_same_mode (same : (g.event e).phase.mode = p.mode) :
    (changePhase e p g).zones = g.zones ∧ (changePhase e p g).walker = g.walker := by
  rw [changePhase_zones, changePhase_walker, actedGate_of_same_mode same]
  exact ⟨rfl, rfl⟩

theorem changePhase_work_gone (left : (g.event e).phase.mode ≠ .noGrant) (entered : p.mode = .noGrant) :
    (∀ slot, (changePhase e p g).leg e slot = none) ∧
      ∀ z, (∀ entry ∈ ((changePhase e p g).zone z).fresh, entry.event ≠ e) ∧
        ∀ cell ∈ ((changePhase e p g).zone z).sweep, cell.event ≠ e := by
  refine ⟨fun slot => ?_, fun z => ?_⟩
  · rw [changePhase_leg, actedGate_of_none_entered left entered, enterNone_leg]
  · rw [changePhase_zone, actedGate_of_none_entered left entered]
    exact enterNone_work_gone ..

/-- Between phases of one mode, and into a phase that grants nothing, the entry actions leave the record. -/
theorem actedGate_event_of_kept (kept : (g.event e).phase.mode = p.mode ∨ p.mode = .noGrant) :
    (actedGate e p g).event e = (g.event e).stamped p g.clock.siteTime := by
  by_cases same : (g.event e).phase.mode = p.mode
  · rw [actedGate_of_same_mode same, stampedGate_event]
  · have entered := kept.resolve_left same
    rw [actedGate_of_none_entered (fun left => same (left.trans entered.symm)) entered, enterNone_event, stampedGate_event]

theorem changePhase_sheets_of_kept (kept : (g.event e).phase.mode = p.mode ∨ p.mode = .noGrant) :
    ((changePhase e p g).event e).current = (g.event e).current ∧
      ((changePhase e p g).event e).pendingSheet = (g.event e).pendingSheet := by
  rw [changePhase_event, actedGate_event_of_kept kept, stamped_delivery]
  exact ⟨rfl, rfl⟩

/-- R70, R71: leaving PREVIEW an event loses its open instants. -/
theorem changePhase_openInstants (left : (g.event e).phase = .preview) :
    ((changePhase e p g).event e).openLead = none ∧ ((changePhase e p g).event e).openRepeat = none := by
  have stamped : ((stampedGate e p g).event e).openLead = none ∧ ((stampedGate e p g).event e).openRepeat = none := by
    rw [stampedGate_event, stamped_delivery]
    exact ⟨if_pos left, if_pos left⟩
  rw [changePhase_event]
  by_cases entered : p.mode = .listedGrant
  · have acted := enterListed_openInstants stamped.1
    rw [← actedGate_of_listed_entered (by rw [left]; decide) entered] at acted
    exact ⟨acted.1, acted.2.trans stamped.2⟩
  · have kept : (g.event e).phase.mode = p.mode ∨ p.mode = .noGrant := by
      rw [left]
      cases mode : p.mode with
      | noGrant => exact .inr rfl
      | openGrant => exact .inl rfl
      | listedGrant => exact absurd mode entered
    rw [actedGate_event_of_kept kept, ← stampedGate_event]
    exact stamped

/-! ### Entry into a LISTED phase -/

section Listed

variable (left : (g.event e).phase.mode ≠ .listedGrant) (entered : p.mode = .listedGrant)
include left entered

theorem changePhase_leg_listed {slot : SheetSlot} {sheet : Sheet} (held : g.sheet e slot = some sheet) :
    ∃ leg, (changePhase e p g).leg e slot = some leg ∧ (g.leg e slot = none → leg.sheet = sheet.number) := by
  rw [changePhase_leg, actedGate_of_listed_entered left entered]
  exact enterListed_leg (by rwa [stampedGate_sheet])

theorem changePhase_listed_eq :
    ∃ joined : Gate, actedGate e p g = judgePending e joined ∧
      (joined.event e).current = (g.event e).current ∧ (joined.event e).pendingSheet = (g.event e).pendingSheet ∧
      eventCount joined e .previewTails = eventCount g e .previewTails := by
  refine ⟨joinedGate e (stampedGate e p g), ?_, ?_, ?_, ?_⟩
  · rw [actedGate_of_listed_entered left entered, enterListed_eq]
  · rw [joinedGate_event, stampedGate_event, stamped_delivery]
  · rw [joinedGate_event, stampedGate_event, stamped_delivery]
  · rw [eventCount_joinedGate]
    unfold eventCount
    rw [stampedGate_event, stamped_delivery]

theorem changePhase_current_listed : ((changePhase e p g).event e).current = (g.event e).current := by
  obtain ⟨joined, acted, current, pending, -⟩ := changePhase_listed_eq left entered
  rw [changePhase_event, acted, ← current]
  cases held : joined.sheet e .pending with
  | none => rw [judgePending_none held]
  | some sheet =>
    by_cases offered : OpenlyOffered sheet
    · rw [judgePending_offered held offered, post_event, bumpEvent_event, if_pos rfl]
      rfl
    · rw [judgePending_event_unoffered held offered]

theorem changePhase_pending_none_listed (empty : (g.event e).pendingSheet = none) :
    ((changePhase e p g).event e).pendingSheet = none ∧
      eventCount (changePhase e p g) e .previewTails = eventCount g e .previewTails := by
  obtain ⟨joined, acted, -, pending, count⟩ := changePhase_listed_eq left entered
  unfold eventCount at count ⊢
  rw [changePhase_event, acted, judgePending_none (pending.trans empty)]
  exact ⟨pending.trans empty, count⟩

theorem changePhase_pending_offered {sheet : Sheet} (held : (g.event e).pendingSheet = some sheet)
    (offered : OpenlyOffered sheet) :
    ((changePhase e p g).event e).pendingSheet = some sheet ∧
      eventCount (changePhase e p g) e .previewTails = countUp (eventCount g e .previewTails) 1 ∧
      ({ kind := .previewTail, object := eventObject e, detail := field 4 sheet.number.toNat ++ [0, 0] } : Item)
        ∈ (changePhase e p g).command.status := by
  obtain ⟨joined, acted, -, pending, count⟩ := changePhase_listed_eq left entered
  have judged := judgePending_offered (pending.trans held) offered
  have counted : eventCount (changePhase e p g) e .previewTails
      = eventCount (bumpEvent e .previewTails joined) e .previewTails := by
    unfold eventCount
    rw [changePhase_event, acted, judged, post_event]
  refine ⟨?_, ?_, ?_⟩
  · rw [changePhase_event, acted, judged, post_event, bumpEvent_event, if_pos rfl]
    exact pending.trans held
  · rw [counted, eventCount_bumpEvent, if_pos ⟨rfl, rfl⟩, count]
  · rw [changePhase_posts, acted, judged, post_status]
    exact mem_insertItem_of_other (mem_insertItem_self ..) rfl

theorem changePhase_pending_unoffered {sheet : Sheet} (held : (g.event e).pendingSheet = some sheet)
    (unoffered : ¬ OpenlyOffered sheet) :
    ((changePhase e p g).event e).pendingSheet = some { sheet with cls := .listedClass } ∧
      (sheet.cls ≠ .listedClass → ((changePhase e p g).event e).openLead = none) ∧
      eventCount (changePhase e p g) e .previewTails = eventCount g e .previewTails := by
  obtain ⟨joined, acted, -, pending, count⟩ := changePhase_listed_eq left entered
  have judged := judgePending_event_unoffered (pending.trans held) unoffered
  unfold eventCount at count ⊢
  rw [changePhase_event, acted, judged]
  exact ⟨rfl, fun unlisted => if_neg unlisted, count⟩

end Listed

/-! ### Entry into PREVIEW -/

section Preview

variable (left : (g.event e).phase.mode = .noGrant)
include left

theorem changePhase_preview_event :
    (changePhase e .preview g).event e = { (enterOpen e (stampedGate e .preview g)).event e with
      deadline := ((changePhase e .preview g).event e).deadline } := by
  rw [changePhase_event, actedGate_of_preview_entered left]

theorem stampedGate_preview_event : (stampedGate e .preview g).event e
    = { (stampedGate e .preview g).event e with
      current := (g.event e).current, pendingSheet := (g.event e).pendingSheet, openLead := (g.event e).openLead } := by
  have apart : (g.event e).phase ≠ .preview := by
    rintro same
    rw [same] at left
    cases left
  rw [stampedGate_event, stamped_delivery]
  dsimp only
  rw [if_neg apart]

theorem changePhase_preview_current :
    ((changePhase e .preview g).event e).openRepeat
        = some (timeAdd g.clock.siteTime (g.settings.repeatInterval.toNat * 1000)) ∧
      (changePhase e .preview g).walker = g.walker ∧
      ((changePhase e .preview g).event e).current = (g.event e).current.map Sheet.offered := by
  obtain ⟨current, again⟩ := enterOpen_current e (stampedGate e .preview g)
  rw [stampedGate_preview_event left] at current
  rw [changePhase_preview_event left, changePhase_walker, actedGate_of_preview_entered left, enterOpen_walker]
  exact ⟨again, rfl, current⟩

theorem changePhase_preview_offered {sheet : Sheet} {z : ZoneIndex} (held : (g.event e).current = some sheet)
    (unmasked : unblacked g e z) : Offered (changePhase e .preview g) e sheet.number z := by
  have offered := enterOpen_offered_current ((stampedGate_sheet e e .preview .current g).trans held)
    (unblacked_stampedGate.mpr unmasked)
  rwa [← actedGate_of_preview_entered left] at offered

theorem changePhase_preview_blacked {z : ZoneIndex} (blacked : ¬ unblacked g e z) :
    (changePhase e .preview g).zone z = g.zone z := by
  rw [changePhase_zone, actedGate_of_preview_entered left,
    enterOpen_zone_of_blacked (fun opens => blacked (unblacked_stampedGate.mp opens))]
  rfl

theorem changePhase_preview_none (empty : (g.event e).pendingSheet = none) :
    ((changePhase e .preview g).event e).pendingSheet = none ∧
      ((changePhase e .preview g).event e).openLead = (g.event e).openLead := by
  rw [changePhase_preview_event left,
    enterOpen_event_of_none ((stampedGate_sheet e e .preview .pending g).trans empty), stampedGate_preview_event left]
  exact ⟨empty, rfl⟩

theorem changePhase_preview_waits {sheet : Sheet} (held : (g.event e).pendingSheet = some sheet)
    (waits : ¬ Reached g (leadInstant sheet.effective g.settings.openLead)) :
    ((changePhase e .preview g).event e).openLead = some (leadInstant sheet.effective g.settings.openLead) ∧
      ((changePhase e .preview g).event e).pendingSheet = some { sheet with cls := .openClass } := by
  rw [changePhase_preview_event left,
    enterOpen_event_of_waits ((stampedGate_sheet e e .preview .pending g).trans held) waits]
  exact ⟨rfl, rfl⟩

theorem changePhase_preview_reached {sheet : Sheet} (held : (g.event e).pendingSheet = some sheet)
    (reached : Reached g (leadInstant sheet.effective g.settings.openLead)) :
    ((changePhase e .preview g).event e).openLead = none ∧
      ((changePhase e .preview g).event e).pendingSheet = some { sheet with cls := .openClass, mark := true } ∧
      ∀ z, unblacked g e z → Offered (changePhase e .preview g) e sheet.number z := by
  have pending := (stampedGate_sheet e e .preview .pending g).trans held
  refine ⟨?_, ?_, fun z unmasked => ?_⟩
  · rw [changePhase_preview_event left, enterOpen_event_of_reached pending reached]
  · rw [changePhase_preview_event left, enterOpen_event_of_reached pending reached]
  · have offered := enterOpen_offered_pending pending reached (unblacked_stampedGate.mpr unmasked)
    rwa [← actedGate_of_preview_entered left] at offered

end Preview

end Changes

end Sys2Proof.Machine

namespace Sys2Proof.Proofs

open Sys2Proof.Machine Sys2Proof.Safety Sys2Proof.Claims

set_option Elab.async false

/-- Settles O20: the record's stamps come from changePhase_record, and the work of the entry actions from the lemmas of each
pair of grant modes. -/
theorem phaseChangeStampsDatesAndDelivers : Obligations.PhaseChangeStampsDatesAndDelivers := by
  intro g e p
  have record := changePhase_record e p g
  rw [changed_eq] at record
  obtain ⟨base, next⟩ := changePhase_base e p g
  refine ⟨congrArg Event.phase record, congrArg Event.previousEntry record, congrArg Event.previousPhase record,
    congrArg Event.currentEntry record, congrArg Event.liveStamp record, congrArg Event.resumePhase record,
    congrArg Event.deadline record, fun f other => changePhase_event_other other p g, ⟨_, changePhase_posts e p g⟩,
    changePhase_of_same_mode, changePhase_work_gone, fun left entered => ?listed, fun left preview => ?preview,
    changePhase_sheets_of_kept, changePhase_openInstants, (congrArg Event.starvation record :),
    fun granting first => ⟨base.trans (if_pos ⟨granting, first⟩), next.trans (if_pos ⟨granting, first⟩)⟩,
    fun kept => ?base⟩
  case listed =>
    exact ⟨fun _ _ => changePhase_leg_listed left entered, changePhase_current_listed left entered,
      changePhase_pending_none_listed left entered, fun _ held => ⟨changePhase_pending_offered left entered held,
      changePhase_pending_unoffered left entered held⟩⟩
  case preview =>
    subst preview
    obtain ⟨again, walker, current⟩ := changePhase_preview_current left
    exact ⟨again, walker, current, fun _ _ => changePhase_preview_offered left,
      fun _ => changePhase_preview_blacked left, changePhase_preview_none left,
      fun _ held => ⟨changePhase_preview_waits left held, changePhase_preview_reached left held⟩⟩
  case base =>
    have unchanged : ¬ (p.mode ≠ .noGrant ∧ (g.event e).base = none) := fun both => kept.elim both.1 (fun some_ => some_ both.2)
    exact ⟨base.trans (if_neg unchanged), next.trans (if_neg unchanged)⟩

end Sys2Proof.Proofs

/-! PROOF. Tasks and phase deadlines (R38, R43–R50): what an allowed task does, what the expiry of a deadline does, and the
statements TasksAreAllowedAsTheTableSays and PhaseDeadlineExpiryAppliesItsTask built from these. -/

namespace Sys2Proof.Machine

open Sys2Proof.Safety Sys2Proof.Claims

set_option Elab.async false

/-! ## Which task is judged against which phase -/

theorem applyTask_isSome (e : EventIndex) (task : PhaseTask) (minutes : Nat) (g : Gate) :
    (applyTask e task minutes g).isSome = task.allowedFrom ((g.event e).judgedPhase task) := by
  unfold applyTask
  dsimp only
  split
  · next allowed => rw [allowed]; rfl
  · next refused => simpa using refused

theorem judgedPhase_of_unstalled {ev : Event} (task : PhaseTask) (unstalled : ev.phase ≠ .stalled) :
    ev.judgedPhase task = ev.phase :=
  if_neg fun both => unstalled both.1

theorem judgedPhase_of_stalled {ev : Event} (task : PhaseTask) {resume : Phase} (stalled : ev.phase = .stalled)
    (held : ev.resumePhase = some resume) :
    ev.judgedPhase task = if task = .goClosed then .stalled else resume := by
  unfold Event.judgedPhase
  by_cases closing : task = .goClosed
  · rw [if_neg (fun both => both.2 closing), if_pos closing, stalled]
  · rw [if_pos ⟨stalled, closing⟩, if_neg closing, held, Option.getD_some]

theorem leadsTo_closed_iff (task : PhaseTask) : task.leadsTo = .closed ↔ task = .goClosed := by
  cases task <;> decide

/-! ## What a task does -/

theorem modEvent_of_same {e : EventIndex} {f : Event → Event} {g : Gate} (same : f (g.event e) = g.event e) :
    modEvent e f g = g := by
  unfold modEvent Gate.setEvent
  rw [same]
  unfold Gate.event
  simp

theorem dropStart_eq (task : PhaseTask) (e : EventIndex) (g : Gate) : dropStart task e g
    = modEvent e (fun ev => { ev with
        scheduledStart := if task = .backToSale then none else (g.event e).scheduledStart }) g := by
  unfold dropStart
  split
  · rfl
  · exact (modEvent_of_same rfl).symm

/-- R49: the resume phase of a STALLED event changes. -/
theorem changeResume_resumeChanged {e : EventIndex} (p q : Phase) (start : Option Time) (g : Gate) :
    ResumeChanged e p q start g (changeResume e p q (modEvent e (fun ev => { ev with scheduledStart := start }) g)) where
  gate := rfl
  others f other := by
    rw [changeResume, postPhase, post_event, modEvent_event, if_neg other, modEvent_event, if_neg other]
  record := by
    rw [changeResume, postPhase, post_event, modEvent_event_same, modEvent_event_same, deadlineFor_eq_table33]
    rfl

theorem applyTask_unstalled {e : EventIndex} {task : PhaseTask} {minutes : Nat} {g : Gate}
    (unstalled : (g.event e).phase ≠ .stalled) (allowed : task.allowedFrom (g.event e).phase = true)
    (changes : task ≠ .extendPreview) :
    applyTask e task minutes g = some (changePhase e task.leadsTo (dropStart task e g)) := by
  unfold applyTask
  dsimp only
  rw [judgedPhase_of_unstalled task unstalled, if_pos allowed, if_neg changes, if_neg (fun both => unstalled both.1)]

theorem applyTask_stalled {e : EventIndex} {task : PhaseTask} {minutes : Nat} {g : Gate} {resume : Phase}
    (stalled : (g.event e).phase = .stalled) (held : (g.event e).resumePhase = some resume)
    (allowed : task.allowedFrom resume = true) (changes : task ≠ .extendPreview) (opens : task ≠ .goClosed) :
    applyTask e task minutes g = some (changeResume e resume task.leadsTo (dropStart task e g)) := by
  unfold applyTask
  dsimp only
  rw [judgedPhase_of_stalled task stalled held, if_neg opens, if_pos allowed, if_neg changes,
    if_pos ⟨stalled, fun closed => opens ((leadsTo_closed_iff task).mp closed)⟩]

theorem applyTask_goClosed_stalled {e : EventIndex} {minutes : Nat} {g : Gate} {resume : Phase}
    (stalled : (g.event e).phase = .stalled) (held : (g.event e).resumePhase = some resume) :
    applyTask e .goClosed minutes g = some (changePhase e .closed g) := by
  unfold applyTask
  dsimp only
  rw [judgedPhase_of_stalled .goClosed stalled held, if_pos rfl]
  exact (if_pos rfl).trans (congrArg some ((if_neg (by decide)).trans (if_neg fun both => both.2 rfl)))

/-! ## The expiry of a deadline (R43, Table 33) -/

/-- The part once the deadline of event e has been removed and the expiry counted. -/
def expiredGate (e : EventIndex) (g : Gate) : Gate :=
  bumpEvent e .deadlineExpiries (modEvent e (fun ev => { ev with deadline := none }) g)

theorem expiredGate_event (e : EventIndex) (g : Gate) : (expiredGate e g).event e
    = { g.event e with deadline := none, counters := ((expiredGate e g).event e).counters } := by
  rw [expiredGate, bumpEvent_event, if_pos rfl, modEvent_event_same]
  rfl

theorem eventCount_expiredGate (e : EventIndex) (g : Gate) :
    eventCount (expiredGate e g) e .deadlineExpiries = countUp (eventCount g e .deadlineExpiries) 1 := by
  rw [expiredGate, eventCount_bumpEvent, if_pos ⟨rfl, rfl⟩, eventCount_modEvent, if_pos rfl]
  rfl

theorem exec_phaseDeadlineExpiry {s : State} {e : EventIndex} {deadline : Time}
    (due : (s.gate.event e).deadline = some deadline) (reached : Reached s.gate deadline) :
    exec (.phaseDeadlineExpiry e) s = .next { s with gate := expireDeadline e s.gate } := by
  have taken : phaseDeadlineExpiry e s.gate = expireDeadline e s.gate := by
    unfold phaseDeadlineExpiry
    rw [due]
    exact if_pos (reached_iff.mpr reached)
  rw [← taken]
  rfl

theorem expireDeadline_of_task {e : EventIndex} {g h : Gate} {task : PhaseTask}
    (named : (g.event e).expiryTask (g.event e).deadlinePhase = some task)
    (applied : applyTask e task 0 (expiredGate e g) = some h) : expireDeadline e g = h := by
  unfold expireDeadline
  rw [named]
  show (applyTask e task 0 (expiredGate e g)).getD _ = h
  rw [applied, Option.getD_some]

/-- Table 33: the task at the expiry of a dated phase. -/
def expiryTaskFrom (ev : Event) (p : Phase) : PhaseTask :=
  if p = .onSale then (if ev.previewLength = 0 then .goLive else .goPreview)
  else if p = .preview then .goLive
  else if p = .extra then .goWindDown
  else .goClosed

theorem expiryTask_of_dated (ev : Event) {p : Phase} (dated : p ∈ [Phase.onSale, .preview, .extra, .windDown]) :
    ev.expiryTask p = some (expiryTaskFrom ev p) := by
  unfold Event.expiryTask expiryTaskFrom
  simp only [List.mem_cons, List.not_mem_nil, or_false] at dated
  rcases dated with rfl | rfl | rfl | rfl
  · dsimp only
    split
    · rfl
    · rfl
  · rfl
  · rfl
  · rfl

theorem expiryTaskFrom_allowed (ev : Event) {p : Phase} (dated : p ∈ [Phase.onSale, .preview, .extra, .windDown]) :
    (expiryTaskFrom ev p).allowedFrom p = true ∧ expiryTaskFrom ev p ≠ .extendPreview ∧
      expiryTaskFrom ev p ≠ .backToSale ∧ (expiryTaskFrom ev p = .goClosed ↔ p = .windDown) := by
  unfold expiryTaskFrom
  simp only [List.mem_cons, List.not_mem_nil, or_false] at dated
  rcases dated with rfl | rfl | rfl | rfl
  · by_cases short : ev.previewLength = 0
    · rw [if_pos rfl, if_pos short]; decide
    · rw [if_pos rfl, if_neg short]; decide
  · exact ⟨rfl, by simp, by simp, by simp⟩
  · exact ⟨rfl, by simp, by simp, by simp⟩
  · exact ⟨rfl, by simp, by simp, by simp⟩

/-- Table 33: the phase that the task at an expiry leads to. -/
theorem expiryTaskFrom_leadsTo (ev : Event) {p : Phase} (dated : p ∈ [Phase.onSale, .preview, .extra, .windDown]) :
    (expiryTaskFrom ev p).leadsTo
      = if p = .onSale then (if ev.previewLength = 0 then .live else .preview)
        else if p = .preview then .live
        else if p = .extra then .windDown
        else .closed := by
  unfold expiryTaskFrom
  simp only [List.mem_cons, List.not_mem_nil, or_false] at dated
  rcases dated with rfl | rfl | rfl | rfl
  · by_cases short : ev.previewLength = 0
    · rw [if_pos rfl, if_pos short, if_pos rfl, if_pos short]; rfl
    · rw [if_pos rfl, if_neg short, if_pos rfl, if_neg short]; rfl
  · rfl
  · rfl
  · rfl

theorem dropStart_of_other {task : PhaseTask} (other : task ≠ .backToSale) (e : EventIndex) (g : Gate) :
    dropStart task e g = g :=
  if_neg other

/-- Of the counters of its event a phase change moves those of joins, late legs and preview tails alone. -/
theorem eventCount_changePhase {k : EventCounter} (e : EventIndex) (p : Phase) (g : Gate) (joins : k ≠ .legsJoined)
    (late : k ≠ .lateLegs) (tails : k ≠ .previewTails) : eventCount (changePhase e p g) e k = eventCount g e k := by
  have listed (h : Gate) : eventCount (enterListed e h) e k = eventCount h e k := by
    have joined : eventCount (joinedGate e h) e k = eventCount h e k := by
      unfold joinedGate
      rw [eventCount_joinLeg e e .pending _ joins late, eventCount_joinLeg e e .current _ joins late]
    rw [enterListed_eq, ← joined]
    unfold judgePending
    split
    · rfl
    · split
      · show eventCount (bumpEvent e .previewTails (joinedGate e h)) e k = _
        rw [eventCount_bumpEvent, if_neg (fun both => tails both.2)]
      · split
        · rw [eventCount_modEvent, if_pos rfl]
          rfl
        · rfl
  have opened (h : Gate) : eventCount (enterOpen e h) e k = eventCount h e k := by
    have counters : ((enterOpen e h).event e).counters = (h.event e).counters := by
      cases held : h.sheet e .pending with
      | none => rw [enterOpen_event_of_none held]
      | some sheet =>
        by_cases reached : Reached h (leadInstant sheet.effective h.settings.openLead)
        · rw [enterOpen_event_of_reached held reached]
        · rw [enterOpen_event_of_waits held reached]
    unfold eventCount
    rw [counters]
  have emptied (h : Gate) : eventCount (enterNone e h) e k = eventCount h e k := by
    unfold eventCount
    rw [enterNone_event]
  have acted : eventCount (actedGate e p g) e k = eventCount (stampedGate e p g) e k := by
    unfold actedGate
    cases (g.event e).phase.mode <;> cases p.mode
    case noGrant.openGrant => exact opened _
    case noGrant.listedGrant => exact listed _
    case openGrant.listedGrant => exact listed _
    case openGrant.noGrant => exact emptied _
    case listedGrant.noGrant => exact emptied _
    all_goals rfl
  unfold eventCount at acted ⊢
  rw [changePhase_event, acted, stampedGate_event, stamped_delivery]

end Sys2Proof.Machine

namespace Sys2Proof.Proofs

open Sys2Proof.Machine Sys2Proof.Safety Sys2Proof.Claims

set_option Elab.async false

/-- Settles O19: Table 31 read off case by case, and applyTask by the phase that the task is judged against. -/
theorem tasksAreAllowedAsTheTableSays : Obligations.TasksAreAllowedAsTheTableSays := by
  refine ⟨fun task p => ?table, fun task changes => ?leads, fun g e task minutes unstalled => ?direct,
    fun g e task minutes resume stalled held => ?resuming, fun g h e task minutes applied => ?applied⟩
  case table => cases task <;> cases p <;> decide
  case leads => cases task <;> first | exact absurd rfl changes | decide
  case direct => rw [applyTask_isSome, judgedPhase_of_unstalled task unstalled]
  case resuming => rw [applyTask_isSome, judgedPhase_of_stalled task stalled held]
  case applied =>
    obtain ⟨-, extends_ | ⟨changes, stalled, opens, rfl⟩ | ⟨changes, direct, rfl⟩⟩ := applyTask_cases applied
    · obtain ⟨rfl, rfl⟩ := extends_
      exact ⟨fun _ => rfl, fun other => absurd rfl other, fun _ other => absurd rfl other⟩
    · rw [dropStart_eq]
      refine ⟨fun same => absurd same changes, fun _ closes => ?_, fun resume _ _ _ held => ?_⟩
      · exact absurd closes (not_or.mpr ⟨not_not.mpr stalled, opens⟩)
      · rw [judgedPhase_of_stalled task stalled held, if_neg (fun closing => opens ((leadsTo_closed_iff task).mpr closing))]
        exact changeResume_resumeChanged ..
    · refine ⟨fun same => absurd same changes, fun _ _ => by rw [dropStart_eq], fun resume _ opens stalled _ => ?_⟩
      exact absurd (direct stalled) opens

/-- Settles O21: the expiry names the task of Table 33 for the phase that is dated, which Table 31 allows from it. -/
theorem phaseDeadlineExpiryAppliesItsTask : Obligations.PhaseDeadlineExpiryAppliesItsTask := by
  unfold Obligations.PhaseDeadlineExpiryAppliesItsTask
  intro target expired s e deadline due isSet reached
  have runs := exec_phaseDeadlineExpiry due ⟨isSet, reached⟩
  have record := expiredGate_event e s.gate
  refine ⟨fun p dated phase => ?direct, fun p dated stalled held => ?stalled⟩
  case direct =>
    obtain ⟨allowed, changes, keeps, -⟩ := expiryTaskFrom_allowed (s.gate.event e) dated
    have leads : (expiryTaskFrom (s.gate.event e) p).leadsTo = target (s.gate.event e) p := expiryTaskFrom_leadsTo _ dated
    have unstalled : (s.gate.event e).phase ≠ .stalled := by
      rw [phase]
      rintro rfl
      simp at dated
    have expiredPhase : ((expiredGate e s.gate).event e).phase = p := by rw [record]; exact phase
    have applied : applyTask e (expiryTaskFrom (s.gate.event e) p) 0 (expiredGate e s.gate)
        = some (changePhase e (target (s.gate.event e) p) (expiredGate e s.gate)) := by
      rw [applyTask_unstalled (by rwa [expiredPhase, ← phase]) (by rwa [expiredPhase]) changes,
        dropStart_of_other keeps, leads]
    have named : (s.gate.event e).expiryTask (s.gate.event e).deadlinePhase = some (expiryTaskFrom (s.gate.event e) p) := by
      rw [Event.deadlinePhase, if_neg unstalled, phase, expiryTask_of_dated _ dated]
    have changed := changePhase_record e (target (s.gate.event e) p) (expiredGate e s.gate)
    rw [changed_eq] at changed
    have entered : target (s.gate.event e) p ≠ .stalled := by
      rw [← leads]
      cases expiryTaskFrom (s.gate.event e) p <;> decide
    refine ⟨_, runs, ?_⟩
    rw [expireDeadline_of_task named applied]
    refine ⟨rfl, changePhase_phase .., (congrArg Event.resumePhase changed).trans (if_neg entered),
      (congrArg Event.previousPhase changed).trans (congrArg some expiredPhase), ?_, ?_⟩
    · refine (congrArg Event.deadline changed).trans ((if_neg ?_).trans ?_)
      · rw [expiredPhase]
        rintro (stalls | returns)
        · exact entered stalls
        · exact unstalled (phase.trans returns.1)
      · rw [record]
        exact (fun q => by cases q <;> rfl :
          ∀ q, table33 { s.gate.event e with deadline := none, counters := _ } s.gate.clock.siteTime q
            = table33 (s.gate.event e) s.gate.clock.siteTime q) _
    · rw [eventCount_changePhase e _ _ (by decide) (by decide) (by decide), eventCount_expiredGate]
  case stalled =>
    obtain ⟨allowed, changes, keeps, closing⟩ := expiryTaskFrom_allowed (s.gate.event e) dated
    have leads : (expiryTaskFrom (s.gate.event e) p).leadsTo = target (s.gate.event e) p := expiryTaskFrom_leadsTo _ dated
    have named : (s.gate.event e).expiryTask (s.gate.event e).deadlinePhase = some (expiryTaskFrom (s.gate.event e) p) := by
      rw [Event.deadlinePhase, if_pos stalled, held, Option.getD_some, expiryTask_of_dated _ dated]
    have expiredStalled : ((expiredGate e s.gate).event e).phase = .stalled := by rw [record]; exact stalled
    have expiredHeld : ((expiredGate e s.gate).event e).resumePhase = some p := by rw [record]; exact held
    refine ⟨_, runs, ?_⟩
    by_cases ends : p = .windDown
    · have applied : applyTask e (expiryTaskFrom (s.gate.event e) p) 0 (expiredGate e s.gate)
          = some (changePhase e .closed (expiredGate e s.gate)) := by
        rw [closing.mpr ends]
        exact applyTask_goClosed_stalled expiredStalled expiredHeld
      obtain ⟨-, resume⟩ := changePhase_event_phases e e .closed (expiredGate e s.gate)
      rw [if_pos rfl] at resume
      rw [expireDeadline_of_task named applied, if_pos ends, if_pos ends]
      exact ⟨by rw [eventCount_changePhase e _ _ (by decide) (by decide) (by decide), eventCount_expiredGate],
        changePhase_phase .., resume, fun _ => rfl, fun other => absurd ends other⟩
    · have applied : applyTask e (expiryTaskFrom (s.gate.event e) p) 0 (expiredGate e s.gate)
          = some (changeResume e p (target (s.gate.event e) p) (modEvent e (fun ev => { ev with
              scheduledStart := (s.gate.event e).scheduledStart }) (expiredGate e s.gate))) := by
        rw [applyTask_stalled expiredStalled expiredHeld allowed changes (fun closes => ends (closing.mp closes)), leads,
          dropStart_eq, if_neg keeps, record]
      have resumed := changeResume_resumeChanged (e := e) p (target (s.gate.event e) p) (s.gate.event e).scheduledStart
        (expiredGate e s.gate)
      have after := resumed.record
      rw [expireDeadline_of_task named applied, if_neg ends, if_neg ends]
      refine ⟨?_, ?_, ?_, fun same => absurd same ends, fun _ => resumed⟩
      · rw [← eventCount_expiredGate]
        exact (congrArg (fun ev : Event => ev.counters[EventCounter.pos .deadlineExpiries]) after :)
      · exact (congrArg Event.phase after).trans expiredStalled
      · exact congrArg Event.resumePhase after

end Sys2Proof.Proofs

/-! PROOF. Steps that are not due (log 1): when each step finds nothing to do, whose turn at the table it is (R85), and the
statement StepsNotDueChangeNothing built from these. -/

namespace Sys2Proof.Machine

open Sys2Proof.Safety Sys2Proof.Claims

set_option Elab.async false

theorem exec_of_unchanged {i : Instr} {s : State} (same : effect i s.gate = s.gate) : exec i s = .next s := by
  rw [exec_eq_effect, same]

/-! ## Units with nothing handed over -/

theorem timeCell_of_none {g : Gate} (none_ : ∀ cell, g.intake.handoff ≠ some (.time cell)) : timeCell g = g := by
  unfold timeCell
  split
  · next handed => exact absurd handed (none_ _)
  · rfl

theorem cueCell_of_none {g : Gate} (none_ : ∀ cell, g.intake.handoff ≠ some (.cue cell)) : cueCell g = g := by
  unfold cueCell
  split
  · next handed => exact absurd handed (none_ _)
  · rfl

theorem keyCell_of_none {g : Gate} (none_ : ∀ e cell, g.intake.handoff ≠ some (.key e cell)) : keyCell g = g := by
  unfold keyCell
  split
  · next handed => exact absurd handed (none_ _ _)
  · rfl

theorem managementCell_of_none {g : Gate} (none_ : ∀ cell, g.intake.handoff ≠ some (.management cell)) :
    managementCell g = g := by
  unfold managementCell
  split
  · next handed => exact absurd handed (none_ _)
  · rfl

theorem slotTaken_of_none {g : Gate} {z : ZoneIndex} (none_ : g.driven z = false ∨ (g.zone z).slot = none) :
    slotTaken z g = g := by
  unfold slotTaken
  split
  · next driven =>
    unfold catchUp
    rw [none_.resolve_left (by rw [driven]; decide)]
  · rfl

/-! ## Commands that do not begin -/

theorem saveImageEnd_of_idle {g : Gate} (idle : ∀ tag image, g.command.work ≠ .saving tag image) (acknowledged : Nat) :
    saveImageEnd acknowledged g = g := by
  unfold saveImageEnd
  split
  · next saving => exact absurd saving (idle _ _)
  · rfl

theorem purchaseItem_of_idle {g : Gate}
    (idle : ∀ tag item left results, g.command.work ≠ .purchasing tag (item :: left) results) : purchaseItem g = g := by
  unfold purchaseItem
  split
  · next purchasing => exact absurd purchasing (idle _ _ _ _)
  · rfl

theorem purchaseItem_out_of_turn {g : Gate} (turn : g.turn ≠ some .command) : purchaseItem g = g := by
  unfold purchaseItem
  split
  · exact if_neg turn
  · rfl

theorem beginWhere_of_empty {g : Gate} (empty : g.command.queue = []) (p : Request → Bool)
    (run : Request → Gate → Gate) : beginWhere p run g = g := by
  unfold beginWhere
  rw [empty]

theorem unknownCommand_of_empty {g : Gate} (empty : g.command.queue = []) : unknownCommand g = g := by
  unfold unknownCommand
  rw [empty]

/-! ## Instants (R60) -/

/-- R60: the place of an instant among those of its event. -/
def KeyInstant.place : KeyInstant → Fin 4
  | .lead => 0
  | .promotion => 1
  | .starvation => 2
  | .openRepeat => 3

theorem instantAt_place (ev : Event) (k : KeyInstant) : instantAt ev k.place = ev.instant k := by
  cases k <;> rfl

theorem place_val (k : KeyInstant) : k.place.val = k.rank := by
  cases k <;> rfl

theorem exists_place (place : Fin 4) : ∃ k : KeyInstant, k.place = place := by
  have places : ∀ place : Fin 4, ∃ k ∈ [KeyInstant.lead, .promotion, .starvation, .openRepeat], k.place = place := by decide
  obtain ⟨k, -, at_⟩ := places place
  exact ⟨k, at_⟩

theorem mem_keyInstants (k : KeyInstant) : k ∈ [KeyInstant.lead, .promotion, .starvation, .openRepeat] := by
  cases k <;> decide

/-- R60: an instant is due where it is held and reached and no other of the event comes before it. -/
theorem instantDue_iff {g : Gate} {e : EventIndex} {k : KeyInstant} : g.instantDue e k = true ↔
    ∃ t, (g.event e).instant k = some t ∧ Reached g t ∧
      ∀ other u, (g.event e).instant other = some u → t < u ∨ (t = u ∧ k.rank ≤ other.rank) := by
  have after (t : Time) (other : KeyInstant) : (g.event e).comesAfter t k.rank other = true ↔
      ∀ u, (g.event e).instant other = some u → t < u ∨ (t = u ∧ k.rank ≤ other.rank) := by
    unfold Event.comesAfter
    cases (g.event e).instant other with
    | none => simp
    | some u => simp
  unfold Gate.instantDue
  cases held : (g.event e).instant k with
  | none => simp
  | some t =>
    simp only [Bool.and_eq_true, reached_iff, List.all_eq_true, after, Option.some.injEq, exists_eq_left']
    exact and_congr_right fun _ => ⟨fun all other => all other (mem_keyInstants other), fun all other _ => all other⟩

theorem not_instantDue_of_waits {g : Gate} {e : EventIndex} {k : KeyInstant} (waits : InstantWaits g e k.place) :
    ¬ g.instantDue e k = true := by
  intro due
  obtain ⟨t, held, reached, first⟩ := instantDue_iff.mp due
  rcases waits t (by rw [instantAt_place, held]) with unreached | ⟨place, u, other, before⟩
  · exact unreached reached
  · obtain ⟨j, rfl⟩ := exists_place place
    rw [instantAt_place] at other
    have later := first j u other
    simp only [BitVec.lt_def, Fin.lt_def, place_val] at before later
    rcases before with before | ⟨same, before⟩
    · rcases later with later | ⟨same, -⟩
      · omega
      · rw [same] at before; omega
    · rcases later with later | ⟨-, later⟩
      · rw [same] at later; omega
      · omega

/-! ## Deadlines -/

theorem phaseDeadlineExpiry_of_unreached {g : Gate} {e : EventIndex}
    (unreached : ∀ deadline, (g.event e).deadline = some deadline → ¬ Reached g deadline) :
    phaseDeadlineExpiry e g = g := by
  unfold phaseDeadlineExpiry
  split
  · next held => exact if_neg fun reached => unreached _ held (reached_iff.mp reached)
  · rfl

theorem anyLeg_iff {g : Gate} {p : Leg → Bool} :
    g.anyLeg p = true ↔ ∃ e slot leg, g.leg e slot = some leg ∧ p leg = true := by
  unfold Gate.anyLeg
  rw [List.any_eq_true]
  constructor
  · rintro ⟨⟨e, slot⟩, -, found⟩
    dsimp only at found
    split at found
    · next leg held => exact ⟨e, slot, leg, held, found⟩
    · cases found
  · rintro ⟨e, slot, leg, held, found⟩
    exact ⟨(e, slot), mem_rosterOrder e slot, by dsimp only; rwa [held]⟩

theorem noEarlierLeg_iff {g : Gate} {t : Time} :
    g.noEarlierLeg t = true ↔ ∀ f slot leg u, g.leg f slot = some leg → leg.deadline = some u → ¬ u < t := by
  unfold Gate.noEarlierLeg
  rw [Bool.not_eq_true', ← Bool.not_eq_true, anyLeg_iff]
  constructor
  · intro none_ f slot leg u held dated earlier
    refine none_ ⟨f, slot, leg, held, ?_⟩
    rw [dated]
    exact decide_eq_true earlier
  · rintro all ⟨f, slot, leg, held, earlier⟩
    split at earlier
    · next u dated => exact all f slot leg u held dated (of_decide_eq_true earlier)
    · cases earlier

theorem legLate_of_waits {g : Gate} {e : EventIndex} {slot : SheetSlot}
    (waits : ∀ leg deadline, g.leg e slot = some leg → leg.deadline = some deadline → ¬ Reached g deadline ∨
      ∃ f other l u, g.leg f other = some l ∧ l.deadline = some u ∧ u < deadline) : legLate e slot g = g := by
  unfold legLate
  split
  · rfl
  · next leg held =>
    split
    · rfl
    · next deadline dated =>
      refine if_neg fun due => ?_
      rw [Bool.and_eq_true, reached_iff, noEarlierLeg_iff] at due
      rcases waits leg deadline held dated with unreached | ⟨f, other, l, u, there, before, earlier⟩
      · exact unreached due.1
      · exact due.2 f other l u there before earlier

/-! ## Who waits for the table (R85) -/

theorem walks_iff {g : Gate} : g.anyLeg Leg.walking = true ↔ Walks g :=
  anyLeg_iff

theorem fits_visitBucket_iff {g : Gate} : (visitBucket g).fits = true ↔ BuffersFit g := by
  unfold BuffersFit Gate.fits Gate.buffersHeld
  generalize visitBucket g = v
  simp only [Bool.and_eq_true, List.all_eq_true, decide_eq_true_eq, allZones, List.map_cons, List.map_nil, List.sum_cons,
    List.sum_nil, Config.sweepQueueSize, Config.poolSize]
  refine and_congr ⟨fun all z => all z (mem_allZones z), fun all z _ => all z⟩ ?_
  omega

theorem waits_sweepWalker_iff {g : Gate} : g.waits .sweepWalker = true ↔ Walks g ∧ BuffersFit g := by
  rw [← walks_iff, ← fits_visitBucket_iff, ← Bool.and_eq_true]
  rfl

theorem waits_maintenanceWalker_iff {g : Gate} : g.waits .maintenanceWalker = true ↔ g.upkeep.tasks ≠ [] := by
  simp [Gate.waits]

theorem waits_command_iff {g : Gate} : g.waits .command = true ↔ CommandAtTable g := by
  show g.commandWaits = true ↔ _
  unfold Gate.commandWaits CommandAtTable
  cases work : g.command.work with
  | ready =>
    cases queue : g.command.queue with
    | nil => simp
    | cons cell rest => simp [Gate.canBegin, work, tableCodes, Config.replyQueueSize, and_comm]
  | purchasing tag left results => cases left <;> simp
  | saving tag image => simp
  | restarting => simp

theorem sweepVisit_of_waits {g : Gate} (waits : ¬ Walks g ∨ (BuffersFit g ∧ ¬ Turn g .sweepWalker)) :
    sweepVisit g = g := by
  unfold sweepVisit
  split
  · next walks =>
    obtain ⟨fits, turn⟩ := waits.resolve_left (fun none_ => none_ (walks_iff.mp walks))
    dsimp only
    rw [fits_visitBucket_iff.mpr fits, if_neg (by decide), if_neg turn]
  · rfl

theorem maintenanceVisit_of_waits {g : Gate} (waits : g.upkeep.tasks = [] ∨ ¬ Turn g .maintenanceWalker) :
    maintenanceVisit g = g := by
  unfold maintenanceVisit
  split
  · rfl
  · next task rest listed => exact if_neg (waits.resolve_left (by rw [listed]; simp))

end Sys2Proof.Machine

namespace Sys2Proof.Proofs

open Sys2Proof.Machine Sys2Proof.Safety Sys2Proof.Claims

set_option Elab.async false

/-- Settles O22: each step's own lemma says when it finds nothing to do. -/
theorem stepsNotDueChangeNothing : Obligations.StepsNotDueChangeNothing := by
  refine ⟨fun s => ⟨fun none_ => exec_of_unchanged (timeCell_of_none none_),
      fun none_ => exec_of_unchanged (cueCell_of_none none_), fun none_ => exec_of_unchanged (keyCell_of_none none_),
      fun none_ => exec_of_unchanged (managementCell_of_none none_), fun none_ => exec_of_unchanged (if_pos none_),
      fun z none_ => exec_of_unchanged (slotTaken_of_none none_),
      fun loaded n => exec_of_unchanged (if_neg (by rw [loaded]; decide)),
      fun idle n => exec_of_unchanged (saveImageEnd_of_idle idle n),
      fun idle => exec_of_unchanged (purchaseItem_of_idle idle), fun waits => exec_of_unchanged (if_neg fun both => ?restart),
      fun loading => exec_of_unchanged (if_pos loading), fun empty c listed => exec_of_unchanged ?queue⟩,
    fun s => ⟨fun unreached => exec_of_unchanged (if_neg fun reached => unreached (reached_iff.mp reached)),
      fun e => ⟨fun unreached => exec_of_unchanged (phaseDeadlineExpiry_of_unreached unreached),
        fun waits => exec_of_unchanged (if_neg (not_instantDue_of_waits (k := .lead) waits)),
        fun waits => exec_of_unchanged (if_neg (not_instantDue_of_waits (k := .promotion) waits)),
        fun waits => exec_of_unchanged (if_neg (not_instantDue_of_waits (k := .starvation) waits)),
        fun waits => exec_of_unchanged (if_neg (not_instantDue_of_waits (k := .openRepeat) waits)),
        fun slot waits => exec_of_unchanged (legLate_of_waits waits)⟩⟩,
    fun s => ⟨fun waits => exec_of_unchanged (maintenanceVisit_of_waits waits),
      fun waits => exec_of_unchanged (sweepVisit_of_waits waits),
      fun turn => ⟨exec_of_unchanged (purchaseItem_out_of_turn turn), fun length c listed => exec_of_unchanged ?table⟩⟩,
    fun g => ⟨waits_command_iff, waits_sweepWalker_iff, waits_maintenanceWalker_iff, turn_eq_some_iff g⟩⟩
  case restart =>
    exact waits.elim (fun other => other both.1) (fun left => left both.2)
  case queue =>
    simp only [List.mem_cons, List.not_mem_nil, or_false] at listed
    rcases listed with rfl | rfl | rfl | rfl | rfl | rfl | rfl | rfl | rfl | rfl | rfl | rfl | rfl | rfl | rfl | rfl |
      rfl | rfl | rfl | rfl | rfl | rfl | rfl <;>
      simp only [effect, unknownCommand_of_empty empty, purchase, saveImage, restart, executeCommand, executeAtTable,
        beginCommand, beginWhere_of_empty empty]
  case table =>
    simp only [List.mem_cons, List.not_mem_nil, or_false] at listed
    rcases listed with rfl | rfl | rfl | rfl | rfl | rfl | rfl | rfl | rfl <;> exact executeAtTable_waits length turn

end Sys2Proof.Proofs

/-! PROOF. Key cells turned away (R61–R63) and the discard of a sheet (R68): the statements KeyCellTurnedAway and
DiscardTakesTheSheetsWork. -/

namespace Sys2Proof.Machine

open Sys2Proof.Safety Sys2Proof.Claims

set_option Elab.async false

/-! ## KEY_CELL, check by check (R61–R63) -/

theorem exec_keyCell_handed {s : State} {e : EventIndex} {cell : List Byte} (held : handed s (.key e cell)) :
    exec .keyCell s = .next { s with gate := takeKey e cell (clearHandoff s.gate) } := by
  have taken : keyCell s.gate = takeKey e cell (clearHandoff s.gate) := by
    unfold keyCell
    rw [held]
  rw [← taken]
  rfl

theorem newest_eq (ev : Event) : ev.newest = newestSheet ev := by
  unfold Event.newest newestSheet
  cases ev.pendingSheet <;> rfl

section TakeKey

variable {e : EventIndex} {cell : List Byte} {g : Gate}

theorem takeKey_vacant (vacant : (g.event e).phase = .vacant) : takeKey e cell g = g :=
  if_pos vacant

theorem takeKey_stray (loaded : (g.event e).phase ≠ .vacant)
    (stray : halfAt cell 5 ≠ (g.event e).number ∨ (g.event e).phase = .retiring) :
    takeKey e cell g = bumpEvent e .strayKeys g := by
  unfold takeKey
  rw [if_neg loaded, if_pos stray]

theorem takeKey_own (loaded : (g.event e).phase ≠ .vacant) (stays : (g.event e).phase ≠ .retiring)
    (own : halfAt cell 5 = (g.event e).number) :
    takeKey e cell g
      = judgeSheet e (BitVec.ofNat 32 (natAt cell 7 4)) (timeAt cell 11) ((cell.drop 17).take 72) g := by
  unfold takeKey
  rw [if_neg loaded, if_neg (not_or.mpr ⟨not_not.mpr own, stays⟩)]

variable {number : SheetNumber} {effective : Time} {blob : List Byte}

theorem judgeSheet_zero (first : newestSheet (g.event e) = none) (zero : number = 0) :
    judgeSheet e number effective blob g = bumpEvent e .staleSheets g := by
  unfold judgeSheet
  rw [newest_eq, first]
  exact if_pos zero

theorem judgeSheet_first (first : newestSheet (g.event e) = none) (numbered : number ≠ 0) :
    judgeSheet e number effective blob g = acceptSheet e number effective blob g := by
  unfold judgeSheet
  rw [newest_eq, first]
  exact if_neg numbered

variable {newest : Sheet} (held : newestSheet (g.event e) = some newest)
include held

theorem judgeSheet_repeat (again : number = newest.number) :
    judgeSheet e number effective blob g = bumpEvent e .repeatSheets g := by
  unfold judgeSheet
  rw [newest_eq, held]
  exact if_pos again

theorem judgeSheet_stale (stale : number < newest.number) :
    judgeSheet e number effective blob g = bumpEvent e .staleSheets g := by
  unfold judgeSheet
  rw [newest_eq, held]
  exact (if_neg (BitVec.ne_of_lt stale)).trans (if_pos stale)

theorem judgeSheet_order (newer : newest.number < number) (early : effective ≤ newest.effective) :
    judgeSheet e number effective blob g = bumpEvent e .orderRefusals g := by
  unfold judgeSheet
  rw [newest_eq, held]
  dsimp only
  rw [if_neg (BitVec.ne_of_lt newer).symm, if_neg (BitVec.not_lt.mpr (BitVec.le_of_lt newer)),
    if_pos early]

theorem judgeSheet_accepted (newer : newest.number < number) (later : newest.effective < effective) :
    judgeSheet e number effective blob g = acceptSheet e number effective blob g := by
  unfold judgeSheet
  rw [newest_eq, held]
  dsimp only
  rw [if_neg (BitVec.ne_of_lt newer).symm, if_neg (BitVec.not_lt.mpr (BitVec.le_of_lt newer)),
    if_neg (BitVec.not_le.mpr later)]

end TakeKey

/-! ## The discard of a sheet (R68) -/

theorem discardSheet_zone {e : EventIndex} {slot : SheetSlot} {g : Gate} {sheet : Sheet}
    (held : g.sheet e slot = some sheet) (z : ZoneIndex) :
    (discardSheet e slot g).zone z = purgeZone e sheet.number (g.zone z) := by
  rw [discardSheet_eq held, onZones_zone, dropLeg_frame]
  rfl

theorem ownedBy_none {g : Gate} {e : EventIndex} {slot : SheetSlot} (empty : g.sheet e slot = none) (f : EventIndex)
    (number : SheetNumber) : ownedBy g e slot f number = false := by
  simp [ownedBy, empty]

theorem ownedBy_some {g : Gate} {e : EventIndex} {slot : SheetSlot} {sheet : Sheet} (held : g.sheet e slot = some sheet)
    (f : EventIndex) (number : SheetNumber) :
    ownedBy g e slot f number = (decide (f = e) && decide (number = sheet.number)) := by
  simp [ownedBy, held, eq_comm]

theorem discardSheet_zone_work (e : EventIndex) (slot : SheetSlot) (g : Gate) (z : ZoneIndex) :
    ((discardSheet e slot g).zone z).fresh = freshWithout g e slot z ∧
      ((discardSheet e slot g).zone z).sweep = sweepWithout g e slot z := by
  unfold freshWithout sweepWithout
  cases held : g.sheet e slot with
  | none => simp [discardSheet_none held, ownedBy_none held]
  | some sheet =>
    rw [discardSheet_zone held]
    simp only [ownedBy_some held]
    exact ⟨rfl, rfl⟩

theorem without_sheet (slot : SheetSlot) (ev : Event) : (ev.without slot).sheet slot = none := by
  cases slot <;> rfl

theorem discardSheet_sheet (e : EventIndex) (slot : SheetSlot) (g : Gate) :
    (discardSheet e slot g).sheet e slot = none := by
  unfold Gate.sheet
  rw [discardSheet_event]
  cases held : g.sheet e slot with
  | none => rwa [if_neg (by simp)]
  | some sheet => rw [if_pos ⟨rfl, rfl⟩, without_sheet]

theorem discardSheet_event_other {e f : EventIndex} (other : f ≠ e) (slot : SheetSlot) (g : Gate) :
    (discardSheet e slot g).event f = g.event f := by
  rw [discardSheet_event, if_neg fun both => other both.1]

end Sys2Proof.Machine

namespace Sys2Proof.Proofs

open Sys2Proof.Machine Sys2Proof.Safety Sys2Proof.Claims

set_option Elab.async false

/-- Settles O23: the checks of R61 to R63 in their order. -/
theorem keyCellTurnedAway : Obligations.KeyCellTurnedAway := by
  intro s e cell held
  dsimp only
  rw [exec_keyCell_handed held]
  refine ⟨fun vacant => ?_, fun loaded stray => ?_, fun loaded stays own => ?_⟩
  · rw [takeKey_vacant (g := clearHandoff s.gate) vacant]
    rfl
  · rw [takeKey_stray (g := clearHandoff s.gate) loaded stray]
    rfl
  · rw [takeKey_own (g := clearHandoff s.gate) loaded stays own]
    refine ⟨fun first zero => ?_, fun newest newestHeld => ⟨fun again => ?_, fun stale => ?_, fun newer early => ?_⟩⟩
    · rw [judgeSheet_zero (g := clearHandoff s.gate) first zero]
      rfl
    · rw [judgeSheet_repeat (g := clearHandoff s.gate) newestHeld again]
      rfl
    · rw [judgeSheet_stale (g := clearHandoff s.gate) newestHeld stale]
      rfl
    · rw [judgeSheet_order (g := clearHandoff s.gate) newestHeld newer early]
      rfl

/-- Settles O25: the slot is emptied, the leg dropped, and every zone purged of the sheet's entries and cells. -/
theorem discardTakesTheSheetsWork : Obligations.DiscardTakesTheSheetsWork := by
  intro g e slot sheet held
  refine ⟨discardSheet_sheet e slot g, ?leg, fun other apart => discardSheet_sheet_other (.inr apart) g,
    fun f other => discardSheet_event_other other slot g, fun z => ?fresh, fun z => ?sweep⟩
  case leg => rw [discardSheet_eq held, onZones_leg, dropLeg_leg, if_pos ⟨rfl, rfl⟩]
  case fresh =>
    rw [discardSheet_zone held]
    rfl
  case sweep =>
    rw [discardSheet_zone held]
    rfl

end Sys2Proof.Proofs

/-! PROOF. The acceptance of a sheet (R64–R67, R74): what placing it leaves of the event's record and of the zones, how each
class of sheet is delivered, directly or by the return from STALLED, and the statement KeyCellAcceptedTakesItsSlot. -/

namespace Sys2Proof.Machine

open Sys2Proof.Safety Sys2Proof.Claims

set_option Elab.async false

/-! ## The part with the sheet placed -/

/-- The part once an accepted sheet has taken its slot and the starvation items have been reset. -/
def placedGate (e : EventIndex) (slot : SheetSlot) (sheet : Sheet) (g : Gate) : Gate :=
  modEvent e (Event.resetStarvation sheet.effective)
    (placeSheet e slot sheet (countPlacement e slot (bumpEvent e .sheetsAccepted g)))

/-- R67: the sheet as it is accepted. -/
def acceptedSheet (g : Gate) (e : EventIndex) (number : SheetNumber) (effective : Time) (blob : List Byte) : Sheet :=
  { number := number, effective := effective, blob := blob, cls := (g.event e).phase.mode.sheetClass, mark := false }

theorem acceptSheet_eq (e : EventIndex) (number : SheetNumber) (effective : Time) (blob : List Byte) (g : Gate) :
    acceptSheet e number effective blob g
      = returnFromStall e (deliver e (g.placeFor e effective) (g.event e).phase.mode.sheetClass
          (placedGate e (g.placeFor e effective) (acceptedSheet g e number effective blob) g)) := rfl

theorem placeFor_eq (g : Gate) (e : EventIndex) (effective : Time) : g.placeFor e effective = slotFor g e effective := by
  unfold Gate.placeFor slotFor
  simp [Option.isSome_iff_ne_none]

/-- The counters of event e when an accepted sheet is placed. -/
def countedGate (e : EventIndex) (slot : SheetSlot) (g : Gate) : Gate :=
  countPlacement e slot (bumpEvent e .sheetsAccepted g)

theorem countedGate_eq (e : EventIndex) (slot : SheetSlot) (g : Gate) :
    ∃ f : Event → Event, countedGate e slot g = modEvent e f g ∧ ∀ ev, f ev = { ev with counters := (f ev).counters } := by
  have twice (j k : EventCounter) : bumpEvent e j (bumpEvent e k g)
      = modEvent e (fun ev => Event.countBy j 1 (Event.countBy k 1 ev)) g := by
    unfold bumpEvent
    rw [modEvent_modEvent]
    rfl
  unfold countedGate countPlacement
  split
  · exact ⟨_, twice .supersedes .sheetsAccepted, fun _ => rfl⟩
  · split
    · exact ⟨_, twice .lateSheets .sheetsAccepted, fun _ => rfl⟩
    · exact ⟨_, rfl, fun _ => rfl⟩

theorem countedGate_event (e : EventIndex) (slot : SheetSlot) (g : Gate) : (countedGate e slot g).event e
    = { g.event e with counters := ((countedGate e slot g).event e).counters } := by
  obtain ⟨f, same, frame⟩ := countedGate_eq e slot g
  rw [same, modEvent_event_same]
  exact frame _

theorem countedGate_sheet (e : EventIndex) (slot other : SheetSlot) (g : Gate) :
    (countedGate e slot g).sheet e other = g.sheet e other := by
  unfold Gate.sheet
  rw [countedGate_event]
  cases other <;> rfl

theorem unblacked_of_delivers {g h : Gate} (kept : Delivers g h) {e : EventIndex} {z : ZoneIndex} :
    unblacked h e z ↔ unblacked g e z := by
  have driven : h.driven z = g.driven z := by
    unfold Gate.driven Gate.zoneCount
    rw [kept.loader]
  unfold unblacked
  rw [driven, (kept.event e).mask]

theorem placedGate_delivers (e : EventIndex) (slot : SheetSlot) (sheet : Sheet) (g : Gate) :
    Delivers g (placedGate e slot sheet g) :=
  (((bumpEvent_delivers ..).trans (countPlacement_delivers ..)).trans (placeSheet_delivers ..)).trans
    (modEvent_delivers e (fun _ => by constructor <;> rfl) _)

theorem placedGate_event (e : EventIndex) (slot : SheetSlot) (sheet : Sheet) (g : Gate) :
    (placedGate e slot sheet g).event e = Event.resetStarvation sheet.effective
      (Event.setSheet slot (some sheet) { g.event e with
        counters := ((countedGate e slot g).event e).counters
        openLead := if slot = .pending ∧ (g.event e).pendingSheet.isSome then none else (g.event e).openLead }) := by
  have displaced : (discardSheet e slot (countedGate e slot g)).event e
      = if (g.sheet e slot).isSome then ((countedGate e slot g).event e).without slot
        else (countedGate e slot g).event e := by
    rw [discardSheet_event, countedGate_sheet]
    simp
  unfold placedGate placeSheet
  rw [modEvent_event_same, modEvent_event_same]
  change Event.resetStarvation _ (Event.setSheet slot _ ((discardSheet e slot (countedGate e slot g)).event e)) = _
  rw [displaced, countedGate_event]
  unfold Gate.sheet
  cases slot with
  | current =>
    simp only [reduceCtorEq, false_and, if_false]
    split <;> rfl
  | pending =>
    have pending : (g.event e).sheet .pending = (g.event e).pendingSheet := rfl
    rw [pending]
    cases held : (g.event e).pendingSheet <;> rfl

section Placed

variable {e : EventIndex} {slot : SheetSlot} {sheet : Sheet} {g : Gate}

theorem placedGate_sheet : (placedGate e slot sheet g).sheet e slot = some sheet := by
  unfold Gate.sheet
  rw [placedGate_event]
  cases slot <;> rfl

theorem placedGate_sheet_other {other : SheetSlot} (apart : other ≠ slot) :
    (placedGate e slot sheet g).sheet e other = g.sheet e other := by
  unfold Gate.sheet
  rw [placedGate_event]
  cases slot <;> cases other
  case current.current => exact absurd rfl apart
  case pending.pending => exact absurd rfl apart
  all_goals rfl

theorem placedGate_openLead : ((placedGate e slot sheet g).event e).openLead
    = if slot = .pending ∧ (g.event e).pendingSheet.isSome then none else (g.event e).openLead := by
  rw [placedGate_event]
  cases slot <;> rfl

theorem placedGate_phase : ((placedGate e slot sheet g).event e).phase = (g.event e).phase ∧
    ((placedGate e slot sheet g).event e).resumePhase = (g.event e).resumePhase := by
  rw [placedGate_event]
  cases slot <;> exact ⟨rfl, rfl⟩

theorem placedGate_starvation : ((placedGate e slot sheet g).event e).starvation = 0 ∧
    ((placedGate e slot sheet g).event e).base = some sheet.effective ∧
    ((placedGate e slot sheet g).event e).nextStarvation
      = some (timeAdd sheet.effective ((g.event e).epoch.toNat * 1000)) := by
  rw [placedGate_event]
  cases slot <;> exact ⟨rfl, rfl, rfl⟩

theorem placedGate_zone (z : ZoneIndex) :
    ((placedGate e slot sheet g).zone z).fresh = freshWithout g e slot z ∧
      ((placedGate e slot sheet g).zone z).sweep = sweepWithout g e slot z := by
  have work := discardSheet_zone_work e slot (countedGate e slot g) z
  have zone : (countedGate e slot g).zone z = g.zone z := by
    obtain ⟨f, same, -⟩ := countedGate_eq e slot g
    rw [same, modEvent_zone]
  unfold freshWithout sweepWithout ownedBy at work ⊢
  rw [countedGate_sheet, zone] at work
  exact work

theorem placedGate_leg (ok : LegsOk g) : (placedGate e slot sheet g).leg e slot = none := by
  have counted : LegsOk (countedGate e slot g) := by
    obtain ⟨f, same, frame⟩ := countedGate_eq e slot g
    rw [same]
    exact (modEvent_legsStay_of_frame e g (fun ev => by rw [frame]) (fun ev => by rw [frame])
      (fun ev => by rw [frame])).legsOk ok
  exact discardSheet_leg counted

theorem eventCount_placedGate (k : EventCounter) :
    eventCount (placedGate e slot sheet g) e k = eventCount (countedGate e slot g) e k := by
  unfold eventCount
  rw [placedGate_event]
  cases slot <;> rfl

end Placed

theorem eventCount_countedGate (e : EventIndex) (slot : SheetSlot) (g : Gate) :
    eventCount (countedGate e slot g) e .sheetsAccepted = countUp (eventCount g e .sheetsAccepted) 1 ∧
      eventCount (countedGate e slot g) e .supersedes
        = (if (g.event e).pendingSheet = none then eventCount g e .supersedes
          else countUp (eventCount g e .supersedes) 1) ∧
      eventCount (countedGate e slot g) e .lateSheets
        = (if (g.event e).pendingSheet = none ∧ g.clock.isSet = true ∧ slot = .current
          then countUp (eventCount g e .lateSheets) 1 else eventCount g e .lateSheets) := by
  have pending : ((bumpEvent e .sheetsAccepted g).event e).pendingSheet = (g.event e).pendingSheet := by
    rw [bumpEvent_event, if_pos rfl]
    rfl
  unfold countedGate countPlacement
  rw [pending, bumpEvent_clock]
  cases held : (g.event e).pendingSheet with
  | some old => simp [eventCount_bumpEvent]
  | none =>
    cases set : g.clock.isSet with
    | false => simp [eventCount_bumpEvent]
    | true => cases slot <;> simp [eventCount_bumpEvent]

/-! ## Delivery of the placed sheet -/

/-- R67: what the delivery of a placed sheet ends with: the sheet as it then is, its open lead, its leg, and the sheets whose
open entries have been offered. -/
structure SheetDelivered (e : EventIndex) (slot : SheetSlot) (sheet : Sheet) (lead : Option Time) (leg : Option Leg)
    (offers : List SheetNumber) (g t : Gate) : Prop where
  sheet : t.sheet e slot = some sheet
  other : ∀ other, other ≠ slot → (t.sheet e other).map material = (g.sheet e other).map material
  openLead : (t.event e).openLead = lead
  leg : g.leg e slot = none → t.leg e slot = leg
  sweep : ∀ z, (t.zone z).sweep = (g.zone z).sweep
  fresh : ∀ z, unblacked g e z → (t.zone z).fresh = offers.foldl (withOffer e) (g.zone z).fresh
  blacked : ∀ z, ¬ unblacked g e z → (t.zone z).fresh = (g.zone z).fresh

theorem openOffer_fresh {e : EventIndex} {slot : SheetSlot} {g : Gate} {z : ZoneIndex} (unmasked : unblacked g e z) :
    ((openOffer e slot g).zone z).fresh
      = ((g.sheet e slot).map Sheet.number).toList.foldl (withOffer e) (g.zone z).fresh := by
  cases held : g.sheet e slot with
  | none =>
    rw [openOffer_none held]
    rfl
  | some sheet =>
    rw [openOffer_zone held, if_pos (opens_iff.mpr unmasked), offerZone_fresh]
    rfl

theorem openOffer_sweep (e : EventIndex) (slot : SheetSlot) (g : Gate) (z : ZoneIndex) :
    ((openOffer e slot g).zone z).sweep = (g.zone z).sweep := by
  cases held : g.sheet e slot with
  | none => rw [openOffer_none held]
  | some sheet =>
    rw [openOffer_zone held]
    split
    · rw [offerZone_sweep]
    · rfl

theorem openOffer_leg (e f : EventIndex) (slot other : SheetSlot) (g : Gate) :
    (openOffer e slot g).leg f other = g.leg f other := by
  unfold Gate.leg
  rw [openOffer_walker]

theorem joinLeg_zone (e : EventIndex) (slot : SheetSlot) (g : Gate) (z : ZoneIndex) :
    (joinLeg e slot g).zone z = g.zone z := by
  unfold joinLeg
  split
  · unfold lateAtJoin
    dsimp only
    split
    · split
      · unfold makeLate
        split <;> rfl
      · rfl
    · rfl
  · rfl

theorem joinLeg_of_none {e : EventIndex} {slot : SheetSlot} {g : Gate} (empty : g.sheet e slot = none) :
    joinLeg e slot g = g := by
  unfold joinLeg
  rw [empty]

theorem material_map_offered (sheet : Option Sheet) : (sheet.map Sheet.offered).map material = sheet.map material := by
  cases sheet <;> rfl

/-- Table 59: the leg of a sheet that has not been offered openly, as it joins. -/
theorem joined_leg {e : EventIndex} {slot : SheetSlot} {g : Gate} {sheet : Sheet} (held : g.sheet e slot = some sheet)
    (unoffered : sheet.mark = false) (free : g.leg e slot = none) : (joinLeg e slot g).leg e slot
      = if Reached g sheet.effective then some (newLeg g sheet.number true none)
        else some (newLeg g sheet.number false (some sheet.effective)) := by
  have dated : sheet.legDeadline = some sheet.effective :=
    if_neg fun both => by rw [unoffered] at both; exact absurd both.2 (by decide)
  rw [joinLeg_leg held free, dated, Option.any_some]
  by_cases reached : Reached g sheet.effective
  · rw [if_pos (reached_iff.mpr reached), if_pos reached]
    rfl
  · rw [if_neg (fun due => reached (reached_iff.mp due)), if_neg reached]
    unfold Leg.joined newLeg
    rw [dated]

theorem delivered_silently {e : EventIndex} {slot : SheetSlot} {sheet : Sheet} {g : Gate}
    (held : g.sheet e slot = some sheet) : SheetDelivered e slot sheet (g.event e).openLead none [] g g :=
  ⟨held, fun _ _ => rfl, rfl, id, fun _ => rfl, fun _ _ => rfl, fun _ _ => rfl⟩

theorem delivered_by_join {e : EventIndex} {slot : SheetSlot} {sheet : Sheet} {g : Gate}
    (held : g.sheet e slot = some sheet) (unoffered : sheet.mark = false) :
    SheetDelivered e slot sheet (g.event e).openLead
      (if Reached g sheet.effective then some (newLeg g sheet.number true none)
        else some (newLeg g sheet.number false (some sheet.effective))) [] g (joinLeg e slot g) where
  sheet := by rw [joinLeg_sheet, held]
  other other _ := by rw [joinLeg_sheet]
  openLead := by rw [joinLeg_event]
  leg free := joined_leg held unoffered free
  sweep z := by rw [joinLeg_zone]
  fresh z _ := by rw [joinLeg_zone]; rfl
  blacked z _ := by rw [joinLeg_zone]

theorem delivered_by_offer {e : EventIndex} {slot : SheetSlot} {sheet : Sheet} {g : Gate}
    (held : g.sheet e slot = some sheet) :
    SheetDelivered e slot sheet.offered (g.event e).openLead none [sheet.number] g (openOffer e slot g) where
  sheet := by
    unfold Gate.sheet
    rw [openOffer_event, if_pos rfl, Event.sheet_setSheet_same, held]
    rfl
  other other apart := by
    unfold Gate.sheet
    rw [openOffer_event, if_pos rfl, Event.sheet_setSheet_other apart]
  openLead := by
    rw [openOffer_event, if_pos rfl]
    cases slot <;> rfl
  leg free := by rw [openOffer_leg, free]
  sweep z := openOffer_sweep ..
  fresh z unmasked := by
    rw [openOffer_fresh unmasked, held]
    rfl
  blacked z blacked := by rw [openOffer_zone_of_blacked e slot blacked]

/-- R70: the delivery of a pending sheet of class OPEN, by its open lead. -/
theorem delivered_by_lead {e : EventIndex} {sheet : Sheet} {g : Gate} (held : g.sheet e .pending = some sheet)
    (unoffered : sheet.mark = false) {lead : Time} (dated : leadInstant sheet.effective g.settings.openLead = lead) :
    SheetDelivered e .pending { sheet with mark := decide (Reached g lead) } (if Reached g lead then none else some lead) none
      (if Reached g lead then [sheet.number] else []) g (setOpenLead e g) := by
  subst dated
  by_cases reached : Reached g (leadInstant sheet.effective g.settings.openLead)
  · have offered := delivered_by_offer (g := modEvent e (fun ev => { ev with openLead := none }) g) (e := e)
      (slot := .pending) (sheet := sheet) (by unfold Gate.sheet at held ⊢; rw [modEvent_event_same]; exact held)
    rw [setOpenLead_reached held (reached_iff.mpr reached), if_pos reached, if_pos reached, decide_eq_true reached]
    have same (z : ZoneIndex) : unblacked (modEvent e (fun ev => { ev with openLead := none }) g) e z ↔ unblacked g e z :=
      unblacked_modEvent (fun _ => by rfl)
    refine ⟨offered.sheet, fun other apart => ?_, ?_, offered.leg, offered.sweep, fun z unmasked =>
      offered.fresh z ((same z).mpr unmasked), fun z blacked => offered.blacked z fun opens => blacked ((same z).mp opens)⟩
    · rw [offered.other other apart]
      unfold Gate.sheet
      rw [modEvent_event_same]
      cases other <;> rfl
    · rw [offered.openLead, modEvent_event_same]
  · rw [setOpenLead_waits held (fun due => reached (reached_iff.mp due)), if_neg reached, if_neg reached,
      decide_eq_false reached]
    have stays (other : SheetSlot) : (modEvent e (fun ev => { ev with
        openLead := some (leadInstant sheet.effective g.settings.openLead) }) g).sheet e other = g.sheet e other := by
      unfold Gate.sheet
      rw [modEvent_event_same]
      cases other <;> rfl
    refine ⟨?_, fun other _ => by rw [stays], by rw [modEvent_event_same], id, fun _ => rfl, fun _ _ => rfl,
      fun _ _ => rfl⟩
    rw [stays, held, ← unoffered]

/-! ## The return from STALLED (R50, R67) -/

section Returned

variable {e : EventIndex} {slot : SheetSlot} {sheet : Sheet} {lead : Option Time} {leg : Option Leg}
  {offers : List SheetNumber} {p : Phase} {g t : Gate}

theorem SheetDelivered.ofStamped (delivered : SheetDelivered e slot sheet lead leg offers (stampedGate e p g) t) :
    SheetDelivered e slot sheet lead leg offers g t where
  sheet := delivered.sheet
  other other apart := by rw [delivered.other other apart, stampedGate_sheet]
  openLead := delivered.openLead
  leg := delivered.leg
  sweep := delivered.sweep
  fresh z unmasked := delivered.fresh z (unblacked_stampedGate.mpr unmasked)
  blacked z blacked := delivered.blacked z fun opens => blacked (unblacked_stampedGate.mp opens)

/-- What the entry actions deliver the phase change delivers. -/
theorem SheetDelivered.changed
    (delivered : SheetDelivered e slot sheet lead leg offers (stampedGate e p g) (actedGate e p g)) :
    SheetDelivered e slot sheet lead leg offers g (changePhase e p g) := by
  have kept := delivered.ofStamped
  have sheets (other : SheetSlot) : (changePhase e p g).sheet e other = (actedGate e p g).sheet e other := by
    unfold Gate.sheet
    rw [changePhase_event]
    cases other <;> rfl
  exact ⟨by rw [sheets, kept.sheet], fun other apart => by rw [sheets, kept.other other apart],
    by rw [changePhase_event]; exact kept.openLead, kept.leg, kept.sweep, kept.fresh, kept.blacked⟩

theorem stamped_openLead (stalled : (g.event e).phase = .stalled) :
    ((stampedGate e p g).event e).openLead = (g.event e).openLead := by
  rw [stampedGate_event, stamped_delivery]
  dsimp only
  rw [if_neg (by rw [stalled]; decide)]

theorem returned_silently (stalled : (g.event e).phase = .stalled) (held : g.sheet e slot = some sheet)
    (entered : p.mode = .noGrant) :
    SheetDelivered e slot sheet (g.event e).openLead none [] g (changePhase e p g) := by
  have silent := delivered_silently (e := e) (slot := slot) (g := stampedGate e p g) ((stampedGate_sheet ..).trans held)
  rw [stamped_openLead stalled] at silent
  exact (actedGate_of_same_mode (p := p) (show (g.event e).phase.mode = p.mode by rw [stalled, entered]; rfl) ▸ silent :
    SheetDelivered e slot sheet _ none [] (stampedGate e p g) (actedGate e p g)).changed

/-- R71: the next open repeat is dated beside what has been delivered. -/
theorem SheetDelivered.again (delivered : SheetDelivered e slot sheet lead leg offers g t) :
    SheetDelivered e slot sheet lead leg offers g (setOpenRepeat e t) := by
  have sheets (other : SheetSlot) : (setOpenRepeat e t).sheet e other = t.sheet e other := by
    unfold Gate.sheet
    rw [setOpenRepeat_event]
    cases other <;> rfl
  exact ⟨by rw [sheets, delivered.sheet], fun other apart => by rw [sheets, delivered.other other apart],
    by rw [setOpenRepeat_event]; exact delivered.openLead, delivered.leg, delivered.sweep, delivered.fresh,
    delivered.blacked⟩

theorem returned_to_preview_current (stalled : (g.event e).phase = .stalled) (held : g.sheet e .current = some sheet)
    (empty : (g.event e).pendingSheet = none) :
    SheetDelivered e .current sheet.offered (g.event e).openLead none [sheet.number] g (changePhase e .preview g) := by
  have offered := delivered_by_offer (e := e) (slot := .current) (g := stampedGate e .preview g)
    ((stampedGate_sheet ..).trans held)
  rw [stamped_openLead stalled] at offered
  refine SheetDelivered.changed ?_
  rw [actedGate_of_preview_entered (by rw [stalled]; rfl), enterOpen_of_none ((stampedGate_sheet ..).trans empty)]
  exact offered.again

theorem classedGate_sheet_current (e : EventIndex) (sheet : Sheet) (g : Gate) :
    (classedGate e sheet g).sheet e .current = (g.event e).current.map Sheet.offered := by
  unfold Gate.sheet
  rw [classedGate_event]
  rfl

theorem returned_to_preview_pending (stalled : (g.event e).phase = .stalled) (held : g.sheet e .pending = some sheet)
    (unoffered : sheet.mark = false) {due : Time} (dated : leadInstant sheet.effective g.settings.openLead = due) :
    SheetDelivered e .pending { sheet with cls := .openClass, mark := decide (Reached g due) }
      (if Reached g due then none else some due) none
      (((g.event e).current.map Sheet.number).toList ++ if Reached g due then [sheet.number] else []) g
      (changePhase e .preview g) := by
  have classed := delivered_by_lead (e := e) (classedGate_sheet e sheet (stampedGate e .preview g)) unoffered (lead := due)
    (by rw [classedGate_settings]; exact dated)
  have same : Reached (classedGate e sheet (stampedGate e .preview g)) due ↔ Reached g due := by
    rw [Reached, classedGate_clock]
    rfl
  simp only [same] at classed
  refine SheetDelivered.changed ?_
  rw [actedGate_of_preview_entered (by rw [stalled]; rfl), enterOpen_of_some ((stampedGate_sheet ..).trans held)]
  refine SheetDelivered.again ⟨classed.sheet, fun other apart => ?_, classed.openLead, fun free => ?_, fun z => ?_,
    fun z unmasked => ?_, fun z blacked => ?_⟩
  · rw [classed.other other apart]
    cases other with
    | current =>
      rw [classedGate_sheet_current, material_map_offered]
      rfl
    | pending => exact absurd rfl apart
  · exact classed.leg ((openOffer_leg e e .current .pending _).trans free)
  · exact (classed.sweep z).trans (openOffer_sweep e .current _ z)
  · have first : ((classedGate e sheet (stampedGate e .preview g)).zone z).fresh
        = ((g.sheet e .current).map Sheet.number).toList.foldl (withOffer e) (g.zone z).fresh := by
      rw [← stampedGate_sheet e e .preview .current g]
      exact openOffer_fresh unmasked
    rw [classed.fresh z (unblacked_classedGate.mpr unmasked), List.foldl_append, first]
    rfl
  · rw [classed.blacked z (fun opens => blacked (unblacked_classedGate.mp opens))]
    exact congrArg Zone.fresh (openOffer_zone_of_blacked e .current (g := stampedGate e .preview g) blacked)

/-- The leg of a sheet that joins where other legs have joined before it. -/
theorem newLeg_of_delivers {h : Gate} (kept : Delivers g h) (number : SheetNumber) (late : Bool) (due : Option Time) :
    newLeg h number late due = newLeg g number late due := by
  unfold newLeg
  rw [kept.cursor]

theorem reached_of_delivers {h : Gate} (kept : Delivers g h) {at_ : Time} : Reached h at_ ↔ Reached g at_ := by
  rw [Reached, kept.clock]

theorem stampedGate_delivers (e : EventIndex) (p : Phase) (g : Gate) : Delivers g (stampedGate e p g) :=
  modEvent_delivers e (stamp_kept p g.clock.siteTime) g

theorem returned_to_listed_current (stalled : (g.event e).phase = .stalled) (entered : p.mode = .listedGrant)
    (held : g.sheet e .current = some sheet) (unoffered : sheet.mark = false) (empty : (g.event e).pendingSheet = none) :
    SheetDelivered e .current sheet (g.event e).openLead
      (if Reached g sheet.effective then some (newLeg g sheet.number true none)
        else some (newLeg g sheet.number false (some sheet.effective))) [] g (changePhase e p g) := by
  have pending : (joinLeg e .current (stampedGate e p g)).sheet e .pending = none := by
    rw [joinLeg_sheet, stampedGate_sheet]
    exact empty
  have joined := delivered_by_join (e := e) (slot := .current) (g := stampedGate e p g)
    ((stampedGate_sheet ..).trans held) unoffered
  rw [stamped_openLead stalled] at joined
  refine SheetDelivered.changed ?_
  rw [actedGate_of_listed_entered (by rw [stalled]; decide) entered, enterListed, joinLeg_of_none pending,
    judgePending_none pending]
  exact joined

theorem not_openlyOffered (unoffered : sheet.mark = false) : ¬ OpenlyOffered sheet := fun both => by
  have mark := both.2
  rw [unoffered] at mark
  cases mark

theorem judgePending_zone (e : EventIndex) (g : Gate) (z : ZoneIndex) : (judgePending e g).zone z = g.zone z := by
  unfold judgePending
  split
  · rfl
  · split
    · rfl
    · split <;> rfl

theorem returned_to_listed_pending (stalled : (g.event e).phase = .stalled) (entered : p.mode = .listedGrant)
    (held : g.sheet e .pending = some sheet) (unlisted : sheet.cls ≠ .listedClass) (unoffered : sheet.mark = false) :
    SheetDelivered e .pending { sheet with cls := .listedClass } none
      (if Reached g sheet.effective then some (newLeg g sheet.number true none)
        else some (newLeg g sheet.number false (some sheet.effective))) [] g (changePhase e p g) := by
  have first : Delivers g (joinLeg e .current (stampedGate e p g)) :=
    (stampedGate_delivers e p g).trans (joinLeg_delivers ..)
  have pending : (joinLeg e .current (stampedGate e p g)).sheet e .pending = some sheet := by
    rw [joinLeg_sheet, stampedGate_sheet, held]
  have both : (joinedGate e (stampedGate e p g)).sheet e .pending = some sheet := by
    rw [joinedGate_sheet, stampedGate_sheet, held]
  have joined := delivered_by_join pending unoffered
  simp only [reached_of_delivers first, newLeg_of_delivers first] at joined
  have judged := judgePending_event_unoffered both (not_openlyOffered unoffered)
  have zones (z : ZoneIndex) :
      (judgePending e (joinedGate e (stampedGate e p g))).zone z = (stampedGate e p g).zone z := by
    rw [judgePending_zone, joinedGate, joinLeg_zone, joinLeg_zone]
  refine SheetDelivered.changed ?_
  rw [actedGate_of_listed_entered (by rw [stalled]; decide) entered, enterListed_eq]
  refine ⟨?_, fun other apart => ?_, ?_, fun free => ?_, fun z => by rw [zones], fun z _ => by rw [zones]; rfl,
    fun z _ => by rw [zones]⟩
  · unfold Gate.sheet
    rw [judged]
    rfl
  · cases other with
    | pending => exact absurd rfl apart
    | current =>
      have same : (judgePending e (joinedGate e (stampedGate e p g))).sheet e .current
          = (joinedGate e (stampedGate e p g)).sheet e .current := by
        unfold Gate.sheet
        rw [judged]
        rfl
      rw [same, joinedGate_sheet]
  · rw [judged]
    exact if_neg unlisted
  · rw [judgePending_leg]
    exact joined.leg (joinLeg_leg_absent (.inr (by decide)) free)

end Returned

/-! ## What an acceptance ends with -/

theorem deliver_withoutDelivery (e : EventIndex) (slot : SheetSlot) (cls : SheetClass) (g : Gate) :
    ((deliver e slot cls g).event e).withoutDelivery = (g.event e).withoutDelivery := by
  unfold deliver
  split
  · exact joinLeg_withoutDelivery ..
  · exact setOpenLead_withoutDelivery ..
  · exact openOffer_withoutDelivery ..
  · rfl

theorem deliver_phase (e : EventIndex) (slot : SheetSlot) (cls : SheetClass) (g : Gate) :
    ((deliver e slot cls g).event e).phase = (g.event e).phase :=
  (congrArg Event.phase (deliver_withoutDelivery e slot cls g) :)

theorem eventCount_deliver {k : EventCounter} (joins : k ≠ .legsJoined) (late : k ≠ .lateLegs) (e : EventIndex)
    (slot : SheetSlot) (cls : SheetClass) (g : Gate) : eventCount (deliver e slot cls g) e k = eventCount g e k := by
  have offered (slot : SheetSlot) (h : Gate) : eventCount (openOffer e slot h) e k = eventCount h e k := by
    unfold eventCount
    rw [openOffer_event, if_pos rfl]
    cases slot <;> rfl
  unfold deliver
  split
  · exact eventCount_joinLeg e e slot g joins late
  · refine setOpenLead_keeps (Q := fun h => eventCount h e k = eventCount g e k) rfl (fun lead => ?_) ?_
    · rw [eventCount_modEvent, if_pos rfl]
      rfl
    · rw [offered, eventCount_modEvent, if_pos rfl]
      rfl
  · exact offered .current g
  · rfl

/-- R50, R67: the phase of an event once a sheet has been accepted for it. -/
def Event.returnedPhase (ev : Event) : Phase :=
  if ev.phase = .stalled then ev.resumePhase.getD .stalled else ev.phase

theorem preview_of_mode {p : Phase} (mode : p.mode = .openGrant) : p = .preview := by
  cases p <;> simp [Phase.mode] at mode ⊢

/-- R67: an accepted sheet as it stands once it has been delivered. -/
def deliveredSheet (g : Gate) (e : EventIndex) (number : SheetNumber) (effective : Time) (blob : List Byte)
    (offered : Bool) : Sheet where
  number := number
  effective := effective
  blob := blob
  cls := if (g.event e).phase = .stalled ∧ slotFor g e effective = .current then .noClass
    else (g.event e).returnedPhase.mode.sheetClass
  mark := offered

/-- R70, R71: the sheets whose open entries an acceptance offers. -/
def acceptOffers (g : Gate) (e : EventIndex) (number : SheetNumber) (effective : Time) (offered : Bool) :
    List SheetNumber :=
  (if (g.event e).phase = .stalled ∧ (g.event e).returnedPhase = .preview ∧ slotFor g e effective = .pending then
    ((g.event e).current.map Sheet.number).toList else []) ++ if offered = true then [number] else []

/-- R120: the leg of an accepted sheet. -/
def acceptLeg (g : Gate) (e : EventIndex) (number : SheetNumber) (effective : Time) : Option Leg :=
  if (g.event e).returnedPhase.mode = .listedGrant then
    if Reached g effective then some (newLeg g number true none) else some (newLeg g number false (some effective))
  else none

section Accepted

variable {e : EventIndex} {number : SheetNumber} {effective : Time} {blob : List Byte} {g : Gate}

theorem slotFor_pending_of_held (held : (g.event e).pendingSheet ≠ none) : slotFor g e effective = .pending :=
  if_pos held

theorem pending_none_of_slot (slot : slotFor g e effective = .current) : (g.event e).pendingSheet = none := by
  by_contra held
  rw [slotFor_pending_of_held held] at slot
  cases slot

/-- R65: an accepted sheet takes the current slot of a part whose clock is SET where its effective time has passed. -/
theorem slotFor_current_iff : ((g.event e).pendingSheet = none ∧ g.clock.isSet = true ∧ slotFor g e effective = .current) ↔
    (g.event e).pendingSheet = none ∧ g.clock.isSet = true ∧ effective ≤ g.clock.siteTime := by
  refine and_congr_right fun empty => and_congr_right fun set => ?_
  unfold slotFor
  rw [if_neg (not_not.mpr empty), if_pos set, ← BitVec.not_lt]
  split
  · next early => simp [early]
  · next passed => simp [passed]

/-- The delivery of an accepted sheet to an event that is not STALLED. -/
theorem accepted_directly (unstalled : (g.event e).phase ≠ .stalled) {offered : Bool}
    (offers : offered = decide ((g.event e).phase = .preview ∧ (slotFor g e effective = .current ∨
      Reached g (leadInstant effective g.settings.openLead)))) :
    SheetDelivered e (slotFor g e effective) (deliveredSheet g e number effective blob offered)
      (if slotFor g e effective = .pending ∧ (g.event e).phase = .preview then
        (if Reached g (leadInstant effective g.settings.openLead) then none
          else some (leadInstant effective g.settings.openLead))
        else if slotFor g e effective = .pending ∧ (g.event e).pendingSheet.isSome then none else (g.event e).openLead)
      (acceptLeg g e number effective) (acceptOffers g e number effective offered)
      (placedGate e (slotFor g e effective) (acceptedSheet g e number effective blob) g)
      (acceptSheet e number effective blob g) := by
  have kept := placedGate_delivers e (slotFor g e effective) (acceptedSheet g e number effective blob) g
  have held := placedGate_sheet (e := e) (slot := slotFor g e effective)
    (sheet := acceptedSheet g e number effective blob) (g := g)
  have lead := placedGate_openLead (e := e) (slot := slotFor g e effective)
    (sheet := acceptedSheet g e number effective blob) (g := g)
  have stays : ((deliver e (slotFor g e effective) (g.event e).phase.mode.sheetClass
      (placedGate e (slotFor g e effective) (acceptedSheet g e number effective blob) g)).event e).phase ≠ .stalled := by
    rw [deliver_phase, placedGate_phase.1]
    exact unstalled
  have same : (g.event e).returnedPhase = (g.event e).phase := if_neg unstalled
  rw [acceptSheet_eq, placeFor_eq, returnFromStall, if_neg stays]
  unfold deliveredSheet acceptOffers acceptLeg
  rw [same]
  cases mode : (g.event e).phase.mode with
  | noGrant =>
    have apart : (g.event e).phase ≠ .preview := by rintro same; rw [same] at mode; cases mode
    have silent := delivered_silently held
    rw [lead] at silent
    simp only [apart, false_and, decide_false] at offers
    subst offers
    simpa [deliver, acceptedSheet, mode, GrantMode.sheetClass, unstalled, apart] using silent
  | openGrant =>
    have preview := preview_of_mode mode
    cases slot : slotFor g e effective with
    | current =>
      rw [slot] at held lead offers
      have offer := delivered_by_offer held
      rw [lead] at offer
      simp only [preview, true_and, true_or, decide_true] at offers
      subst offers
      simpa [deliver, acceptedSheet, mode, GrantMode.sheetClass, unstalled, preview, Phase.mode, Sheet.offered] using offer
    | pending =>
      rw [slot] at held kept offers
      have dated := delivered_by_lead held rfl (lead := leadInstant effective g.settings.openLead) (by rw [kept.settings]; rfl)
      simp only [reached_of_delivers kept] at dated
      simp only [preview, true_and, reduceCtorEq, false_or] at offers
      subst offers
      simpa [deliver, acceptedSheet, mode, GrantMode.sheetClass, unstalled, preview, Phase.mode] using dated
  | listedGrant =>
    have apart : (g.event e).phase ≠ .preview := by rintro same; rw [same] at mode; cases mode
    have joined := delivered_by_join held rfl
    rw [lead] at joined
    simp only [reached_of_delivers kept, newLeg_of_delivers kept] at joined
    simp only [apart, false_and, decide_false] at offers
    subst offers
    simpa [deliver, acceptedSheet, mode, GrantMode.sheetClass, unstalled, apart] using joined

/-- A STALLED event that accepts a sheet changes into its resume phase, and that change delivers the sheet. -/
theorem acceptSheet_of_stalled (stalled : (g.event e).phase = .stalled) : acceptSheet e number effective blob g
    = changePhase e (g.event e).returnedPhase
        (placedGate e (slotFor g e effective) (acceptedSheet g e number effective blob) g) := by
  have silent (h : Gate) : deliver e (slotFor g e effective) (g.event e).phase.mode.sheetClass h = h := by
    rw [stalled]
    rfl
  rw [acceptSheet_eq, placeFor_eq, silent, returnFromStall, placedGate_phase.1, placedGate_phase.2, if_pos stalled,
    Event.returnedPhase, if_pos stalled]

/-- The delivery of an accepted sheet to a STALLED event. -/
theorem accepted_from_stall (stalled : (g.event e).phase = .stalled) {offered : Bool}
    (offers : offered = decide ((g.event e).returnedPhase = .preview ∧ (slotFor g e effective = .current ∨
      Reached g (leadInstant effective g.settings.openLead)))) :
    ∃ lead, SheetDelivered e (slotFor g e effective) (deliveredSheet g e number effective blob offered) lead
        (acceptLeg g e number effective) (acceptOffers g e number effective offered)
        (placedGate e (slotFor g e effective) (acceptedSheet g e number effective blob) g)
        (acceptSheet e number effective blob g) ∧
      (slotFor g e effective = .current → lead = (g.event e).openLead) ∧
      (slotFor g e effective = .pending → (g.event e).returnedPhase = .preview →
        lead = if Reached g (leadInstant effective g.settings.openLead) then none
          else some (leadInstant effective g.settings.openLead)) ∧
      (slotFor g e effective = .pending → (g.event e).returnedPhase ≠ .preview → (g.event e).pendingSheet ≠ none →
        lead = none) := by
  have kept := placedGate_delivers e (slotFor g e effective) (acceptedSheet g e number effective blob) g
  have held := placedGate_sheet (e := e) (slot := slotFor g e effective)
    (sheet := acceptedSheet g e number effective blob) (g := g)
  have lead := placedGate_openLead (e := e) (slot := slotFor g e effective)
    (sheet := acceptedSheet g e number effective blob) (g := g)
  have placedStalled := (placedGate_phase (e := e) (slot := slotFor g e effective)
    (sheet := acceptedSheet g e number effective blob) (g := g)).1.trans stalled
  have unclassed : (acceptedSheet g e number effective blob).cls = .noClass := by
    unfold acceptedSheet
    rw [stalled]
    rfl
  rw [acceptSheet_of_stalled stalled]
  unfold deliveredSheet acceptOffers acceptLeg
  generalize returned : (g.event e).returnedPhase = p at offers ⊢
  cases mode : p.mode with
  | noGrant =>
    have apart : p ≠ .preview := by rintro rfl; cases mode
    have silent := returned_silently placedStalled held mode
    rw [lead] at silent
    simp only [apart, false_and, decide_false] at offers
    subst offers
    refine ⟨if slotFor g e effective = .pending ∧ (g.event e).pendingSheet.isSome then none else (g.event e).openLead,
      by simpa [acceptedSheet, mode, GrantMode.sheetClass, stalled, apart, Phase.mode] using silent,
      fun current => if_neg fun both => ?_, fun _ preview => absurd preview apart, fun pending _ displaced =>
        if_pos ⟨pending, Option.isSome_iff_ne_none.mpr displaced⟩⟩
    rw [current] at both
    cases both.1
  | openGrant =>
    obtain rfl := preview_of_mode mode
    cases slot : slotFor g e effective with
    | current =>
      rw [slot] at held lead offers placedStalled
      have empty := (placedGate_sheet_other (e := e) (sheet := acceptedSheet g e number effective blob) (g := g)
        (show SheetSlot.pending ≠ .current by decide)).trans (pending_none_of_slot slot)
      have offer := returned_to_preview_current placedStalled held empty
      rw [lead] at offer
      simp only [true_and, true_or, decide_true] at offers
      subst offers
      exact ⟨_, by simpa [acceptedSheet, mode, GrantMode.sheetClass, stalled, Phase.mode, Sheet.offered] using offer,
        fun _ => rfl, fun pending => (by cases pending), fun pending => (by cases pending)⟩
    | pending =>
      rw [slot] at held kept offers placedStalled
      have current : ((placedGate e .pending (acceptedSheet g e number effective blob) g).event e).current
          = (g.event e).current := placedGate_sheet_other (other := .current) (by decide)
      have dated := returned_to_preview_pending placedStalled held rfl (due := leadInstant effective g.settings.openLead)
        (by rw [kept.settings]; rfl)
      simp only [reached_of_delivers kept, current] at dated
      simp only [true_and, reduceCtorEq, false_or] at offers
      subst offers
      exact ⟨_, by simpa [acceptedSheet, mode, GrantMode.sheetClass, stalled, Phase.mode] using dated,
        fun current => (by cases current), fun _ _ => rfl, fun _ other => absurd rfl other⟩
  | listedGrant =>
    have apart : p ≠ .preview := by rintro rfl; cases mode
    simp only [apart, false_and, decide_false] at offers
    subst offers
    cases slot : slotFor g e effective with
    | current =>
      rw [slot] at held lead placedStalled kept
      have empty := (placedGate_sheet_other (e := e) (sheet := acceptedSheet g e number effective blob) (g := g)
        (show SheetSlot.pending ≠ .current by decide)).trans (pending_none_of_slot slot)
      have joined := returned_to_listed_current placedStalled mode held rfl empty
      rw [lead] at joined
      simp only [reached_of_delivers kept, newLeg_of_delivers kept] at joined
      exact ⟨_, by simpa [acceptedSheet, mode, GrantMode.sheetClass, stalled, apart, Phase.mode] using joined,
        fun _ => rfl, fun pending => (by cases pending), fun pending => (by cases pending)⟩
    | pending =>
      rw [slot] at held placedStalled kept
      have joined := returned_to_listed_pending placedStalled mode held (by rw [unclassed]; decide) rfl
      simp only [reached_of_delivers kept, newLeg_of_delivers kept] at joined
      exact ⟨_, by simpa [acceptedSheet, mode, GrantMode.sheetClass, stalled, apart, Phase.mode] using joined,
        fun current => (by cases current), fun _ preview => absurd preview apart, fun _ _ _ => rfl⟩

/-- What every acceptance of a sheet delivers. -/
theorem acceptSheet_delivered {offered : Bool}
    (offers : offered = decide ((g.event e).returnedPhase = .preview ∧ (slotFor g e effective = .current ∨
      Reached g (leadInstant effective g.settings.openLead)))) :
    ∃ lead, SheetDelivered e (slotFor g e effective) (deliveredSheet g e number effective blob offered) lead
        (acceptLeg g e number effective) (acceptOffers g e number effective offered)
        (placedGate e (slotFor g e effective) (acceptedSheet g e number effective blob) g)
        (acceptSheet e number effective blob g) ∧
      (slotFor g e effective = .current → lead = (g.event e).openLead) ∧
      (slotFor g e effective = .pending → (g.event e).returnedPhase = .preview →
        lead = if Reached g (leadInstant effective g.settings.openLead) then none
          else some (leadInstant effective g.settings.openLead)) ∧
      (slotFor g e effective = .pending → (g.event e).returnedPhase ≠ .preview → (g.event e).pendingSheet ≠ none →
        lead = none) := by
  by_cases stalled : (g.event e).phase = .stalled
  · exact accepted_from_stall stalled offers
  · have same : (g.event e).returnedPhase = (g.event e).phase := if_neg stalled
    rw [same] at offers ⊢
    refine ⟨_, accepted_directly stalled offers, fun current => ?_, fun pending preview => if_pos ⟨pending, preview⟩,
      fun pending other displaced => ?_⟩
    · rw [current]
      rfl
    · rw [if_neg fun both => other both.2, if_pos ⟨pending, Option.isSome_iff_ne_none.mpr displaced⟩]

/-- The phase, the starvation items and the counters of an event once a sheet has been accepted for it. -/
theorem acceptSheet_record :
    ((acceptSheet e number effective blob g).event e).phase = (g.event e).returnedPhase ∧
      ((acceptSheet e number effective blob g).event e).starvation = 0 ∧
      ((acceptSheet e number effective blob g).event e).base = some effective ∧
      ((acceptSheet e number effective blob g).event e).nextStarvation
        = some (timeAdd effective ((g.event e).epoch.toNat * 1000)) ∧
      ∀ k ∈ [EventCounter.sheetsAccepted, .supersedes, .lateSheets],
        eventCount (acceptSheet e number effective blob g) e k = eventCount (countedGate e (slotFor g e effective) g) e k := by
  obtain ⟨count, base, next⟩ := placedGate_starvation (e := e) (slot := slotFor g e effective)
    (sheet := acceptedSheet g e number effective blob) (g := g)
  obtain ⟨phase, -⟩ := placedGate_phase (e := e) (slot := slotFor g e effective)
    (sheet := acceptedSheet g e number effective blob) (g := g)
  by_cases stalled : (g.event e).phase = .stalled
  · rw [acceptSheet_of_stalled stalled]
    generalize placed : placedGate e (slotFor g e effective) (acceptedSheet g e number effective blob) g = h at *
    have record := changePhase_record e (g.event e).returnedPhase h
    rw [changed_eq] at record
    obtain ⟨kept, keptNext⟩ := changePhase_base e (g.event e).returnedPhase h
    have based : ¬ ((g.event e).returnedPhase.mode ≠ .noGrant ∧ (h.event e).base = none) := fun both => by
      rw [base] at both
      cases both.2
    refine ⟨changePhase_phase .., (congrArg Event.starvation record :).trans count, kept.trans ((if_neg based).trans base),
      keptNext.trans ((if_neg based).trans next), fun k listed => ?_⟩
    rw [eventCount_changePhase e _ _ (by rintro rfl; simp at listed) (by rintro rfl; simp at listed)
      (by rintro rfl; simp at listed), ← placed, eventCount_placedGate]
  · have same : (g.event e).returnedPhase = (g.event e).phase := if_neg stalled
    rw [acceptSheet_eq, placeFor_eq, returnFromStall, if_neg (by rw [deliver_phase, phase]; exact stalled)]
    have record := deliver_withoutDelivery e (slotFor g e effective) (g.event e).phase.mode.sheetClass
      (placedGate e (slotFor g e effective) (acceptedSheet g e number effective blob) g)
    refine ⟨(congrArg Event.phase record :).trans (phase.trans same.symm), (congrArg Event.starvation record :).trans count,
      (congrArg Event.base record :).trans base, (congrArg Event.nextStarvation record :).trans next, fun k listed => ?_⟩
    rw [← eventCount_placedGate (sheet := acceptedSheet g e number effective blob)]
    exact eventCount_deliver (by rintro rfl; simp at listed) (by rintro rfl; simp at listed) ..

end Accepted

end Sys2Proof.Machine

namespace Sys2Proof.Proofs

open Sys2Proof.Machine Sys2Proof.Safety Sys2Proof.Claims

set_option Elab.async false

/-- Settles O24: the sheet is placed, which resets the starvation items, and then delivered by the phase that the event has or
returns to. -/
theorem keyCellAcceptedTakesItsSlot : Obligations.KeyCellAcceptedTakesItsSlot := by
  unfold Obligations.KeyCellAcceptedTakesItsSlot
  intro s e cell held ev number effective slot returns phase lead offered offers loaded stays own numbered newer
  obtain ⟨mark, marked⟩ : ∃ mark, mark = decide offered := ⟨_, rfl⟩
  have sameOffers : acceptOffers (clearHandoff s.gate) e number effective mark = offers := by
    subst marked
    exact congrArg (_ ++ ·) (if_congr decide_eq_true_iff rfl rfl)
  have accepts : takeKey e cell (clearHandoff s.gate)
      = acceptSheet e number effective ((cell.drop 17).take 72) (clearHandoff s.gate) := by
    rw [takeKey_own (g := clearHandoff s.gate) loaded stays own]
    cases newest : newestSheet ev with
    | none => exact judgeSheet_first newest numbered
    | some sheet => exact judgeSheet_accepted newest (newer sheet newest).1 (newer sheet newest).2
  obtain ⟨instant, delivered, current, preview, other⟩ := acceptSheet_delivered (g := clearHandoff s.gate) (e := e)
    (number := number) (effective := effective) (blob := (cell.drop 17).take 72) (offered := mark) marked
  obtain ⟨phaseAfter, count, base, next, counters⟩ := acceptSheet_record (g := clearHandoff s.gate) (e := e)
    (number := number) (effective := effective) (blob := (cell.drop 17).take 72)
  obtain ⟨accepted, supersedes, late⟩ := eventCount_countedGate e slot (clearHandoff s.gate)
  refine ⟨_, exec_keyCell_handed held, ?_⟩
  dsimp only
  rw [accepts]
  refine ⟨by rw [(acceptSheet_delivers ..).intake]; rfl, marked ▸ delivered.sheet, fun other apart => ?_,
    count, base, next, phaseAfter, (counters _ (by simp)).trans accepted,
    (counters _ (by simp)).trans supersedes, (counters _ (by simp)).trans (late.trans ?_),
    fun ok => ?_, fun here => delivered.openLead.trans (current here), fun here at_ => delivered.openLead.trans (preview here at_),
    fun here at_ displaced => delivered.openLead.trans (other here at_ displaced), fun z => ⟨?_, fun unmasked => ?_, fun blacked => ?_⟩⟩
  · rw [delivered.other other apart]
    exact congrArg (Option.map material) (placedGate_sheet_other (g := clearHandoff s.gate) apart)
  · exact if_congr (slotFor_current_iff (g := clearHandoff s.gate) (effective := effective)) rfl rfl
  · exact delivered.leg (placedGate_leg ((legsStay_of_same (g := s.gate) (h := clearHandoff s.gate)).legsOk ok))
  · exact (delivered.sweep z).trans (placedGate_zone z).2
  · rw [delivered.fresh z ((unblacked_of_delivers (g := clearHandoff s.gate) (placedGate_delivers ..)).mpr unmasked), (placedGate_zone z).1,
      sameOffers]
    rfl
  · rw [delivered.blacked z (fun opens =>
        blacked ((unblacked_of_delivers (g := clearHandoff s.gate) (placedGate_delivers ..)).mp opens)),
      (placedGate_zone z).1]
    rfl

end Sys2Proof.Proofs

/-! PROOF. The promotion of a pending sheet (R69, R131): when it is due, what becomes of the roster, and the statement
PromotionMovesThePendingSheet. -/

namespace Sys2Proof.Machine

open Sys2Proof.Safety Sys2Proof.Claims

set_option Elab.async false

/-! ## First laps (R124) -/

theorem firstLap_iff {leg : Leg} : leg.firstLap = true ↔ leg.walking = true ∧ leg.lap = 1 := by
  simp [Leg.firstLap]

theorem lapUp_eq (lap : Half) : lapUp lap = BitVec.ofNat 16 (min (lap.toNat + 1) 65535) := by
  refine BitVec.eq_of_toNat_eq ?_
  have limit := lap.isLt
  unfold lapUp
  rw [BitVec.toNat_ofNat]
  split
  · next top =>
    subst top
    rfl
  · next below =>
    have apart : lap.toNat ≠ 65535 := fun same => below (BitVec.eq_of_toNat_eq same)
    have one : (1 : Half).toNat = 1 := rfl
    rw [BitVec.toNat_add]
    omega

theorem resume_eq_resumed (cursor : Bucket) : Leg.resume cursor = resumed cursor := by
  funext leg
  unfold Leg.resume resumed onNextLap
  rw [lapUp_eq]

/-- R124: a first-lap leg is left once the leg of a place has gone. -/
theorem hasFirstLap_cleared_iff {g : Gate} {e : EventIndex} {slot : SheetSlot} :
    (setLeg e slot none g).hasFirstLap = true ↔ FirstLapLeft g (e, slot) := by
  rw [hasFirstLap_iff]
  constructor
  · rintro ⟨f, other, leg, held, first⟩
    have apart : f ≠ e ∨ other ≠ slot := by
      by_contra same
      obtain ⟨rfl, rfl⟩ : f = e ∧ other = slot := by simpa [not_or] using same
      rw [setLeg_leg_same] at held
      cases held
    rw [setLeg_leg_other apart] at held
    obtain ⟨walking, lap⟩ := firstLap_iff.mp first
    exact ⟨f, other, leg, fun same => apart.elim (fun other => other (congrArg Prod.fst same))
      (fun other => other (congrArg Prod.snd same)), held, walking, lap⟩
  · rintro ⟨f, other, leg, apart, held, walking, lap⟩
    refine ⟨f, other, leg, ?_, firstLap_iff.mpr ⟨walking, lap⟩⟩
    rw [setLeg_leg_other (not_and_or.mp fun same => apart (Prod.ext same.1 same.2)), held]

/-- R124, R132: the leg in a place was on its first lap and no other leg of the roster is. -/
def LastFirstLap (g : Gate) (e : EventIndex) (slot : SheetSlot) : Prop :=
  ∃ leg, g.leg e slot = some leg ∧ leg.walking = true ∧ leg.lap = 1 ∧ ¬ FirstLapLeft g (e, slot)

theorem lastFirstLap_iff {g : Gate} {e : EventIndex} {slot : SheetSlot} :
    ((g.leg e slot).any Leg.firstLap && !(setLeg e slot none g).hasFirstLap) = true ↔ LastFirstLap g e slot := by
  have left := hasFirstLap_cleared_iff (g := g) (e := e) (slot := slot)
  unfold LastFirstLap
  rw [Bool.and_eq_true, Bool.not_eq_true', ← Bool.not_eq_true, left]
  cases g.leg e slot with
  | none => simp
  | some leg => simp [firstLap_iff, and_assoc]

/-- The legs left by the discard of a sheet that is held. -/
theorem discardSheet_leg_other {e f : EventIndex} {slot other : SheetSlot} {g : Gate} {sheet : Sheet}
    (held : g.sheet e slot = some sheet) (apart : ¬ (f = e ∧ other = slot)) :
    (LastFirstLap g e slot → (discardSheet e slot g).leg f other = (g.leg f other).map (resumed g.walker.cursor)) ∧
      (¬ LastFirstLap g e slot → (discardSheet e slot g).leg f other = g.leg f other) := by
  have legs : (discardSheet e slot g).leg f other
      = if ((g.leg e slot).any Leg.firstLap && !(setLeg e slot none g).hasFirstLap) = true then
          (g.leg f other).map (Leg.resume g.walker.cursor)
        else g.leg f other := by
    rw [discardSheet_eq held, onZones_leg, dropLeg_leg, if_neg apart]
    rfl
  rw [legs, resume_eq_resumed]
  exact ⟨fun last => if_pos (lastFirstLap_iff.mpr last), fun other => if_neg fun last => other (lastFirstLap_iff.mp last)⟩

/-! ## The promotion -/

/-- The part once the pending sheet has moved and the promotion been counted. -/
def movedGate (e : EventIndex) (g : Gate) : Gate :=
  bumpEvent e .promotions (movePending e (discardSheet e .current g))

theorem promote_eq (e : EventIndex) (g : Gate) : promote e g = offerPromoted e (movedGate e g) := rfl

theorem discardSheet_current_event (e : EventIndex) (g : Gate) :
    (discardSheet e .current g).event e = { g.event e with current := none } := by
  rw [discardSheet_event]
  cases held : (g.event e).current with
  | none =>
    have absent : g.sheet e .current = none := held
    rw [absent, if_neg (by simp), ← held]
  | some sheet =>
    have there : g.sheet e .current = some sheet := held
    rw [there, if_pos ⟨rfl, rfl⟩]
    rfl

theorem movedGate_event (e : EventIndex) (g : Gate) : (movedGate e g).event e = Event.countBy .promotions 1
    { g.event e with current := (g.event e).pendingSheet, pendingSheet := none, openLead := none } := by
  unfold movedGate movePending
  rw [bumpEvent_event, if_pos rfl, setLeg_event, setLeg_event, modEvent_event_same, discardSheet_current_event]

theorem movedGate_zone (e : EventIndex) (g : Gate) (z : ZoneIndex) :
    (movedGate e g).zone z = (discardSheet e .current g).zone z := by
  unfold movedGate movePending
  rw [bumpEvent_zone, setLeg_zone, setLeg_zone, modEvent_zone]

theorem movedGate_leg_pending (e : EventIndex) (g : Gate) : (movedGate e g).leg e .pending = none := by
  unfold movedGate movePending
  rw [bumpEvent_leg, setLeg_leg_same]

theorem movedGate_leg_current (e : EventIndex) (g : Gate) :
    (movedGate e g).leg e .current = (discardSheet e .current g).leg e .pending := by
  unfold movedGate movePending
  rw [bumpEvent_leg, setLeg_leg_other (.inr (by decide)), setLeg_leg_same]

theorem movedGate_leg_other {e f : EventIndex} (other : f ≠ e) (slot : SheetSlot) (g : Gate) :
    (movedGate e g).leg f slot = (discardSheet e .current g).leg f slot := by
  unfold movedGate movePending
  rw [bumpEvent_leg, setLeg_leg_other (.inl other), setLeg_leg_other (.inl other), modEvent_leg]

theorem movedGate_delivers (e : EventIndex) (g : Gate) : Delivers g (movedGate e g) :=
  ((discardSheet_delivers ..).trans ((modEvent_delivers e (fun _ => by constructor <;> rfl) _).trans
    ((setLeg_delivers ..).trans (setLeg_delivers ..)))).trans (bumpEvent_delivers ..)

theorem offerPromoted_offered {e : EventIndex} {g : Gate} {sheet : Sheet} (held : g.sheet e .current = some sheet)
    (offered : sheet.cls = .openClass ∧ sheet.mark = false ∧ (g.event e).phase = .preview) :
    offerPromoted e g = openOffer e .current g := by
  unfold offerPromoted
  rw [held]
  exact if_pos offered

theorem offerPromoted_silent {e : EventIndex} {g : Gate} {sheet : Sheet} (held : g.sheet e .current = some sheet)
    (silent : ¬ (sheet.cls = .openClass ∧ sheet.mark = false ∧ (g.event e).phase = .preview)) :
    offerPromoted e g = g := by
  unfold offerPromoted
  rw [held]
  exact if_neg silent

theorem offerPromoted_leg (e f : EventIndex) (slot : SheetSlot) (g : Gate) :
    (offerPromoted e g).leg f slot = g.leg f slot := by
  unfold offerPromoted
  split
  · split
    · exact openOffer_leg ..
    · rfl
  · rfl

theorem offerPromoted_sweep (e : EventIndex) (g : Gate) (z : ZoneIndex) :
    ((offerPromoted e g).zone z).sweep = (g.zone z).sweep := by
  unfold offerPromoted
  split
  · split
    · exact openOffer_sweep ..
    · rfl
  · rfl

theorem exec_promotion_due {s : State} {e : EventIndex} {sheet : Sheet} (held : (s.gate.event e).pendingSheet = some sheet)
    (reached : Reached s.gate sheet.effective)
    (lead : ∀ lead, (s.gate.event e).openLead = some lead → sheet.effective < lead)
    (next : ∀ next, (s.gate.event e).nextStarvation = some next → sheet.effective ≤ next)
    (again : ∀ again, (s.gate.event e).openRepeat = some again → sheet.effective ≤ again) :
    exec (.promotion e) s = .next { s with gate := promote e s.gate } := by
  have split_ {t u : Time} (le : t ≤ u) : t < u ∨ t = u := by
    rcases Nat.lt_or_eq_of_le (BitVec.le_def.mp le) with less | same
    · exact .inl (BitVec.lt_def.mpr less)
    · exact .inr (BitVec.eq_of_toNat_eq same)
  have due : s.gate.instantDue e .promotion = true := by
    refine instantDue_iff.mpr ⟨sheet.effective, by rw [Event.instant, held]; rfl, reached, fun other u there => ?_⟩
    cases other with
    | lead => exact .inl (lead u there)
    | promotion =>
      rw [Event.instant, held] at there
      cases there
      exact .inr ⟨rfl, Nat.le_refl _⟩
    | starvation => exact (split_ (next u there)).imp_right fun same => ⟨same, by decide⟩
    | openRepeat => exact (split_ (again u there)).imp_right fun same => ⟨same, by decide⟩
  rw [exec_eq_effect]
  exact congrArg (fun gate => Host.Outcome.next { s with gate := gate }) (if_pos due)

end Sys2Proof.Machine

namespace Sys2Proof.Proofs

open Sys2Proof.Machine Sys2Proof.Safety Sys2Proof.Claims

set_option Elab.async false

/-- Settles O26: the displaced sheet is discarded, the pending one moves with its leg, and it is offered in PREVIEW. -/
theorem promotionMovesThePendingSheet : Obligations.PromotionMovesThePendingSheet := by
  unfold Obligations.PromotionMovesThePendingSheet
  intro s e sheet ev offered lastFirstLap held reached lead next again
  have event := movedGate_event e s.gate
  have current : (movedGate e s.gate).sheet e .current = some sheet := by
    unfold Gate.sheet
    rw [event]
    exact held
  have promoted : (promote e s.gate).event e = { (movedGate e s.gate).event e with
      current := some { sheet with mark := sheet.mark || decide offered } } := by
    rw [promote_eq]
    by_cases offer : offered
    · rw [offerPromoted_offered current ⟨offer.1, offer.2.1, by rw [event]; exact offer.2.2⟩, openOffer_event, if_pos rfl,
        current, decide_eq_true offer, Bool.or_true]
      rfl
    · have same : ((movedGate e s.gate).event e).current = some sheet := current
      rw [offerPromoted_silent current (by rw [event]; exact offer), decide_eq_false offer, Bool.or_false, ← same]
  have placed : ∀ slot, (promote e s.gate).leg e slot = (movedGate e s.gate).leg e slot := fun slot => offerPromoted_leg ..
  have others : ∀ f slot, f ≠ e → (promote e s.gate).leg f slot = (discardSheet e .current s.gate).leg f slot :=
    fun f slot other => (offerPromoted_leg ..).trans (movedGate_leg_other other slot s.gate)
  refine ⟨_, exec_promotion_due held reached lead next again, ?_⟩
  dsimp only
  rw [promoted, event]
  refine ⟨rfl, rfl, rfl, rfl, rfl, rfl, rfl, ?count, ?pending, fun stays => ?stays, fun last => ?last, fun z => ⟨?sweep,
    fun offer unmasked => ?offered, fun silent => ?silent⟩⟩
  case count =>
    unfold eventCount
    rw [promoted, event]
    exact (Event.countBy_counter .promotions .promotions 1 _).trans (if_pos rfl)
  case pending => rw [placed, movedGate_leg_pending]
  case stays =>
    rw [placed, movedGate_leg_current]
    cases displaced : s.gate.sheet e .current with
    | none =>
      rw [discardSheet_none displaced]
      exact ⟨rfl, fun f slot other => by rw [others f slot other, discardSheet_none displaced]⟩
    | some old =>
      have kept : ¬ LastFirstLap s.gate e .current := fun last =>
        stays ⟨fun empty => (by cases displaced.symm.trans empty), last⟩
      exact ⟨(discardSheet_leg_other displaced (by simp)).2 kept, fun f slot other => by
        rw [others f slot other, (discardSheet_leg_other displaced (fun same => other same.1)).2 kept]⟩
  case last =>
    rw [placed, movedGate_leg_current]
    obtain ⟨old, displaced⟩ := Option.ne_none_iff_exists'.mp last.1
    have displaced : s.gate.sheet e .current = some old := displaced
    exact ⟨(discardSheet_leg_other displaced (by simp)).1 last.2, fun f slot other => by
      rw [others f slot other, (discardSheet_leg_other displaced (fun same => other same.1)).1 last.2]⟩
  case sweep =>
    rw [promote_eq, offerPromoted_sweep, movedGate_zone]
    exact (discardSheet_zone_work e .current s.gate z).2
  case offered =>
    rw [promote_eq, offerPromoted_offered current ⟨offer.1, offer.2.1, by rw [event]; exact offer.2.2⟩,
      openOffer_fresh ((unblacked_of_delivers (movedGate_delivers e s.gate)).mpr unmasked), current, movedGate_zone]
    exact congrArg (fun queue => withOffer e queue sheet.number) (discardSheet_zone_work e .current s.gate z).1
  case silent =>
    have zone : ((promote e s.gate).zone z).fresh = ((movedGate e s.gate).zone z).fresh := by
      rw [promote_eq]
      by_cases offer : offered
      · rw [offerPromoted_offered current ⟨offer.1, offer.2.1, by rw [event]; exact offer.2.2⟩,
          openOffer_zone_of_blacked e .current fun opens => silent ⟨offer,
            (unblacked_of_delivers (movedGate_delivers e s.gate)).mp opens⟩]
      · rw [offerPromoted_silent current (by rw [event]; exact offer)]
    rw [zone, movedGate_zone]
    exact (discardSheet_zone_work e .current s.gate z).1

end Sys2Proof.Proofs

/-! PROOF. The open instants (R70, R71) and the starvation instant (R75, R76) of an event: when each is due, what each does, and
the statements OpenInstantsOfferEveryUnblackedZone and StarvationInstantCountsAndStalls. -/

namespace Sys2Proof.Machine

open Sys2Proof.Safety Sys2Proof.Claims

set_option Elab.async false

theorem exec_of_effect {i : Instr} {s : State} {g : Gate} (becomes : effect i s.gate = g) :
    exec i s = .next { s with gate := g } := by
  rw [exec_eq_effect, becomes]

/-- Steps that change event records and zones alone, one after the other. -/
theorem framed_trans {g h k : Gate} (first : h = { g with events := h.events, zones := h.zones })
    (second : k = { h with events := k.events, zones := k.zones }) : k = { g with events := k.events, zones := k.zones } :=
  second.trans (by rw [first])

theorem lt_or_eq_of_le {t u : Time} (le : t ≤ u) : t < u ∨ t = u := by
  rcases Nat.lt_or_eq_of_le (BitVec.le_def.mp le) with less | same
  · exact .inl (BitVec.lt_def.mpr less)
  · exact .inr (BitVec.eq_of_toNat_eq same)

/-! ## OPEN_LEAD_INSTANT -/

section OpenLead

variable {e : EventIndex} {g : Gate} {instant : Time}

theorem openLeadInstant_due (held : (g.event e).openLead = some instant) (reached : Reached g instant)
    (pending : ∀ sheet, (g.event e).pendingSheet = some sheet → instant ≤ sheet.effective)
    (next : ∀ next, (g.event e).nextStarvation = some next → instant ≤ next)
    (again : ∀ again, (g.event e).openRepeat = some again → instant ≤ again) :
    openLeadInstant e g = openOffer e .pending (modEvent e (fun ev => { ev with openLead := none }) g) := by
  refine if_pos ((instantDue_iff (k := .lead)).mpr ⟨instant, held, reached, fun other u there => ?_⟩)
  have after {le : instant ≤ u} (rank : KeyInstant.lead.rank ≤ other.rank) :
      instant < u ∨ (instant = u ∧ KeyInstant.lead.rank ≤ other.rank) :=
    (lt_or_eq_of_le le).imp_right fun same => ⟨same, rank⟩
  cases other with
  | lead =>
    cases held.symm.trans there
    exact .inr ⟨rfl, Nat.le_refl _⟩
  | promotion =>
    obtain ⟨sheet, sheetHeld, rfl⟩ := Option.map_eq_some_iff.mp there
    exact after (le := pending sheet sheetHeld) (by decide)
  | starvation => exact after (le := next u there) (by decide)
  | openRepeat => exact after (le := again u there) (by decide)

end OpenLead

/-! ## OPEN_REPEAT -/

section OpenRepeat

variable {e : EventIndex} {g : Gate} {instant : Time}

theorem openRepeat_due (held : (g.event e).openRepeat = some instant) (reached : Reached g instant)
    (lead : ∀ lead, (g.event e).openLead = some lead → instant < lead)
    (next : ∀ next, (g.event e).nextStarvation = some next → instant < next)
    (pending : ∀ sheet, (g.event e).pendingSheet = some sheet → instant < sheet.effective) :
    openRepeat e g = setOpenRepeat e (reofferPending e (openOffer e .current g)) := by
  refine if_pos ((instantDue_iff (k := .openRepeat)).mpr ⟨instant, held, reached, fun other u there => ?_⟩)
  cases other with
  | lead => exact .inl (lead u there)
  | promotion =>
    obtain ⟨sheet, sheetHeld, rfl⟩ := Option.map_eq_some_iff.mp there
    exact .inl (pending sheet sheetHeld)
  | starvation => exact .inl (next u there)
  | openRepeat =>
    cases held.symm.trans there
    exact .inr ⟨rfl, Nat.le_refl _⟩

theorem reofferPending_offered {sheet : Sheet} (held : g.sheet e .pending = some sheet) (offered : OpenlyOffered sheet) :
    reofferPending e g = openOffer e .pending g := by
  unfold reofferPending
  rw [held]
  exact if_pos offered

/-- What holds of the part itself and after a pending sheet's offer holds after the pending sheet has been offered again. -/
theorem reofferPending_keeps {Q : Gate → Prop} (same : Q g)
    (offered : ∀ sheet, g.sheet e .pending = some sheet → OpenlyOffered sheet → Q (openOffer e .pending g)) :
    Q (reofferPending e g) := by
  unfold reofferPending
  split
  · next sheet held =>
    split
    · next both => exact offered sheet held both
    · exact same
  · exact same

theorem reofferPending_event (e i : EventIndex) (g : Gate) : (reofferPending e g).event i = g.event i := by
  refine reofferPending_keeps (Q := fun h => h.event i = g.event i) rfl (fun sheet held offered => ?_)
  rw [openOffer_event]
  split
  · next same =>
    subst same
    have marked : sheet.offered = sheet := by
      unfold Sheet.offered
      rw [← offered.2]
    rw [held, Option.map_some, marked, ← held]
    exact setSheet_sheet .pending _
  · rfl

theorem reofferPending_frame (e : EventIndex) (g : Gate) :
    reofferPending e g = { g with events := (reofferPending e g).events, zones := (reofferPending e g).zones } :=
  reofferPending_keeps (Q := fun h => h = { g with events := h.events, zones := h.zones }) rfl
    (fun _ _ _ => openOffer_frame ..)

theorem reofferPending_prefix (e : EventIndex) (g : Gate) (z : ZoneIndex) :
    (g.zone z).fresh <+: ((reofferPending e g).zone z).fresh :=
  reofferPending_keeps (Q := fun h => (g.zone z).fresh <+: (h.zone z).fresh) List.prefix_rfl
    (fun _ _ _ => openOffer_prefix ..)

theorem reofferPending_zone_of_blacked {z : ZoneIndex} (blacked : ¬ unblacked g e z) :
    (reofferPending e g).zone z = g.zone z :=
  reofferPending_keeps (Q := fun h => h.zone z = g.zone z) rfl (fun _ _ _ => openOffer_zone_of_blacked e .pending blacked)

theorem setOpenRepeat_event_other {i : EventIndex} (other : i ≠ e) : (setOpenRepeat e g).event i = g.event i := by
  rw [setOpenRepeat, modEvent_event, if_neg other]

end OpenRepeat

/-! ## STARVATION_INSTANT -/

section Starvation

variable {e : EventIndex} {g : Gate} {instant : Time}

theorem starvationInstant_due (held : (g.event e).nextStarvation = some instant) (reached : Reached g instant)
    (lead : ∀ lead, (g.event e).openLead = some lead → instant < lead)
    (pending : ∀ sheet, (g.event e).pendingSheet = some sheet → instant < sheet.effective)
    (again : ∀ again, (g.event e).openRepeat = some again → instant ≤ again) :
    starvationInstant e g = starve e g := by
  refine if_pos ((instantDue_iff (k := .starvation)).mpr ⟨instant, held, reached, fun other u there => ?_⟩)
  cases other with
  | lead => exact .inl (lead u there)
  | promotion =>
    obtain ⟨sheet, sheetHeld, rfl⟩ := Option.map_eq_some_iff.mp there
    exact .inl (pending sheet sheetHeld)
  | starvation =>
    cases held.symm.trans there
    exact .inr ⟨rfl, Nat.le_refl _⟩
  | openRepeat => exact (lt_or_eq_of_le (again u there)).imp_right fun same => ⟨same, by decide⟩

theorem starvationUp_toNat (count : Half) : (starvationUp count).toNat = min (count.toNat + 1) 65535 := by
  have limit := count.isLt
  have one : (1 : Half).toNat = 1 := rfl
  unfold starvationUp
  split
  · next top =>
    subst top
    rfl
  · next below =>
    have apart : count.toNat ≠ 65535 := fun same => below (BitVec.eq_of_toNat_eq same)
    rw [BitVec.toNat_add]
    omega

/-- R75: the record of an event whose starvation count has risen. -/
def Event.starved (ev : Event) : Event :=
  { ev.nextEpoch with starvation := starvationUp ev.starvation }

theorem starve_of_silent (silent : ¬ (g.event e).phase.starves = true) : starve e g = modEvent e Event.nextEpoch g :=
  if_neg silent

theorem starve_of_starving (starving : (g.event e).phase.starves = true) :
    starve e g = stallStarved e (warnStarvation e (modEvent e Event.starved g)) := by
  have both : modEvent e (fun ev => { ev with starvation := starvationUp ev.starvation }) (modEvent e Event.nextEpoch g)
      = modEvent e Event.starved g := by
    rw [modEvent_modEvent]
    rfl
  unfold starve
  dsimp only
  rw [if_pos starving, both]

theorem warnStarvation_warns (enough : g.settings.warnThreshold.toNat ≤ (g.event e).starvation.toNat) :
    warnStarvation e g = post .keyLate (eventObject e) (field 2 (g.event e).starvation.toNat ++ lowTime g 4) g :=
  if_pos enough

theorem warnStarvation_silent (few : (g.event e).starvation.toNat < g.settings.warnThreshold.toNat) :
    warnStarvation e g = g :=
  if_neg (Nat.not_le.mpr few)

theorem warnStarvation_event (e i : EventIndex) (g : Gate) : (warnStarvation e g).event i = g.event i := by
  unfold warnStarvation
  dsimp only
  split
  · rw [post_event]
  · rfl

theorem warnStarvation_settings (e : EventIndex) (g : Gate) : (warnStarvation e g).settings = g.settings := by
  unfold warnStarvation
  dsimp only
  split <;> rfl

theorem starves_iff {p : Phase} :
    p.starves = true ↔ p ∈ [Phase.preview, .live, .extra, .windDown, .stalled] := by
  cases p <;> decide

theorem grants_iff_of_starves {p : Phase} (starves : p.starves = true) : p.mode ≠ .noGrant ↔ p ≠ .stalled := by
  cases p <;> revert starves <;> decide

theorem stallStarved_event (e : EventIndex) (g : Gate) :
    ((stallStarved e g).event e).nextStarvation = (g.event e).nextStarvation ∧
      ((stallStarved e g).event e).base = (g.event e).base ∧
      ((stallStarved e g).event e).starvation = (g.event e).starvation ∧
      ((stallStarved e g).event e).phase
        = (if (g.event e).phase.mode ≠ .noGrant ∧ g.settings.stallAt ≤ (g.event e).starvation.toNat then .stalled
          else (g.event e).phase) ∧
      ((stallStarved e g).event e).resumePhase
        = (if (g.event e).phase.mode ≠ .noGrant ∧ g.settings.stallAt ≤ (g.event e).starvation.toNat then
            some (g.event e).phase else (g.event e).resumePhase) := by
  unfold stallStarved
  split
  · have record := changePhase_record e .stalled g
    rw [changed_eq] at record
    obtain ⟨base, next⟩ := changePhase_base e .stalled g
    have stays : ¬ (Phase.stalled.mode ≠ .noGrant ∧ (g.event e).base = none) := fun both => both.1 rfl
    exact ⟨next.trans (if_neg stays), base.trans (if_neg stays), (congrArg Event.starvation record :),
      changePhase_phase e .stalled g,
      (changePhase_event_phases e e .stalled g).2.trans ((if_pos rfl).trans (if_pos rfl))⟩
  · exact ⟨rfl, rfl, rfl, rfl, rfl⟩

/-- The change into STALLED posts its own item and leaves the others. -/
theorem stallStarved_keeps_item {item : Item} (kind : item.kind = .keyLate) (listed : item ∈ g.command.status) :
    item ∈ (stallStarved e g).command.status := by
  unfold stallStarved
  split
  · have acted : (actedGate e .stalled g).command.status = g.command.status := by
      next stalls =>
      unfold actedGate
      have emptied (h : Gate) : (enterNone e h).command.status = h.command.status := by
        rw [enterNone, purgeSweepAll_eq, purgeFreshAll_eq]
        unfold removeSweep afterFirstLap
        dsimp only [onZones]
        split <;> rfl
      cases mode : (g.event e).phase.mode with
      | noGrant => rfl
      | openGrant => exact emptied _
      | listedGrant => exact emptied _
    rw [changePhase_posts, acted]
    exact mem_insertItem_of_other listed (by simp [Item.sameKey, kind])
  · exact listed

end Starvation

end Sys2Proof.Machine

namespace Sys2Proof.Proofs

open Sys2Proof.Machine Sys2Proof.Safety Sys2Proof.Claims

set_option Elab.async false

/-- Settles O27: each instant is due, and does nothing but its open offers. -/
theorem openInstantsOfferEveryUnblackedZone : Obligations.OpenInstantsOfferEveryUnblackedZone := by
  unfold Obligations.OpenInstantsOfferEveryUnblackedZone
  intro s e instant ev reached
  refine ⟨fun held next again => ⟨fun empty => ?absent, fun sheet pending early => ?lead⟩,
    fun held lead next pending => ?again⟩
  case absent =>
    refine exec_of_effect ((openLeadInstant_due held reached (fun sheet there => ?_) next again).trans (openOffer_none ?_))
    · cases empty.symm.trans there
    · unfold Gate.sheet
      rw [modEvent_event_same]
      exact empty
  case lead =>
    have due := openLeadInstant_due held reached (fun other there => by cases pending.symm.trans there; exact early) next
      again
    have undated : (modEvent e (fun ev => { ev with openLead := none }) s.gate).sheet e .pending = some sheet := by
      unfold Gate.sheet
      rw [modEvent_event_same]
      exact pending
    have same (z : ZoneIndex) : unblacked (modEvent e (fun ev => { ev with openLead := none }) s.gate) e z ↔
        unblacked s.gate e z := unblacked_modEvent (fun _ => by rfl)
    refine ⟨_, exec_of_effect due, rfl, openOffer_frame .., ?_, fun f other => ?_,
      fun z unmasked => openOffer_offered undated ((same z).mpr unmasked),
      fun z blacked => openOffer_zone_of_blacked e .pending fun opens => blacked ((same z).mp opens)⟩
    · dsimp only
      rw [openOffer_event, if_pos rfl, undated, modEvent_event_same]
      rfl
    · dsimp only
      rw [openOffer_event, if_neg other, modEvent_event, if_neg other]
  case again =>
    have due := openRepeat_due held reached lead next pending
    have first : openOffer e .current s.gate
        = { s.gate with events := (openOffer e .current s.gate).events, zones := (openOffer e .current s.gate).zones } :=
      openOffer_frame ..
    have second := reofferPending_frame e (openOffer e .current s.gate)
    have clock : (reofferPending e (openOffer e .current s.gate)).clock = s.gate.clock := by rw [second, first]
    have settings : (reofferPending e (openOffer e .current s.gate)).settings = s.gate.settings := by rw [second, first]
    refine ⟨_, exec_of_effect due, rfl, ?_, ?_, fun f other => ?_, fun sheet z current unmasked => ?_,
      fun sheet z there cls mark unmasked => ?_, fun z blacked => ?_⟩
    · exact framed_trans (framed_trans first second) rfl
    · dsimp only
      rw [setOpenRepeat_event, clock, settings, reofferPending_event, openOffer_event, if_pos rfl]
      rfl
    · dsimp only
      rw [setOpenRepeat_event_other other, reofferPending_event, openOffer_event, if_neg other]
    · exact offered_of_prefix (reofferPending_prefix ..) (openOffer_offered (slot := .current) current unmasked)
    · have stays : (openOffer e .current s.gate).sheet e .pending = some sheet := by
        unfold Gate.sheet
        rw [openOffer_event, if_pos rfl]
        exact there
      have reoffered := openOffer_offered stays (unblacked_openOffer.mpr unmasked)
      rw [← reofferPending_offered stays ⟨cls, mark⟩] at reoffered
      exact reoffered
    · exact (reofferPending_zone_of_blacked fun opens => blacked (unblacked_openOffer.mp opens)).trans
        (openOffer_zone_of_blacked e .current blacked)

/-- Settles O28: the count rises, warns and stalls by its own lemmas. -/
theorem starvationInstantCountsAndStalls : Obligations.StarvationInstantCountsAndStalls := by
  unfold Obligations.StarvationInstantCountsAndStalls
  intro s e instant ev next count stall held reached lead pending again
  have due := starvationInstant_due held reached lead pending again
  have advanced : (s.gate.event e).nextEpoch.nextStarvation = some next := by
    unfold Event.nextEpoch
    show Option.map _ (s.gate.event e).nextStarvation = _
    rw [held]
    rfl
  refine ⟨fun silent => ?silent, fun starving => ?starving⟩
  case silent =>
    have quiet : ¬ (s.gate.event e).phase.starves = true := by
      rw [starves_iff]
      intro starving
      simp only [List.mem_cons, List.not_mem_nil, or_false] at silent starving
      rcases silent with same | same | same | same <;> rw [same] at starving <;> simp at starving
    refine exec_of_effect (due.trans ((starve_of_silent quiet).trans ?_))
    unfold modEvent
    congr 1
    show (s.gate.event e).nextEpoch = _
    rw [← advanced]
    rfl
  case starving =>
    have starves := starves_iff.mpr starving
    have record : (modEvent e Event.starved s.gate).event e = (s.gate.event e).starved := modEvent_event_same ..
    have warned := warnStarvation_event e e (modEvent e Event.starved s.gate)
    rw [record] at warned
    obtain ⟨nextAfter, base, countAfter, phase, resume⟩ :=
      stallStarved_event e (warnStarvation e (modEvent e Event.starved s.gate))
    have settings : (warnStarvation e (modEvent e Event.starved s.gate)).settings = s.gate.settings :=
      warnStarvation_settings ..
    have counted : (s.gate.event e).starved.starvation.toNat = count := starvationUp_toNat _
    have stalls : ((s.gate.event e).starved.phase.mode ≠ .noGrant ∧
        s.gate.settings.stallAt ≤ (s.gate.event e).starved.starvation.toNat) ↔ ev.phase ≠ .stalled ∧ stall ≤ count := by
      rw [counted]
      exact and_congr_left fun _ => grants_iff_of_starves starves
    rw [warned, settings] at phase resume
    rw [warned] at nextAfter base countAfter
    refine ⟨_, exec_of_effect (due.trans (starve_of_starving starves)), nextAfter.trans advanced, base,
      (congrArg BitVec.toNat countAfter).trans counted, phase.trans (if_congr stalls rfl rfl),
      resume.trans (if_congr stalls rfl rfl), fun enough => ?_, fun few => ?_⟩
    · refine stallStarved_keeps_item rfl ?_
      rw [warnStarvation_warns (by rw [record, counted]; exact enough), record, counted]
      exact mem_insertItem_self ..
    · have silent := warnStarvation_silent (e := e) (g := modEvent e Event.starved s.gate)
        (by rw [record, counted]; exact few)
      dsimp only
      rw [silent]
      unfold stallStarved
      rw [record, if_neg]
      · rfl
      · rintro ⟨-, enough⟩
        rw [counted] at enough
        have above : s.gate.settings.warnThreshold.toNat + 1 ≤ s.gate.settings.stallAt := Nat.le_max_right ..
        have : s.gate.settings.stallAt ≤ count := enough
        omega

end Sys2Proof.Proofs

/-! PROOF. What a step on one event leaves alone (EventStepsLeaveTheRest): a relation between the part before and after, one
lemma per operation that stands in it, and the statement built from these. -/

namespace Sys2Proof.Machine

open Sys2Proof.Safety Sys2Proof.Claims

set_option Elab.async false

/-! ## The relation -/

/-- What no step on an event writes of its record but BACK_TO_SALE, which removes the scheduled start (R42). -/
structure RecordRest (a b : Event) : Prop where
  number : b.number = a.number
  firstLane : b.firstLane = a.firstLane
  moreLanes : b.moreLanes = a.moreLanes
  keyLane : b.keyLane = a.keyLane
  alternateLane : b.alternateLane = a.alternateLane
  mask : b.mask = a.mask
  ranges : b.ranges = a.ranges
  epoch : b.epoch = a.epoch
  previewLength : b.previewLength = a.previewLength
  cutoff : b.cutoff = a.cutoff
  extraLimit : b.extraLimit = a.extraLimit
  grace : b.grace = a.grace
  lastCue : b.lastCue = a.lastCue
  counts : b.counts = a.counts
  recountFlag : b.recountFlag = a.recountFlag

theorem RecordRest.refl (a : Event) : RecordRest a a :=
  ⟨rfl, rfl, rfl, rfl, rfl, rfl, rfl, rfl, rfl, rfl, rfl, rfl, rfl, rfl, rfl⟩

theorem RecordRest.trans {a b c : Event} (p : RecordRest a b) (q : RecordRest b c) : RecordRest a c :=
  ⟨q.number.trans p.number, q.firstLane.trans p.firstLane, q.moreLanes.trans p.moreLanes, q.keyLane.trans p.keyLane,
    q.alternateLane.trans p.alternateLane, q.mask.trans p.mask, q.ranges.trans p.ranges, q.epoch.trans p.epoch,
    q.previewLength.trans p.previewLength, q.cutoff.trans p.cutoff, q.extraLimit.trans p.extraLimit, q.grace.trans p.grace,
    q.lastCue.trans p.lastCue, q.counts.trans p.counts, q.recountFlag.trans p.recountFlag⟩

/-- What delivery leaves of an event record is what no step on an event writes. -/
theorem RecordRest.of_withoutDelivery {a b : Event} (same : b.withoutDelivery = a.withoutDelivery) : RecordRest a b :=
  ⟨(congrArg Event.number same :), (congrArg Event.firstLane same :), (congrArg Event.moreLanes same :),
    (congrArg Event.keyLane same :), (congrArg Event.alternateLane same :), (congrArg Event.mask same :),
    (congrArg Event.ranges same :), (congrArg Event.epoch same :), (congrArg Event.previewLength same :),
    (congrArg Event.cutoff same :), (congrArg Event.extraLimit same :), (congrArg Event.grace same :),
    (congrArg Event.lastCue same :), (congrArg Event.counts same :), (congrArg Event.recountFlag same :)⟩

/-- A step on event e: the rest of the part stays, and what no such step writes of the record. -/
structure OnEvent (e : EventIndex) (g h : Gate) : Prop where
  gate : h = { g with
    events := h.events
    walker := { g.walker with roster := h.walker.roster }
    zones := h.zones
    command := { g.command with status := h.command.status } }
  others : ∀ f, f ≠ e → h.event f = g.event f
  record : RecordRest (g.event e) (h.event e)
  zone : ∀ z, h.zone z = { g.zone z with
    fresh := (h.zone z).fresh, sweep := (h.zone z).sweep, counters := (h.zone z).counters }

theorem OnEvent.leavesTheRest {e : EventIndex} {g h : Gate} (p : OnEvent e g h) : LeavesTheRest e g h where
  gate := p.gate
  others := p.others
  record := by
    obtain ⟨number, firstLane, moreLanes, keyLane, alternateLane, mask, ranges, epoch, previewLength, cutoff, extraLimit, grace,
      lastCue, counts, recountFlag⟩ := p.record
    rw [← number, ← firstLane, ← moreLanes, ← keyLane, ← alternateLane, ← mask, ← ranges, ← epoch, ← previewLength, ← cutoff,
      ← extraLimit, ← grace, ← lastCue, ← counts, ← recountFlag]
  zone := p.zone

theorem OnEvent.refl (e : EventIndex) (g : Gate) : OnEvent e g g :=
  ⟨rfl, fun _ _ => rfl, .refl _, fun _ => rfl⟩

theorem OnEvent.trans {e : EventIndex} {g h k : Gate} (p : OnEvent e g h) (q : OnEvent e h k) : OnEvent e g k :=
  ⟨q.gate.trans (by rw [p.gate]), fun f other => (q.others f other).trans (p.others f other), p.record.trans q.record,
    fun z => (q.zone z).trans (by rw [p.zone z])⟩

theorem modEvent_onEvent (e : EventIndex) {f : Event → Event} (g : Gate) (kept : RecordRest (g.event e) (f (g.event e))) :
    OnEvent e g (modEvent e f g) :=
  ⟨rfl, fun _ other => by rw [modEvent_event, if_neg other], by rwa [modEvent_event_same], fun _ => rfl⟩

theorem bumpEvent_onEvent (e : EventIndex) (k : EventCounter) (g : Gate) : OnEvent e g (bumpEvent e k g) :=
  modEvent_onEvent e g (by constructor <;> rfl)

theorem post_onEvent (e : EventIndex) (kind : StatusKind) (object : Byte) (detail : List Byte) (g : Gate) :
    OnEvent e g (post kind object detail g) :=
  ⟨rfl, fun _ _ => rfl, .refl _, fun _ => rfl⟩

theorem setLeg_onEvent (e i : EventIndex) (slot : SheetSlot) (leg : Option Leg) (g : Gate) : OnEvent e g (setLeg i slot leg g) :=
  ⟨rfl, fun _ _ => rfl, .refl _, fun _ => rfl⟩

theorem mapLegs_onEvent (e : EventIndex) (f : Leg → Leg) (g : Gate) : OnEvent e g (mapLegs f g) :=
  ⟨rfl, fun _ _ => rfl, .refl _, fun _ => rfl⟩

theorem onZones_onEvent (e : EventIndex) {u : ZoneIndex → Zone → Zone} (g : Gate)
    (kept : ∀ z zone, u z zone = { zone with
      fresh := (u z zone).fresh, sweep := (u z zone).sweep, counters := (u z zone).counters }) : OnEvent e g (onZones u g) :=
  ⟨rfl, fun _ _ => rfl, .refl _, fun z => by rw [onZones_zone]; exact kept z _⟩

/-! ## Delivery -/

theorem openOffer_onEvent (e : EventIndex) (slot : SheetSlot) (g : Gate) : OnEvent e g (openOffer e slot g) := by
  cases held : g.sheet e slot with
  | none =>
    rw [openOffer_none held]
    exact .refl e g
  | some sheet =>
    rw [openOffer_eq held]
    refine (onZones_onEvent e g fun z zone => ?_).trans (modEvent_onEvent e _ (by cases slot <;> constructor <;> rfl))
    split
    · exact (offerZone_frame _ zone).trans (by rw [offerZone_fresh, offerZone_sweep])
    · rfl

theorem setOpenLead_onEvent (e : EventIndex) (g : Gate) : OnEvent e g (setOpenLead e g) :=
  setOpenLead_keeps (Q := fun h => OnEvent e g h) (.refl e g)
    (fun _ => modEvent_onEvent e g (by constructor <;> rfl))
    ((modEvent_onEvent e g (by constructor <;> rfl)).trans (openOffer_onEvent ..))

theorem setOpenRepeat_onEvent (e : EventIndex) (g : Gate) : OnEvent e g (setOpenRepeat e g) :=
  modEvent_onEvent e g (by constructor <;> rfl)

theorem afterFirstLap_onEvent (e : EventIndex) (was : Bool) (g : Gate) : OnEvent e g (afterFirstLap was g) := by
  unfold afterFirstLap
  split
  · exact mapLegs_onEvent ..
  · exact .refl e g

theorem dropLeg_onEvent (e : EventIndex) (slot : SheetSlot) (g : Gate) : OnEvent e g (dropLeg e slot g) := by
  unfold dropLeg
  split
  · exact .refl e g
  · exact (setLeg_onEvent ..).trans (afterFirstLap_onEvent ..)

theorem removeSweep_onEvent (e : EventIndex) (g : Gate) : OnEvent e g (removeSweep e g) :=
  ((setLeg_onEvent e e .current none g).trans (setLeg_onEvent ..)).trans (afterFirstLap_onEvent ..)

theorem makeLate_onEvent (e : EventIndex) (slot : SheetSlot) (leg : Leg) (g : Gate) : OnEvent e g (makeLate e slot leg g) := by
  unfold makeLate
  split
  · exact ((setLeg_onEvent ..).trans (bumpEvent_onEvent ..)).trans (post_onEvent ..)
  · exact setLeg_onEvent ..

theorem joinLeg_onEvent (e : EventIndex) (slot : SheetSlot) (g : Gate) : OnEvent e g (joinLeg e slot g) := by
  have entered (leg : Leg) : OnEvent e g (enterLeg e slot leg g) :=
    ((mapLegs_onEvent ..).trans (setLeg_onEvent ..)).trans (bumpEvent_onEvent ..)
  unfold joinLeg
  split
  · unfold lateAtJoin
    dsimp only
    split
    · split
      · exact (entered _).trans (makeLate_onEvent ..)
      · exact entered _
    · exact entered _
  · exact .refl e g

theorem purgeFreshAll_onEvent (e : EventIndex) (p : FreshEntry → Bool) (g : Gate) : OnEvent e g (purgeFreshAll p g) := by
  rw [purgeFreshAll_eq]
  exact onZones_onEvent e g fun _ _ => rfl

theorem purgeSweepAll_onEvent (e : EventIndex) (p : Notice → Bool) (g : Gate) : OnEvent e g (purgeSweepAll p g) := by
  rw [purgeSweepAll_eq]
  exact onZones_onEvent e g fun _ _ => rfl

theorem discardSheet_onEvent (e : EventIndex) (slot : SheetSlot) (g : Gate) : OnEvent e g (discardSheet e slot g) := by
  cases held : g.sheet e slot with
  | none =>
    rw [discardSheet_none held]
    exact .refl e g
  | some sheet =>
    rw [discardSheet_eq held]
    exact ((modEvent_onEvent e g (by cases slot <;> constructor <;> rfl)).trans (dropLeg_onEvent ..)).trans
      (onZones_onEvent e _ fun _ _ => rfl)

/-! ## Phases -/

theorem enterNone_onEvent (e : EventIndex) (g : Gate) : OnEvent e g (enterNone e g) :=
  ((removeSweep_onEvent e g).trans (purgeFreshAll_onEvent ..)).trans (purgeSweepAll_onEvent ..)

theorem judgePending_onEvent (e : EventIndex) (g : Gate) : OnEvent e g (judgePending e g) := by
  unfold judgePending
  split
  · exact .refl e g
  · split
    · exact (bumpEvent_onEvent ..).trans (post_onEvent ..)
    · split
      · exact modEvent_onEvent e g (by constructor <;> rfl)
      · exact .refl e g

theorem enterListed_onEvent (e : EventIndex) (g : Gate) : OnEvent e g (enterListed e g) :=
  ((joinLeg_onEvent e .current g).trans (joinLeg_onEvent ..)).trans (judgePending_onEvent ..)

theorem classPendingOpen_onEvent (e : EventIndex) (g : Gate) : OnEvent e g (classPendingOpen e g) := by
  unfold classPendingOpen
  split
  · exact .refl e g
  · exact modEvent_onEvent e g (by constructor <;> rfl)

theorem enterOpen_onEvent (e : EventIndex) (g : Gate) : OnEvent e g (enterOpen e g) :=
  (((openOffer_onEvent e .current g).trans (classPendingOpen_onEvent ..)).trans (setOpenLead_onEvent ..)).trans
    (setOpenRepeat_onEvent ..)

theorem entryActions_onEvent (e : EventIndex) (left entered : GrantMode) (g : Gate) :
    OnEvent e g (entryActions e left entered g) := by
  cases left <;> cases entered
  case noGrant.openGrant => exact enterOpen_onEvent e g
  case noGrant.listedGrant => exact enterListed_onEvent e g
  case openGrant.listedGrant => exact enterListed_onEvent e g
  case openGrant.noGrant => exact enterNone_onEvent e g
  case listedGrant.noGrant => exact enterNone_onEvent e g
  all_goals exact .refl e g

theorem stamped_recordRest (p : Phase) (now : Time) (ev : Event) : RecordRest ev (ev.stamped p now) := by
  unfold Event.stamped Event.startStarvation Event.leavePreview
  split <;> split <;> constructor <;> rfl

theorem renewDeadline_recordRest (left : Phase) (now : Time) (ev : Event) : RecordRest ev (Event.renewDeadline left now ev) := by
  rw [renewDeadline_frame]
  constructor <;> rfl

theorem changePhase_onEvent (e : EventIndex) (p : Phase) (g : Gate) : OnEvent e g (changePhase e p g) := by
  rw [changePhase_eq]
  exact (((modEvent_onEvent e g (stamped_recordRest ..)).trans (entryActions_onEvent ..)).trans
    (modEvent_onEvent e _ (renewDeadline_recordRest ..))).trans (post_onEvent ..)

theorem changePhase_start (e : EventIndex) (p : Phase) (g : Gate) :
    ((changePhase e p g).event e).scheduledStart = (g.event e).scheduledStart := by
  have record := changePhase_record e p g
  rw [changed_eq] at record
  exact (congrArg Event.scheduledStart record :)

theorem changeResume_onEvent (e : EventIndex) (left entered : Phase) (g : Gate) :
    OnEvent e g (changeResume e left entered g) :=
  (modEvent_onEvent e g (by constructor <;> rfl)).trans (post_onEvent ..)

theorem dropStart_onEvent (task : PhaseTask) (e : EventIndex) (g : Gate) : OnEvent e g (dropStart task e g) := by
  rw [dropStart_eq]
  exact modEvent_onEvent e g (by constructor <;> rfl)

/-- R42: a task leaves the scheduled start, but for BACK_TO_SALE. -/
theorem applyTask_onEvent {e : EventIndex} {task : PhaseTask} {minutes : Nat} {g h : Gate}
    (applied : applyTask e task minutes g = some h) : OnEvent e g h ∧
      (h.event e).scheduledStart = if task = .backToSale then none else (g.event e).scheduledStart := by
  have start : ((dropStart task e g).event e).scheduledStart
      = if task = .backToSale then none else (g.event e).scheduledStart := by
    rw [dropStart_eq, modEvent_event_same]
  obtain ⟨-, ⟨rfl, rfl⟩ | ⟨-, -, -, rfl⟩ | ⟨-, -, rfl⟩⟩ := applyTask_cases applied
  · refine ⟨modEvent_onEvent e g (by constructor <;> rfl), ?_⟩
    rw [extendPreview, modEvent_event_same]
    rfl
  · refine ⟨(dropStart_onEvent ..).trans (changeResume_onEvent ..), ?_⟩
    rw [← start, changeResume, postPhase, post_event, modEvent_event_same]
  · exact ⟨(dropStart_onEvent ..).trans (changePhase_onEvent ..), (changePhase_start ..).trans start⟩

/-! ## The steps -/

/-- A step on event e that leaves its scheduled start too. -/
structure OnEventOnly (e : EventIndex) (g h : Gate) : Prop where
  rest : OnEvent e g h
  start : (h.event e).scheduledStart = (g.event e).scheduledStart

theorem OnEventOnly.refl (e : EventIndex) (g : Gate) : OnEventOnly e g g :=
  ⟨.refl e g, rfl⟩

theorem OnEventOnly.trans {e : EventIndex} {g h k : Gate} (p : OnEventOnly e g h) (q : OnEventOnly e h k) : OnEventOnly e g k :=
  ⟨p.rest.trans q.rest, q.start.trans p.start⟩

theorem OnEvent.only {e : EventIndex} {g h : Gate} (p : OnEvent e g h)
    (same : (h.event e).withoutDelivery = (g.event e).withoutDelivery) : OnEventOnly e g h :=
  ⟨p, (congrArg Event.scheduledStart same :)⟩

theorem changePhase_only (e : EventIndex) (p : Phase) (g : Gate) : OnEventOnly e g (changePhase e p g) :=
  ⟨changePhase_onEvent e p g, changePhase_start e p g⟩

theorem bumpEvent_only (e : EventIndex) (k : EventCounter) (g : Gate) : OnEventOnly e g (bumpEvent e k g) :=
  (bumpEvent_onEvent e k g).only (bumpEvent_withoutDelivery ..)

theorem post_only (e : EventIndex) (kind : StatusKind) (object : Byte) (detail : List Byte) (g : Gate) :
    OnEventOnly e g (post kind object detail g) :=
  ⟨post_onEvent .., rfl⟩

theorem modEvent_only (e : EventIndex) {f : Event → Event} (g : Gate) (kept : RecordRest (g.event e) (f (g.event e)))
    (start : (f (g.event e)).scheduledStart = (g.event e).scheduledStart) : OnEventOnly e g (modEvent e f g) :=
  ⟨modEvent_onEvent e g kept, by rwa [modEvent_event_same]⟩

theorem openOffer_only (e : EventIndex) (slot : SheetSlot) (g : Gate) : OnEventOnly e g (openOffer e slot g) :=
  (openOffer_onEvent e slot g).only (openOffer_withoutDelivery ..)

theorem setOpenLead_only (e : EventIndex) (g : Gate) : OnEventOnly e g (setOpenLead e g) :=
  (setOpenLead_onEvent e g).only (setOpenLead_withoutDelivery ..)

theorem setLeg_only (e : EventIndex) (slot : SheetSlot) (leg : Option Leg) (g : Gate) : OnEventOnly e g (setLeg e slot leg g) :=
  ⟨setLeg_onEvent .., rfl⟩

theorem discardSheet_only (e : EventIndex) (slot : SheetSlot) (g : Gate) : OnEventOnly e g (discardSheet e slot g) :=
  (discardSheet_onEvent e slot g).only (discardSheet_withoutDelivery ..)

theorem expireDeadline_only (e : EventIndex) (g : Gate) : OnEventOnly e g (expireDeadline e g) := by
  have removed : OnEventOnly e g (expiredGate e g) :=
    (modEvent_only e g (by constructor <;> rfl) rfl).trans (bumpEvent_only ..)
  unfold expireDeadline
  dsimp only
  split
  · next task named =>
    have keeps : task ≠ .backToSale := by
      rintro rfl
      unfold Event.expiryTask at named
      split at named <;> first | cases named | split at named <;> cases named
    cases applied : applyTask e task 0 (expiredGate e g) with
    | none =>
      show OnEventOnly e g ((applyTask e task 0 (expiredGate e g)).getD (expiredGate e g))
      rw [applied]
      exact removed
    | some h =>
      show OnEventOnly e g ((applyTask e task 0 (expiredGate e g)).getD (expiredGate e g))
      obtain ⟨rest, start⟩ := applyTask_onEvent applied
      rw [if_neg keeps] at start
      rw [applied]
      exact removed.trans ⟨rest, start⟩
  · exact removed

theorem phaseDeadlineExpiry_only (e : EventIndex) (g : Gate) : OnEventOnly e g (phaseDeadlineExpiry e g) := by
  unfold phaseDeadlineExpiry
  split
  · split
    · exact expireDeadline_only e g
    · exact .refl e g
  · exact .refl e g

theorem promotion_only (e : EventIndex) (g : Gate) : OnEventOnly e g (promotion e g) := by
  have moved : OnEventOnly e g (movedGate e g) :=
    ((discardSheet_only e .current g).trans ((modEvent_only e _ (by constructor <;> rfl) rfl).trans
      ((setLeg_only ..).trans (setLeg_only ..)))).trans (bumpEvent_only ..)
  unfold promotion
  split
  · rw [promote_eq]
    unfold offerPromoted
    split
    · split
      · exact moved.trans (openOffer_only ..)
      · exact moved
    · exact moved
  · exact .refl e g

theorem openLeadInstant_only (e : EventIndex) (g : Gate) : OnEventOnly e g (openLeadInstant e g) := by
  unfold openLeadInstant
  split
  · exact (modEvent_only e g (by constructor <;> rfl) rfl).trans (openOffer_only ..)
  · exact .refl e g

theorem openRepeat_only (e : EventIndex) (g : Gate) : OnEventOnly e g (openRepeat e g) := by
  unfold openRepeat
  split
  · have again : OnEventOnly e g (reofferPending e (openOffer e .current g)) :=
      reofferPending_keeps (Q := fun h => OnEventOnly e g h) (openOffer_only ..)
        (fun _ _ _ => (openOffer_only e .current g).trans (openOffer_only ..))
    exact again.trans (modEvent_only e _ (by constructor <;> rfl) rfl)
  · exact .refl e g

theorem starvationInstant_only (e : EventIndex) (g : Gate) : OnEventOnly e g (starvationInstant e g) := by
  have warned (h : Gate) : OnEventOnly e h (warnStarvation e h) := by
    unfold warnStarvation
    dsimp only
    split
    · exact post_only ..
    · exact .refl e h
  have stalled (h : Gate) : OnEventOnly e h (stallStarved e h) := by
    unfold stallStarved
    split
    · exact changePhase_only ..
    · exact .refl e h
  unfold starvationInstant
  split
  · by_cases starving : (g.event e).phase.starves = true
    · rw [starve_of_starving starving]
      exact ((modEvent_only e g (by constructor <;> rfl) rfl).trans (warned _)).trans (stalled _)
    · rw [starve_of_silent starving]
      exact modEvent_only e g (by constructor <;> rfl) rfl
  · exact .refl e g

theorem legLate_only (e : EventIndex) (slot : SheetSlot) (g : Gate) : OnEventOnly e g (legLate e slot g) := by
  unfold legLate
  split
  · exact .refl e g
  · split
    · exact .refl e g
    · split
      · exact (makeLate_onEvent ..).only (makeLate_withoutDelivery ..)
      · exact .refl e g

theorem acceptSheet_only (e : EventIndex) (number : SheetNumber) (effective : Time) (blob : List Byte) (g : Gate) :
    OnEventOnly e g (acceptSheet e number effective blob g) := by
  have counted (h : Gate) (slot : SheetSlot) : OnEventOnly e h (countPlacement e slot h) := by
    unfold countPlacement
    split
    · exact bumpEvent_only ..
    · split
      · exact bumpEvent_only ..
      · exact .refl e h
  have placed (h : Gate) (slot : SheetSlot) (sheet : Sheet) : OnEventOnly e h (placeSheet e slot sheet h) :=
    (discardSheet_only e slot h).trans (modEvent_only e _ (by cases slot <;> constructor <;> rfl) (by cases slot <;> rfl))
  have delivered (h : Gate) (slot : SheetSlot) (cls : SheetClass) : OnEventOnly e h (deliver e slot cls h) := by
    unfold deliver
    split
    · exact (joinLeg_onEvent ..).only (joinLeg_withoutDelivery ..)
    · exact setOpenLead_only ..
    · exact openOffer_only ..
    · exact .refl e h
  have returned (h : Gate) : OnEventOnly e h (returnFromStall e h) := by
    unfold returnFromStall
    split
    · exact changePhase_only ..
    · exact .refl e h
  exact (((((bumpEvent_only e .sheetsAccepted g).trans (counted ..)).trans (placed ..)).trans
    (modEvent_only e _ (by constructor <;> rfl) rfl)).trans (delivered ..)).trans (returned _)

theorem takeKey_only (e : EventIndex) (cell : List Byte) (g : Gate) : OnEventOnly e g (takeKey e cell g) := by
  unfold takeKey judgeSheet
  split
  · exact .refl e g
  · split
    · exact bumpEvent_only ..
    · split
      · split
        · exact bumpEvent_only ..
        · split
          · exact bumpEvent_only ..
          · split
            · exact bumpEvent_only ..
            · exact acceptSheet_only ..
      · split
        · exact bumpEvent_only ..
        · exact acceptSheet_only ..

end Sys2Proof.Machine

namespace Sys2Proof.Proofs

open Sys2Proof.Machine Sys2Proof.Safety Sys2Proof.Claims

set_option Elab.async false

/-- Settles O29: each step is a chain of operations that leave the rest. -/
theorem eventStepsLeaveTheRest : Obligations.EventStepsLeaveTheRest := by
  refine ⟨fun s e c listed => ?steps, fun s e cell held => ?key, fun g h e task minutes applied => ?task⟩
  case steps =>
    have only : OnEventOnly e s.gate (effect c s.gate) := by
      simp only [List.mem_cons, List.not_mem_nil, or_false] at listed
      rcases listed with rfl | rfl | rfl | rfl | rfl | rfl | rfl
      · exact phaseDeadlineExpiry_only e s.gate
      · exact promotion_only e s.gate
      · exact openLeadInstant_only e s.gate
      · exact openRepeat_only e s.gate
      · exact starvationInstant_only e s.gate
      · exact legLate_only e .current s.gate
      · exact legLate_only e .pending s.gate
    exact ⟨_, exec_eq_effect c s, rfl, only.rest.leavesTheRest, only.start⟩
  case key =>
    have only := takeKey_only e cell (clearHandoff s.gate)
    exact ⟨_, exec_keyCell_handed held, rfl, only.rest.leavesTheRest, only.start⟩
  case task =>
    obtain ⟨rest, start⟩ := applyTask_onEvent applied
    exact ⟨rest.leavesTheRest, start⟩

end Sys2Proof.Proofs

/-! PROOF. Ticks, the first time cell and the window closes (R18–R24, R161–R165): what each does to the clock and to a zone, and
the statements TickAdvancesOrIsAbsorbed, FirstTimeCellSetsTheClock, WindowCloseTakesTheIdleRate and
LateRiskFollowsTheProjection. -/

namespace Sys2Proof.Machine

open Sys2Proof.Safety Sys2Proof.Claims

set_option Elab.async false

/-! ## The clock -/

/-- R24: an advance marks a close where site time reaches another second. -/
theorem Clock.advance_closesDue (ms : Nat) (clock : Clock) :
    (clock.advance ms).closesDue = clock.closesDue +
      (if (clock.advance ms).siteTime.toNat / 1000 = clock.siteTime.toNat / 1000 then 0 else 1) := by
  unfold Clock.advance
  dsimp only
  split <;> rfl

theorem Clock.tick_absorbed {clock : Clock} (withheld : clock.withhold.val ≠ 0) :
    clock.tick = { clock with withhold := Fin.ofNat 11 (clock.withhold.val - 1) } :=
  if_neg fun none => withheld (congrArg Fin.val none)

theorem Clock.tick_advances {clock : Clock} (free : clock.withhold.val = 0) : clock.tick = clock.advance 1 :=
  if_pos (Fin.ext free)

theorem Clock.advance_one_siteTime (clock : Clock) :
    (clock.advance 1).siteTime.toNat = min (clock.siteTime.toNat + 1) 281474976710655 :=
  laterTime_toNat ..

/-- R18, R24: a rise by 1 reaches another second where it reaches a whole multiple of 1,000. -/
theorem Clock.advance_one_closesDue (clock : Clock) : (clock.advance 1).closesDue = clock.closesDue +
    if (clock.advance 1).siteTime ≠ clock.siteTime ∧ (clock.advance 1).siteTime.toNat % 1000 = 0 then 1 else 0 := by
  have rises := clock.advance_one_siteTime
  rw [advance_closesDue, ← ite_not]
  congr 1
  refine if_congr ?_ rfl rfl
  rw [ne_eq, BitVec.toNat_inj.symm]
  omega

/-- R20, R24: a correction marks a close where it carries site time into another second. -/
theorem Clock.correct_closesDue (d : Int) (clock : Clock) : (clock.correct d).closesDue = clock.closesDue +
    (if (clock.correct d).siteTime.toNat / 1000 = clock.siteTime.toNat / 1000 then 0 else 1) := by
  unfold Clock.correct
  split
  · exact (if_pos rfl).symm ▸ rfl
  · exact clock.advance_closesDue _

@[simp] theorem Clock.judge_closesDue (d : Int) (clock : Clock) : (clock.judge d).closesDue = clock.closesDue := by
  unfold Clock.judge
  split <;> rfl

theorem Clock.taken_closesDue (d : Int) (clock : Clock) : (clock.taken d).closesDue = clock.closesDue +
    (if (clock.taken d).siteTime.toNat / 1000 = clock.siteTime.toNat / 1000 then 0 else 1) := by
  rw [Clock.taken, judge_closesDue, judge_siteTime, correct_closesDue]

theorem takeTime_unset {cell : List Byte} {g : Gate} (unset : g.clock.isSet = false) :
    takeTime cell g = postTime 0x01 { bump .timeCellsTaken g with clock := g.clock.firstSetting (timeAt cell 5) } := by
  simp only [takeTime, unset, Bool.false_eq_true, if_false]

/-! ## The need and the earliest effective time (R162–R164) -/

theorem isCounted_iff {g : Gate} {z : ZoneIndex} {r : EventIndex × SheetSlot} :
    g.isCounted z r = true ↔ ∃ leg, Counted g z r leg := by
  unfold Gate.isCounted Counted
  cases g.leg r.1 r.2 with
  | none => simp
  | some leg => simp [Leg.firstLap, Event.masks, and_assoc]

/-- R163: what a roster place adds to the need. -/
theorem legNeed_eq (g : Gate) (z : ZoneIndex) (r : EventIndex × SheetSlot) :
    legNeed g z r = if g.isCounted z r then noticesFor (g.legWork z r) else 0 := by
  unfold legNeed Gate.isCounted Gate.legWork
  cases g.leg r.1 r.2 with
  | none => rfl
  | some leg => simp [Leg.firstLap, Event.masks, and_assoc, noticesFor]

theorem sum_map_filter {α : Type} (p : α → Bool) (f : α → Nat) (items : List α) :
    ((items.filter p).map f).sum = (items.map fun a => if p a then f a else 0).sum := by
  induction items with
  | nil => rfl
  | cons a rest ih =>
    cases holds : p a <;> simp [holds, ih]

theorem need_eq_needed (g : Gate) (z : ZoneIndex) : g.need z = needed g z := by
  unfold Gate.need needed Gate.countedLegs
  rw [sum_map_filter]
  exact congrArg (fun f : EventIndex × SheetSlot → Nat => _ + _ + (rosterOrder.map f).sum)
    (funext fun r => (legNeed_eq g z r).symm)

theorem need_congr {g h : Gate} {z : ZoneIndex} (walker : h.walker = g.walker) (events : h.events = g.events)
    (fresh : (h.zone z).fresh = (g.zone z).fresh) (sweep : (h.zone z).sweep = (g.zone z).sweep) : h.need z = g.need z := by
  unfold Gate.need Gate.countedLegs Gate.isCounted Gate.legWork Gate.leg Gate.event
  rw [walker, events, fresh, sweep]

theorem earliest_congr {g h : Gate} {z : ZoneIndex} (walker : h.walker = g.walker) (events : h.events = g.events) :
    h.earliest z = g.earliest z := by
  unfold Gate.earliest Gate.countedLegs Gate.isCounted Gate.effectiveOf Gate.sheet Gate.leg Gate.event
  rw [walker, events]

theorem slack_congr {g h : Gate} {effective : Time} (clock : h.clock.siteTime = g.clock.siteTime)
    (settings : h.settings = g.settings) : h.slack effective = g.slack effective := by
  unfold Gate.slack
  rw [clock, settings]

/-- R164, R165: one candidate comes no later than another; at equal times it has the lower index. -/
def NoLater (a b : EventIndex × Time) : Prop :=
  a.2 < b.2 ∨ (a.2 = b.2 ∧ a.1 ≤ b.1)

theorem NoLater.refl (a : EventIndex × Time) : NoLater a a :=
  .inr ⟨rfl, Fin.le_refl _⟩

theorem noLater_iff {a b : EventIndex × Time} :
    NoLater a b ↔ a.2.toNat < b.2.toNat ∨ (a.2.toNat = b.2.toNat ∧ a.1.val ≤ b.1.val) := by
  rw [NoLater, BitVec.lt_def, BitVec.toNat_inj.symm, Fin.le_def]

theorem NoLater.trans {a b c : EventIndex × Time} (p : NoLater a b) (q : NoLater b c) : NoLater a c := by
  rw [noLater_iff] at *
  omega

theorem earlier_noLater {a b : EventIndex × Time} (ordered : a.1 ≤ b.1) :
    NoLater (earlier a b) a ∧ NoLater (earlier a b) b := by
  have indices := Fin.le_def.mp ordered
  simp only [noLater_iff, earlier, BitVec.lt_def]
  split <;> omega

theorem earlier_eq (a b : EventIndex × Time) : earlier a b = a ∨ earlier a b = b := by
  unfold earlier
  split
  · exact .inr rfl
  · exact .inl rfl

/-- The earlier of candidates that stand in event order, taken one after the other, comes no later than any of them. -/
theorem foldl_earlier {first : EventIndex × Time} {rest : List (EventIndex × Time)}
    (ordered : (first :: rest).Pairwise (fun a b => a.1 ≤ b.1)) :
    rest.foldl earlier first ∈ first :: rest ∧ ∀ x ∈ first :: rest, NoLater (rest.foldl earlier first) x := by
  induction rest generalizing first with
  | nil => exact ⟨.head _, fun x listed => by rw [List.mem_singleton.mp listed]; exact .refl _⟩
  | cons b rest ih =>
    obtain ⟨above, tail⟩ := List.pairwise_cons.mp ordered
    obtain ⟨aboveB, tailRest⟩ := List.pairwise_cons.mp tail
    have next : (earlier first b :: rest).Pairwise (fun a b => a.1 ≤ b.1) := by
      refine List.pairwise_cons.mpr ⟨fun c listed => ?_, tailRest⟩
      rcases earlier_eq first b with same | same
      · rw [same]; exact above c (.tail _ listed)
      · rw [same]; exact aboveB c listed
    obtain ⟨found, least⟩ := ih next
    obtain ⟨noLaterFirst, noLaterB⟩ := earlier_noLater (above b (.head _))
    have leastOfTwo := least _ (.head _)
    refine ⟨?_, fun x listed => ?_⟩
    · rcases List.mem_cons.mp found with same | listed
      · rw [List.foldl_cons, same]
        rcases earlier_eq first b with same | same <;> rw [same] <;> simp
      · exact .tail _ (.tail _ listed)
    · rcases List.mem_cons.mp listed with rfl | listed
      · exact leastOfTwo.trans noLaterFirst
      · rcases List.mem_cons.mp listed with rfl | listed
        · exact leastOfTwo.trans noLaterB
        · exact least x (.tail _ listed)

theorem rosterOrder_ordered : rosterOrder.Pairwise (fun a b => a.1 ≤ b.1) := by decide +kernel

theorem effectiveOf_eq_some {g : Gate} {r : EventIndex × SheetSlot} {c : EventIndex × Time} :
    g.effectiveOf r = some c ↔ ∃ sheet, g.sheet r.1 r.2 = some sheet ∧ ¬ OpenlyOffered sheet ∧ c = (r.1, sheet.effective) := by
  unfold Gate.effectiveOf OpenlyOffered
  cases g.sheet r.1 r.2 with
  | none => simp
  | some sheet =>
    dsimp only
    split
    · next offered => exact ⟨fun impossible => (by cases impossible), fun ⟨_, same, shut, _⟩ => by
        cases same
        exact absurd offered shut⟩
    · next shut => exact ⟨fun same => ⟨sheet, rfl, shut, (Option.some.inj same).symm⟩, fun ⟨_, same, _, this⟩ => by
        cases same
        rw [this]⟩

/-- R164: the effective times that count for a zone, each with its event. -/
theorem mem_effectives {g : Gate} {z : ZoneIndex} {c : EventIndex × Time} :
    c ∈ (g.countedLegs z).filterMap g.effectiveOf ↔ ∃ r sheet, Timed g z r sheet ∧ c = (r.1, sheet.effective) := by
  simp only [List.mem_filterMap, Gate.countedLegs, List.mem_filter, isCounted_iff, effectiveOf_eq_some]
  constructor
  · rintro ⟨r, ⟨-, leg, counted⟩, sheet, held, closed, rfl⟩
    exact ⟨r, sheet, ⟨leg, counted, held, closed⟩, rfl⟩
  · rintro ⟨r, sheet, ⟨leg, counted, held, closed⟩, rfl⟩
    exact ⟨r, ⟨mem_rosterOrder r.1 r.2, leg, counted⟩, sheet, held, closed, rfl⟩

theorem effectives_ordered (g : Gate) (z : ZoneIndex) :
    ((g.countedLegs z).filterMap g.effectiveOf).Pairwise (fun a b => a.1 ≤ b.1) := by
  refine (rosterOrder_ordered.filter _).filterMap _ fun r later ordered a found b foundLater => ?_
  obtain ⟨_, -, -, rfl⟩ := effectiveOf_eq_some.mp found
  obtain ⟨_, -, -, rfl⟩ := effectiveOf_eq_some.mp foundLater
  exact ordered

theorem earliest_eq_none {g : Gate} {z : ZoneIndex} (none : g.earliest z = none) (r : EventIndex × SheetSlot) (sheet : Sheet) :
    ¬ Timed g z r sheet := by
  intro timed
  have listed := mem_effectives.mpr ⟨r, sheet, timed, rfl⟩
  unfold Gate.earliest at none
  split at none
  · next empty =>
    rw [empty] at listed
    cases listed
  · cases none

theorem earliest_eq_some {g : Gate} {z : ZoneIndex} {c : EventIndex × Time} (found : g.earliest z = some c) :
    ∃ r sheet, Timed g z r sheet ∧ c = (r.1, sheet.effective) ∧
      ∀ other later, Timed g z other later → NoLater c (other.1, later.effective) := by
  unfold Gate.earliest at found
  split at found
  · cases found
  · next first rest listed =>
    cases found
    have ordered := effectives_ordered g z
    rw [listed] at ordered
    obtain ⟨member, least⟩ := foldl_earlier ordered
    rw [← listed] at member
    obtain ⟨r, sheet, timed, same⟩ := mem_effectives.mp member
    refine ⟨r, sheet, timed, same, fun other later also => least _ ?_⟩
    rw [← listed]
    exact mem_effectives.mpr ⟨other, later, also, rfl⟩

/-! ## The projection (R164, R165) -/

/-- R164: N is not met by S within D: there is a need and no supply, or D is short of the time needed. -/
theorem atRisk_iff {n s : Nat} {d : Int} :
    atRisk n s d = true ↔ (n ≠ 0 ∧ s = 0) ∨ d < (((n + s - 1) / s * 1000 : Nat) : Int) := by
  unfold atRisk
  by_cases noNeed : n = 0
  · have zero : (n + s - 1) / s = 0 := by
      subst noNeed
      rcases Nat.eq_zero_or_pos s with rfl | some
      · rfl
      · exact Nat.div_eq_of_lt (by omega)
    simp [noNeed, show (s - 1) / s = 0 by rw [← zero, noNeed, Nat.zero_add]]
  · by_cases noSupply : s = 0
    · simp [noNeed, noSupply]
    · simp [noNeed, noSupply]

/-- R164, R165: the value that the projection gives a zone's flag, and the event its item names. -/
def Gate.risk (g : Gate) (z : ZoneIndex) (supply : Nat) : Bool × Byte :=
  match g.earliest z with
  | some (e, effective) => (atRisk (g.need z) supply (g.slack effective), eventObject e)
  | none => (false, 0xFF)

theorem project_eq (z : ZoneIndex) (g : Gate) : project z g
    = setRisk z (g.risk z (g.zone z).supply).1 (g.risk z (g.zone z).supply).2 (g.need z) (g.zone z).supply g := by
  unfold project Gate.risk
  cases g.earliest z <;> rfl

theorem risk_iff (g : Gate) (z : ZoneIndex) (supply : Nat) :
    (g.risk z supply).1 = true ↔ Risky g z (g.need z) supply := by
  unfold Gate.risk Risky
  cases found : g.earliest z with
  | none => simp [earliest_eq_none found]
  | some c =>
    obtain ⟨r, sheet, timed, rfl, least⟩ := earliest_eq_some found
    constructor
    · exact fun risk => ⟨r, sheet, timed, atRisk_iff.mp risk⟩
    · rintro ⟨other, later, also, risk⟩
      refine atRisk_iff.mpr (risk.imp_right fun short => ?_)
      have noLater : sheet.effective.toNat ≤ later.effective.toNat := by
        rcases least other later also with before | ⟨same, -⟩
        · exact (BitVec.lt_def.mp before).le
        · exact (congrArg BitVec.toNat same).le
      unfold Gate.slack
      omega

theorem risk_names (g : Gate) (z : ZoneIndex) (supply : Nat) : NamesEarliest g z (g.risk z supply).2 := by
  unfold Gate.risk NamesEarliest
  cases found : g.earliest z with
  | none => exact .inl ⟨rfl, earliest_eq_none found⟩
  | some c =>
    obtain ⟨r, sheet, timed, rfl, least⟩ := earliest_eq_some found
    exact .inr ⟨r, sheet, timed, rfl, least⟩

theorem risk_congr {g h : Gate} {z : ZoneIndex} (supply : Nat) (walker : h.walker = g.walker) (events : h.events = g.events)
    (clock : h.clock.siteTime = g.clock.siteTime) (settings : h.settings = g.settings) (need : h.need z = g.need z) :
    h.risk z supply = g.risk z supply := by
  unfold Gate.risk
  rw [earliest_congr walker events, need]
  cases g.earliest z with
  | none => rfl
  | some c =>
    dsimp only
    rw [slack_congr clock settings]

/-! ## The close of one zone -/

/-- R161: zone z with its window count taken as the idle rate. -/
def rated (zone : Zone) : Zone :=
  { zone with idleRate := zone.windowCount, windowCount := 0 }

def ratedGate (z : ZoneIndex) (g : Gate) : Gate :=
  modZone z rated g

theorem closeWindow_unset {z : ZoneIndex} {g : Gate} (unset : g.clock.isSet = false) : closeWindow z g = ratedGate z g :=
  if_neg (ne_true_of_eq_false unset)

theorem closeWindow_set {z : ZoneIndex} {g : Gate} (isSet : g.clock.isSet = true) :
    closeWindow z g = project z (ratedGate z g) :=
  if_pos isSet

theorem ratedGate_zone (z : ZoneIndex) (g : Gate) : (ratedGate z g).zone z = rated (g.zone z) :=
  modZone_zone_same ..

section Risk

variable {z : ZoneIndex} {risk : Bool} {event : Byte} {n s : Nat} {g : Gate}

/-- R165: the LATE_RISK item of a zone. -/
def riskItem (z : ZoneIndex) (risk : Bool) (event : Byte) (n s : Nat) : Item where
  kind := .lateRisk
  object := BitVec.ofNat 8 z.val
  detail := [if risk then 0x01 else 0x02, event] ++ field 2 (min n 65535) ++ field 2 (min s 65535)

theorem setRisk_same (same : (g.zone z).lateRisk = risk) : setRisk z risk event n s g = g :=
  if_pos same

theorem setRisk_changed (changed : (g.zone z).lateRisk ≠ risk) :
    (setRisk z risk event n s g).command.status = insertItem (riskItem z risk event n s) g.command.status ∧
    ((setRisk z risk event n s g).zone z).lateRisk = risk ∧
    ((setRisk z risk event n s g).zone z).counters
      = (if risk = true then (Zone.countBy .riskSets 1 (g.zone z)).counters else (g.zone z).counters) := by
  unfold setRisk
  rw [if_neg changed, post_zone, modZone_zone_same]
  refine ⟨rfl, ?_⟩
  cases risk <;> exact ⟨rfl, rfl⟩

/-- R165: the zone's flag takes the value. -/
theorem setRisk_lateRisk : ((setRisk z risk event n s g).zone z).lateRisk = risk := by
  by_cases same : (g.zone z).lateRisk = risk
  · rwa [setRisk_same same]
  · exact (setRisk_changed same).2.1

end Risk

/-! ## The closes of all zones (R161) -/

/-- R161: zones close one by one. What this leaves: every block but zones and status items, and of the zones that close the
flags that follow. -/
structure Closing (took : ZoneIndex → Prop) (g h : Gate) : Prop where
  gate : h = { g with zones := h.zones, command := { g.command with status := h.command.status } }
  zone : ∀ z, ¬ took z → h.zone z = g.zone z
  items : ∀ z, ¬ took z → itemsUnder .lateRisk (BitVec.ofNat 8 z.val) h = itemsUnder .lateRisk (BitVec.ofNat 8 z.val) g

theorem Closing.refl (took : ZoneIndex → Prop) (g : Gate) : Closing took g g :=
  ⟨rfl, fun _ _ => rfl, fun _ _ => rfl⟩

theorem Closing.trans {took : ZoneIndex → Prop} {g h k : Gate} (p : Closing took g h) (q : Closing took h k) :
    Closing took g k :=
  ⟨q.gate.trans (by rw [p.gate]), fun z other => (q.zone z other).trans (p.zone z other),
    fun z other => (q.items z other).trans (p.items z other)⟩

/-- An item under another key leaves the items under a key. -/
theorem filter_insertItem_other {kind : StatusKind} {object : Byte} {item : Item} (items : List Item)
    (other : ¬ (item.kind = kind ∧ item.object = object)) :
    (insertItem item items).filter (fun held => decide (held.kind = kind ∧ held.object = object))
      = items.filter (fun held => decide (held.kind = kind ∧ held.object = object)) := by
  induction items with
  | nil => exact List.filter_cons_of_neg (by simpa using other)
  | cons held rest ih =>
    unfold insertItem
    split
    · next same =>
      have otherHeld : ¬ (held.kind = kind ∧ held.object = object) := by
        simp only [Item.sameKey, Bool.and_eq_true, decide_eq_true_eq] at same
        rwa [← same.1, ← same.2]
      rw [List.filter_cons_of_neg (by simpa using other), List.filter_cons_of_neg (by simpa using otherHeld)]
    · rw [List.filter_cons, List.filter_cons, ih]

theorem zoneObject_injective {y z : ZoneIndex} (same : BitVec.ofNat 8 y.val = BitVec.ofNat 8 z.val) : y = z := by
  have numbers := congrArg BitVec.toNat same
  rw [BitVec.toNat_ofNat, BitVec.toNat_ofNat] at numbers
  exact Fin.ext (by omega)

theorem setRisk_closing (z : ZoneIndex) (risk : Bool) (event : Byte) (n s : Nat) (g : Gate) :
    Closing (· = z) g (setRisk z risk event n s g) := by
  by_cases same : (g.zone z).lateRisk = risk
  · rw [setRisk_same same]
    exact .refl _ g
  · refine ⟨by rw [setRisk, if_neg same]; rfl, fun y other => ?_, fun y other => ?_⟩
    · rw [setRisk, if_neg same, post_zone, modZone_zone_other other]
    · unfold itemsUnder
      rw [(setRisk_changed same).1]
      exact filter_insertItem_other _ fun both => other (zoneObject_injective both.2).symm

theorem ratedGate_closing (z : ZoneIndex) (g : Gate) : Closing (· = z) g (ratedGate z g) :=
  ⟨rfl, fun _ other => modZone_zone_other other .., fun _ _ => rfl⟩

theorem closeWindow_closing (z : ZoneIndex) (g : Gate) : Closing (· = z) g (closeWindow z g) := by
  cases isSet : g.clock.isSet with
  | false =>
    rw [closeWindow_unset isSet]
    exact ratedGate_closing z g
  | true =>
    rw [closeWindow_set isSet, project_eq]
    exact (ratedGate_closing z g).trans (setRisk_closing ..)

theorem Closing.mono {took more : ZoneIndex → Prop} {g h : Gate} (p : Closing took g h) (wider : ∀ z, took z → more z) :
    Closing more g h :=
  ⟨p.gate, fun z other => p.zone z fun there => other (wider z there), fun z other => p.items z fun there => other (wider z there)⟩

theorem Closing.driven {took : ZoneIndex → Prop} {g h : Gate} (p : Closing took g h) (z : ZoneIndex) :
    h.driven z = g.driven z := by
  rw [p.gate]
  rfl

/-- One zone after the other: each closes where it is driven. -/
def closeThese (zones : List ZoneIndex) (g : Gate) : Gate :=
  zones.foldl (fun acc z => if acc.driven z then closeWindow z acc else acc) g

theorem closeThese_closing (zones : List ZoneIndex) (g : Gate) :
    Closing (fun z => z ∈ zones ∧ g.driven z = true) g (closeThese zones g) := by
  induction zones generalizing g with
  | nil => exact .refl _ g
  | cons y rest ih =>
    have first : Closing (fun z => z ∈ y :: rest ∧ g.driven z = true) g (if g.driven y then closeWindow y g else g) := by
      split
      · next driven => exact (closeWindow_closing y g).mono fun z same => ⟨same ▸ .head _, same ▸ driven⟩
      · exact .refl _ g
    exact first.trans ((ih _).mono fun z taken => ⟨.tail _ taken.1, (first.driven z).symm.trans taken.2⟩)

/-- A driven zone closes once, between the closes of the others. -/
theorem closes_at {z : ZoneIndex} {g : Gate} (driven : g.driven z = true) :
    ∃ m, Closing (· ≠ z) g m ∧ Closing (· ≠ z) (closeWindow z m) (forDrivenZones closeWindow g) := by
  have split : ∀ y : ZoneIndex, ∃ before after, allZones = before ++ y :: after ∧ y ∉ before ∧ y ∉ after := by
    intro y
    fin_cases y
    · exact ⟨[], [1, 2, 3], by decide⟩
    · exact ⟨[0], [2, 3], by decide⟩
    · exact ⟨[0, 1], [3], by decide⟩
    · exact ⟨[0, 1, 2], [], by decide⟩
  obtain ⟨before, after, all, notBefore, notAfter⟩ := split z
  have first := closeThese_closing before g
  refine ⟨closeThese before g, first.mono fun y taken same => notBefore (same ▸ taken.1), ?_⟩
  have all' : forDrivenZones closeWindow g = closeThese after (closeWindow z (closeThese before g)) := by
    have reached : (closeThese before g).driven z = true := (first.driven z).trans driven
    unfold closeThese at reached
    unfold forDrivenZones closeThese
    rw [all, List.foldl_append, List.foldl_cons, if_pos reached]
  rw [all']
  exact (closeThese_closing after _).mono fun y taken same => notAfter (same ▸ taken.1)

/-- R161: a close that the Site Clock has marked, before the zones take it. -/
def unmarked (g : Gate) : Gate :=
  { g with clock := { g.clock with closesDue := g.clock.closesDue - 1 } }

theorem windowClose_due {g : Gate} (due : g.clock.closesDue ≠ 0) :
    windowClose g = forDrivenZones closeWindow (unmarked g) :=
  if_neg due

theorem closeAll_closing (g : Gate) : Closing (fun z => g.driven z = true) g (forDrivenZones closeWindow g) :=
  (closeThese_closing allZones g).mono fun _ taken => taken.2

/-- R161: a zone that closes takes its window count as its idle rate, and the projection changes its flag and counters. -/
theorem closeWindow_zone (z : ZoneIndex) (g : Gate) : (closeWindow z g).zone z = { g.zone z with
    idleRate := (g.zone z).windowCount
    windowCount := 0
    lateRisk := ((closeWindow z g).zone z).lateRisk
    counters := ((closeWindow z g).zone z).counters } := by
  cases isSet : g.clock.isSet with
  | false =>
    rw [closeWindow_unset isSet, ratedGate_zone]
    rfl
  | true =>
    rw [closeWindow_set isSet, project_eq]
    unfold setRisk
    split
    · rw [ratedGate_zone]
      rfl
    · rw [post_zone, modZone_zone_same, ratedGate_zone]
      split <;> rfl

/-- R161: while UNSET no projection is made. -/
theorem closeThese_unset (zones : List ZoneIndex) {g : Gate} (unset : g.clock.isSet = false) :
    (closeThese zones g).command.status = g.command.status ∧
      ∀ z, ((closeThese zones g).zone z).lateRisk = (g.zone z).lateRisk ∧
        ((closeThese zones g).zone z).counters = (g.zone z).counters := by
  induction zones generalizing g with
  | nil => exact ⟨rfl, fun _ => ⟨rfl, rfl⟩⟩
  | cons y rest ih =>
    show (closeThese rest (if g.driven y then closeWindow y g else g)).command.status = _ ∧ ∀ z,
      ((closeThese rest (if g.driven y then closeWindow y g else g)).zone z).lateRisk = _ ∧
      ((closeThese rest (if g.driven y then closeWindow y g else g)).zone z).counters = _
    split
    · rw [closeWindow_unset unset]
      obtain ⟨status, zones⟩ := ih (g := ratedGate y g) unset
      refine ⟨status, fun z => ?_⟩
      obtain ⟨lateRisk, counters⟩ := zones z
      rw [lateRisk, counters, ratedGate, modZone_zone]
      split
      · next same => subst same; exact ⟨rfl, rfl⟩
      · exact ⟨rfl, rfl⟩
    · exact ih unset

/-- R161–R165: what the close of a zone does while SET: the projection is that of the part before it. -/
theorem closeWindow_projects (z : ZoneIndex) {m : Gate} (isSet : m.clock.isSet = true) :
    let supply := (m.zone z).windowCount.toNat * (m.zone z).share.toNat / 256
    closeWindow z m = setRisk z (m.risk z supply).1 (m.risk z supply).2 (m.need z) supply (ratedGate z m) := by
  intro supply
  have rate : ((ratedGate z m).zone z).supply = supply := by
    rw [ratedGate_zone]
    rfl
  have need : (ratedGate z m).need z = m.need z :=
    need_congr rfl rfl (by rw [ratedGate_zone]; rfl) (by rw [ratedGate_zone]; rfl)
  rw [closeWindow_set isSet, project_eq, rate, need, risk_congr (g := m) (h := ratedGate z m) supply rfl rfl rfl rfl need]

end Sys2Proof.Machine

namespace Sys2Proof.Proofs

open Sys2Proof.Machine Sys2Proof.Safety Sys2Proof.Claims

set_option Elab.async false

/-- Settles O13: by the withhold count (R18). -/
theorem tickAdvancesOrIsAbsorbed : Obligations.TickAdvancesOrIsAbsorbed := by
  intro s
  refine ⟨_, exec_eq_effect .siteClockTick s, rfl, rfl, fun withheld => ?_, fun free => ?_⟩
  · have ticked : (effect .siteClockTick s.gate).clock
        = { s.gate.clock with withhold := Fin.ofNat 11 (s.gate.clock.withhold.val - 1) } := Clock.tick_absorbed withheld
    have limit := s.gate.clock.withhold.isLt
    dsimp only
    rw [ticked]
    refine ⟨rfl, ?_⟩
    change (s.gate.clock.withhold.val - 1) % 11 + 1 = _
    omega
  · have ticked : (effect .siteClockTick s.gate).clock = s.gate.clock.advance 1 := Clock.tick_advances free
    dsimp only
    rw [ticked]
    exact ⟨rfl, s.gate.clock.advance_one_siteTime, s.gate.clock.advance_one_closesDue⟩

/-- Settles O14: the first setting, and the item and the count of its cell (R19, R25). -/
theorem firstTimeCellSetsTheClock : Obligations.FirstTimeCellSetsTheClock := by
  unfold Obligations.FirstTimeCellSetsTheClock
  intro s cell handedOver unset now
  have unset' : (clearHandoff s.gate).clock.isSet = false := unset
  rw [exec_timeCell_handed handedOver, takeTime_unset unset']
  refine ⟨_, rfl, rfl, fun deadline => ?_⟩
  exact reached_iff.trans ⟨fun reached => reached.2, fun le => ⟨rfl, le⟩⟩

/-- Settles O16: a correction marks its close (R20, R24), and the driven zones take one each (R161). -/
theorem windowCloseTakesTheIdleRate : Obligations.WindowCloseTakesTheIdleRate := by
  refine ⟨fun s t cell handedOver isSet taken => ?_, fun s due => ?_⟩
  · have isSet' : (clearHandoff s.gate).clock.isSet = true := isSet
    rw [exec_timeCell_handed handedOver, takeTime_of_isSet cell isSet'] at taken
    cases taken
    exact Clock.taken_closesDue ..
  · have closed := closeAll_closing (unmarked s.gate)
    have unset (unset : s.gate.clock.isSet = false) := closeThese_unset allZones (g := unmarked s.gate) unset
    have next := exec_of_effect (i := .windowClose) (windowClose_due due)
    have taken (z : ZoneIndex) (driven : s.gate.driven z = true) := closes_at (g := unmarked s.gate) (z := z) driven
    change s.gate.clock.isSet = false → (forDrivenZones closeWindow (unmarked s.gate)).command.status = _ ∧ ∀ z,
      ((forDrivenZones closeWindow (unmarked s.gate)).zone z).lateRisk = _ ∧
      ((forDrivenZones closeWindow (unmarked s.gate)).zone z).counters = _ at unset
    generalize forDrivenZones closeWindow (unmarked s.gate) = h at closed unset next taken
    refine ⟨_, next, rfl, closed.gate, fun z undriven => closed.zone z (ne_true_of_eq_false undriven), fun z driven => ?_, unset⟩
    obtain ⟨m, before, after⟩ := taken z driven
    have same := before.zone z (fun other => other rfl)
    have rated := closeWindow_zone z m
    rw [← after.zone z (fun other => other rfl), same] at rated
    exact rated

/-- Settles O17: the zone's own close sets its flag by the projection (R164, R165), and the closes of the other zones leave
its flag, its counters and its item. -/
theorem lateRiskFollowsTheProjection : Obligations.LateRiskFollowsTheProjection := by
  unfold Obligations.LateRiskFollowsTheProjection
  intro s z due isSet driven n supply object
  obtain ⟨m, before, after⟩ := closes_at (g := unmarked s.gate) driven
  have zone : m.zone z = s.gate.zone z := before.zone z (fun other => other rfl)
  have zoneAfter := after.zone z (fun other => other rfl)
  have need : m.need z = n := (need_congr (g := s.gate) (congrArg Gate.walker before.gate :) (congrArg Gate.events before.gate :)
    (by rw [zone]) (by rw [zone])).trans (need_eq_needed ..)
  have risk : m.risk z supply = s.gate.risk z supply :=
    risk_congr supply (congrArg Gate.walker before.gate :) (congrArg Gate.events before.gate :)
      (congrArg (fun g => g.clock.siteTime) before.gate :) (congrArg Gate.settings before.gate :)
      (need.trans (need_eq_needed ..).symm)
  have set : m.clock.isSet = true := (congrArg (fun g => g.clock.isSet) before.gate :).trans isSet
  have projected : closeWindow z m = _ := closeWindow_projects z set
  rw [zone] at projected
  change closeWindow z m = setRisk z (m.risk z supply).1 (m.risk z supply).2 (m.need z) supply (ratedGate z m) at projected
  rw [risk, need] at projected
  have rated : (ratedGate z m).zone z = rated (s.gate.zone z) := by rw [ratedGate_zone, zone]
  have flag : ((closeWindow z m).zone z).lateRisk = (s.gate.risk z supply).1 := by
    rw [projected]
    exact setRisk_lateRisk
  have items := after.items z (fun other => other rfl)
  have next := exec_of_effect (i := .windowClose) (windowClose_due due)
  generalize forDrivenZones closeWindow (unmarked s.gate) = h at after zoneAfter items next
  refine ⟨_, next, ?_, fun same => ?_, fun changed => ?_⟩
  · show (h.zone z).lateRisk = true ↔ _
    rw [zoneAfter, flag, risk_iff, need_eq_needed]
  · replace same : (h.zone z).lateRisk = (s.gate.zone z).lateRisk := same
    show (h.zone z).counters = _ ∧
      itemsUnder .lateRisk object h = _
    rw [zoneAfter, flag] at same
    rw [setRisk_same (by rw [rated]; exact same.symm)] at projected
    rw [zoneAfter, items, projected, rated]
    exact ⟨rfl, before.items z (fun other => other rfl)⟩
  · replace changed : (h.zone z).lateRisk ≠ (s.gate.zone z).lateRisk := changed
    show (h.zone z).counters
        = (if (h.zone z).lateRisk = true then _ else _) ∧ _
    rw [zoneAfter, flag] at changed
    obtain ⟨status, -, counters⟩ := setRisk_changed (z := z) (g := ratedGate z m) (risk := (s.gate.risk z supply).1)
      (event := (s.gate.risk z supply).2) (n := n) (s := supply) (by rw [rated]; exact changed.symm)
    rw [← projected] at status counters
    rw [zoneAfter, flag, counters, rated]
    refine ⟨rfl, _, risk_names s.gate z supply, ?_⟩
    have listed : riskItem z (s.gate.risk z supply).1 (s.gate.risk z supply).2 n supply
        ∈ itemsUnder .lateRisk object (closeWindow z m) := by
      refine List.mem_filter.mpr ⟨?_, by simp [riskItem, object]⟩
      rw [status]
      exact mem_insertItem_self ..
    rw [← items] at listed
    exact (List.mem_filter.mp listed).1

end Sys2Proof.Proofs

/-! PROOF. The Sweep Walker's visit (R122–R129): what each of its operations does to a leg and to a zone, and the statements
SweepVisitGoesAheadOrParks and SweepVisitPlacesGrantEligibleDecoders. -/

namespace Sys2Proof.Machine

open Sys2Proof.Safety Sys2Proof.Claims

set_option Elab.async false

/-! ## What a visit leaves alone -/

/-- The operations of a visit: they change legs, sweep queues and counters alone. -/
structure Walked (g h : Gate) : Prop where
  gate : h = { g with
    events := h.events, zones := h.zones, walker := { g.walker with roster := h.walker.roster } }
  zone : ∀ z, h.zone z = { g.zone z with sweep := (h.zone z).sweep, counters := (h.zone z).counters }
  event : ∀ e, h.event e = { g.event e with counters := (h.event e).counters }

theorem Walked.refl (g : Gate) : Walked g g :=
  ⟨rfl, fun _ => rfl, fun _ => rfl⟩

theorem Walked.trans {g h k : Gate} (p : Walked g h) (q : Walked h k) : Walked g k :=
  ⟨q.gate.trans (by rw [p.gate]), fun z => (q.zone z).trans (by rw [p.zone z]), fun e => (q.event e).trans (by rw [p.event e])⟩

theorem Walked.foldl {α : Type} {f : α → Gate → Gate} (walks : ∀ a g, Walked g (f a g)) (items : List α) (g : Gate) :
    Walked g (items.foldl (fun acc a => f a acc) g) :=
  List.foldlRecOn items _ (.refl g) (fun acc walked a _ => walked.trans (walks a acc))

theorem setLeg_walked (e : EventIndex) (slot : SheetSlot) (leg : Option Leg) (g : Gate) : Walked g (setLeg e slot leg g) :=
  ⟨rfl, fun _ => rfl, fun _ => rfl⟩

theorem mapLegs_walked (f : Leg → Leg) (g : Gate) : Walked g (mapLegs f g) :=
  ⟨rfl, fun _ => rfl, fun _ => rfl⟩

theorem modZone_walked (z : ZoneIndex) {f : Zone → Zone} (g : Gate)
    (frame : ∀ zone, f zone = { zone with sweep := (f zone).sweep, counters := (f zone).counters }) :
    Walked g (modZone z f g) := by
  refine ⟨rfl, fun y => ?_, fun _ => rfl⟩
  rw [modZone_zone]
  split
  · next same => rw [same]; exact frame _
  · rfl

theorem bumpEvent_walked (e : EventIndex) (k : EventCounter) (g : Gate) : Walked g (bumpEvent e k g) := by
  refine ⟨rfl, fun _ => rfl, fun f => ?_⟩
  rw [bumpEvent_event]
  split
  · next same => rw [same]; rfl
  · rfl

theorem moveCell_walked (e : EventIndex) (slot : SheetSlot) (z : ZoneIndex) (g : Gate) : Walked g (moveCell e slot z g) := by
  unfold moveCell
  split
  · exact .refl g
  · split
    · exact .refl g
    · exact (setLeg_walked ..).trans (modZone_walked z _ fun _ => by rfl)

theorem moveCells_walked (e : EventIndex) (slot : SheetSlot) (g : Gate) : Walked g (moveCells e slot g) :=
  .foldl (fun z acc => moveCell_walked e slot z acc) allZones g

theorem flushOwed_walked (r : EventIndex × SheetSlot) (g : Gate) : Walked g (flushOwed r g) := by
  unfold flushOwed
  split
  · exact .refl g
  · split
    · exact (moveCells_walked ..).trans (setLeg_walked ..)
    · exact .refl g

theorem flushLapEnd_walked (r : EventIndex × SheetSlot) (g : Gate) : Walked g (flushLapEnd r g) := by
  unfold flushLapEnd
  split
  · exact .refl g
  · split
    · exact moveCells_walked ..
    · exact .refl g

theorem placeFor_walked (h : Holder) (r : EventIndex × SheetSlot) (g : Gate) : Walked g (placeFor h r g) := by
  unfold placeFor place
  split
  · exact .refl g
  · next leg _ =>
    split
    · have placed := setLeg_walked r.1 r.2 (some { leg with cells := leg.cells.set h.zone (leg.cells[h.zone] ++ [h.decoder]) }) g
      have counted := placed.trans (modZone_walked h.zone (f := Zone.countBy .lateGrants 1) _ fun _ => by rfl)
      dsimp only
      split <;> split
      · exact counted.trans (moveCell_walked ..)
      · exact placed.trans (moveCell_walked ..)
      · exact counted
      · exact placed
    · exact .refl g

theorem endLap_walked (r : EventIndex × SheetSlot) (g : Gate) : Walked g (endLap r g) := by
  unfold endLap
  split
  · exact .refl g
  · split
    · have ended (leg : Option Leg) := (bumpEvent_walked r.1 .lapsCompleted g).trans (setLeg_walked r.1 r.2 leg _)
      dsimp only
      split
      · exact ended _
      · split
        · exact (ended _).trans (mapLegs_walked ..)
        · exact (ended _).trans (setLeg_walked ..)
    · exact .refl g

/-! ## The parts of a visit -/

/-- The part at a cursor one bucket on (R121). -/
def advanced (g : Gate) : Gate :=
  { g with walker := { g.walker with cursor := nextBucket g.walker.cursor } }

def flushedGate (g : Gate) : Gate :=
  rosterOrder.foldl (fun acc r => flushOwed r acc) g

def bucketPlaced (records : List (Nat × Holder)) (g : Gate) : Gate :=
  records.foldl (fun acc entry => placeRecord entry.2 acc) g

def lapFlushedGate (g : Gate) : Gate :=
  rosterOrder.foldl (fun acc r => flushLapEnd r acc) g

def lapsEnded (g : Gate) : Gate :=
  rosterOrder.foldl (fun acc r => endLap r acc) g

theorem advanced_leg (e : EventIndex) (slot : SheetSlot) (g : Gate) : (advanced g).leg e slot = g.leg e slot := rfl

theorem flushedGate_walked (g : Gate) : Walked g (flushedGate g) :=
  .foldl flushOwed_walked rosterOrder g

theorem placeRecord_walked (h : Holder) (g : Gate) : Walked g (placeRecord h g) := by
  unfold placeRecord
  exact .foldl (placeFor_walked h) rosterOrder g

theorem bucketPlaced_cons (entry : Nat × Holder) (rest : List (Nat × Holder)) (g : Gate) :
    bucketPlaced (entry :: rest) g = bucketPlaced rest (placeRecord entry.2 g) :=
  List.foldl_cons ..

theorem bucketPlaced_walked (records : List (Nat × Holder)) (g : Gate) : Walked g (bucketPlaced records g) := by
  induction records generalizing g with
  | nil => exact .refl g
  | cons entry rest ih =>
    rw [bucketPlaced_cons]
    exact (placeRecord_walked entry.2 g).trans (ih _)

theorem lapFlushedGate_walked (g : Gate) : Walked g (lapFlushedGate g) :=
  .foldl flushLapEnd_walked rosterOrder g

theorem lapsEnded_walked (g : Gate) : Walked g (lapsEnded g) :=
  .foldl endLap_walked rosterOrder g

theorem Walked.bucketRecords {g h : Gate} (p : Walked g h) (b : Bucket) : bucketRecords b h = bucketRecords b g := by
  unfold Machine.bucketRecords
  rw [show h.holders = g.holders from (congrArg Gate.holders p.gate :)]

theorem Walked.cursor {g h : Gate} (p : Walked g h) : h.walker.cursor = g.walker.cursor :=
  (congrArg (fun k : Gate => k.walker.cursor) p.gate :)

theorem Walked.advanced {g h : Gate} (p : Walked g h) : Walked (advanced g) (advanced h) := by
  refine ⟨?_, p.zone, p.event⟩
  unfold Machine.advanced
  rw [p.cursor]
  conv_lhs => rw [p.gate]

/-- R129: the order of a visit. -/
theorem visitBucket_eq (g : Gate) : visitBucket g = lapsEnded (advanced (lapFlushedGate
    (mapLegs Leg.step (bucketPlaced (bucketRecords g.walker.cursor g) (flushedGate g))))) := by
  have flushed := flushedGate_walked g
  have placed : placeBucket (flushedGate g) = bucketPlaced (bucketRecords g.walker.cursor g) (flushedGate g) := by
    unfold placeBucket bucketPlaced
    rw [flushed.cursor, flushed.bucketRecords]
  rw [← placed]
  unfold visitBucket lapsEnded lapFlushedGate advanced flushedGate
  rfl

/-- The part before the cursor goes on. -/
theorem lapFlushed_walked (g : Gate) : Walked g (lapFlushedGate
    (mapLegs Leg.step (bucketPlaced (bucketRecords g.walker.cursor g) (flushedGate g)))) :=
  (((flushedGate_walked g).trans (bucketPlaced_walked ..)).trans (mapLegs_walked ..)).trans (lapFlushedGate_walked _)

theorem visitBucket_walked (g : Gate) : Walked (advanced g) (visitBucket g) := by
  rw [visitBucket_eq]
  exact (lapFlushed_walked g).advanced.trans (lapsEnded_walked _)

theorem sweepVisit_visits {g : Gate} (walks : Walks g) (fits : BuffersFit g) (turn : Turn g .sweepWalker) :
    sweepVisit g = granted .sweepWalker
      { visitBucket g with walker := { (visitBucket g).walker with parked := false } } := by
  unfold sweepVisit
  dsimp only
  rw [if_pos (walks_iff.mpr walks), if_neg (by rw [fits_visitBucket_iff.mpr fits]; decide), if_pos turn]

theorem sweepVisit_parks {g : Gate} (walks : Walks g) (full : ¬ BuffersFit g) : sweepVisit g = park g := by
  unfold sweepVisit
  dsimp only
  rw [if_pos (walks_iff.mpr walks), if_pos (by rw [Bool.not_eq_true', ← Bool.not_eq_true, fits_visitBucket_iff]; exact full)]

/-! ## The move of a cell (R127) -/

theorem materialOf_held (ev : Event) (number : SheetNumber) :
    HeldMaterial ev number (ev.materialOf number).1 (ev.materialOf number).2 := by
  refine ⟨fun sheet held named => ?_, fun sheet held named apart => ?_⟩
  · simp [Event.materialOf, held, named]
  · unfold Event.materialOf
    rw [held]
    cases current : ev.current with
    | none => simp [named]
    | some other => simp [named, apart other current]

section Moves

variable {g : Gate} {e : EventIndex} {slot : SheetSlot} {leg : Leg}

/-- R127: the zone of a cell after its move. -/
def movedZone (e : EventIndex) (leg : Leg) (z : ZoneIndex) (g : Gate) : Zone :=
  if leg.cells[z] = [] then g.zone z
  else Zone.countBy .sweepCellsBuilt 1
    { g.zone z with sweep := (g.zone z).sweep ++ [g.noticeFor e leg leg.cells[z]] }

theorem moveCell_empty {z : ZoneIndex} (held : g.leg e slot = some leg) (empty : leg.cells[z] = []) : moveCell e slot z g = g := by
  unfold moveCell
  rw [held]
  exact if_pos empty

theorem moveCell_full {z : ZoneIndex} (held : g.leg e slot = some leg) (full : leg.cells[z] ≠ []) :
    moveCell e slot z g = setLeg e slot (some (leg.moved z))
      (modZone z (fun zone => Zone.countBy .sweepCellsBuilt 1
        { zone with sweep := zone.sweep ++ [g.noticeFor e leg leg.cells[z]] }) g) := by
  unfold moveCell
  rw [held]
  exact if_neg full

/-- An empty cell that moves leaves its leg. -/
theorem Leg.moved_of_empty {z : ZoneIndex} (empty : leg.cells[z] = []) : leg.moved z = leg := by
  have cells : leg.cells.set z [] = leg.cells := by
    rw [← empty]
    exact Vector.set_getElem_self ..
  have emitted : leg.emitted.set z (leg.emitted[z] + leg.cells[z].length) = leg.emitted := by
    rw [empty, List.length_nil, Nat.add_zero]
    exact Vector.set_getElem_self ..
  unfold Leg.moved
  rw [cells, emitted, ite_self]

theorem moveCell_leg {z : ZoneIndex} (held : g.leg e slot = some leg) :
    (moveCell e slot z g).leg e slot = some (leg.moved z) := by
  by_cases empty : leg.cells[z] = []
  · rw [moveCell_empty held empty, held, Leg.moved_of_empty empty]
  · rw [moveCell_full held empty, setLeg_leg_same]

theorem moveCell_leg_other (z : ZoneIndex) {f : EventIndex} {other : SheetSlot} (apart : (f, other) ≠ (e, slot)) :
    (moveCell e slot z g).leg f other = g.leg f other := by
  unfold moveCell
  split
  · rfl
  · split
    · rfl
    · rw [modZone_leg, setLeg_leg_other (not_and_or.mp fun same => apart (Prod.ext same.1 same.2))]

theorem moveCell_zone {z : ZoneIndex} (held : g.leg e slot = some leg) :
    (moveCell e slot z g).zone z = movedZone e leg z g := by
  unfold movedZone
  split
  · next empty => rw [moveCell_empty held empty]
  · next full => rw [moveCell_full held full, setLeg_zone, modZone_zone_same]

theorem moveCell_zone_other {y z : ZoneIndex} (apart : y ≠ z) : (moveCell e slot z g).zone y = g.zone y := by
  unfold moveCell
  split
  · rfl
  · split
    · rfl
    · rw [modZone_zone_other apart, setLeg_zone]

theorem Leg.moved_cells (z : ZoneIndex) (leg : Leg) (y : ZoneIndex) :
    (leg.moved z).cells[y] = if y = z then [] else leg.cells[y] := by
  by_cases same : y = z
  · subst same
    rw [if_pos rfl]
    exact Vector.getElem_set_self ..
  · rw [if_neg same]
    exact Vector.getElem_set_ne z.isLt y.isLt fun there => same (Fin.ext there.symm)

/-- The move of a cell depends on its leg's sheet and cell, its event record and its zone. -/
theorem movedZone_congr {h : Gate} {after : Leg} {z : ZoneIndex} (event : h.event e = g.event e)
    (zone : h.zone z = g.zone z) (sheet : after.sheet = leg.sheet) (cell : after.cells[z] = leg.cells[z]) :
    movedZone e after z h = movedZone e leg z g := by
  unfold movedZone Gate.noticeFor
  rw [event, zone, sheet, cell]

/-- Cells of different zones that move one after the other. -/
theorem foldl_moveCell {zones : List ZoneIndex} (apart : zones.Nodup) (held : g.leg e slot = some leg) :
    let h := zones.foldl (fun acc z => moveCell e slot z acc) g
    h.leg e slot = some (zones.foldl (fun acc z => acc.moved z) leg) ∧
    (∀ z ∈ zones, h.zone z = movedZone e leg z g) ∧ ∀ z, z ∉ zones → h.zone z = g.zone z := by
  induction zones generalizing g leg with
  | nil => exact ⟨held, fun z listed => (by cases listed), fun _ _ => rfl⟩
  | cons y rest ih =>
    obtain ⟨new, apartRest⟩ := List.nodup_cons.mp apart
    obtain ⟨legs, zones, others⟩ := ih (g := moveCell e slot y g) apartRest (moveCell_leg held)
    refine ⟨legs, fun z listed => ?_, fun z other => ?_⟩
    · rcases List.mem_cons.mp listed with rfl | listed
      · exact (others z new).trans (moveCell_zone held)
      · have other : z ≠ y := fun same => new (same ▸ listed)
        refine (zones z listed).trans (movedZone_congr (moveCell_event ..) (moveCell_zone_other other) rfl ?_)
        rw [Leg.moved_cells, if_neg other]
    · obtain ⟨notY, notRest⟩ := List.ne_and_not_mem_of_not_mem_cons other
      exact (others z notRest).trans (moveCell_zone_other notY)

/-- R127: a leg whose cells have all moved. -/
theorem foldl_moved (leg : Leg) : allZones.foldl (fun acc z => acc.moved z) leg = emptied leg := by
  have four : ∀ i, i < 4 → i = 0 ∨ i = 1 ∨ i = 2 ∨ i = 3 := by omega
  have cells : (allZones.foldl (fun acc z => acc.moved z) leg).cells = Vector.replicate 4 [] := by
    refine Vector.ext fun i below => ?_
    rcases four i below with rfl | rfl | rfl | rfl <;> simp [allZones, Leg.moved]
  have emitted : (allZones.foldl (fun acc z => acc.moved z) leg).emitted
      = if leg.walking = true ∧ leg.lap = 1 then Vector.ofFn (fun z : Fin 4 => leg.emitted[z] + leg.cells[z].length)
        else leg.emitted := by
    split
    · next first =>
      refine Vector.ext fun i below => ?_
      rcases four i below with rfl | rfl | rfl | rfl <;>
        simp [allZones, Leg.moved, Leg.firstLap, first]
    · next later =>
      have later' : leg.firstLap = false := Bool.eq_false_iff.mpr fun first => later (firstLap_iff.mp first)
      have stays (acc : Leg) (same : acc.firstLap = false) (z : ZoneIndex) : (acc.moved z).emitted = acc.emitted :=
        if_neg (ne_true_of_eq_false same)
      have same : ∀ zones : List ZoneIndex, ∀ acc : Leg, acc.firstLap = false →
          (zones.foldl (fun acc z => acc.moved z) acc).emitted = acc.emitted := by
        intro zones
        induction zones with
        | nil => exact fun _ _ => rfl
        | cons z rest ih => exact fun acc first => (ih (acc.moved z) first).trans (stays acc first z)
      exact same allZones leg later'
  have rest : allZones.foldl (fun acc z => acc.moved z) leg
      = { leg with
          cells := (allZones.foldl (fun acc z => acc.moved z) leg).cells
          emitted := (allZones.foldl (fun acc z => acc.moved z) leg).emitted } := rfl
  rw [rest, cells, emitted, emptied]

theorem moveCells_leg_other {f : EventIndex} {other : SheetSlot} (apart : (f, other) ≠ (e, slot)) :
    (moveCells e slot g).leg f other = g.leg f other :=
  List.foldlRecOn (motive := fun acc : Gate => acc.leg f other = g.leg f other) allZones _ rfl
    (fun _ same z _ => (moveCell_leg_other z apart).trans same)

theorem moveCells_gate : moveCells e slot g
    = { g with zones := (moveCells e slot g).zones, walker := { g.walker with roster := (moveCells e slot g).walker.roster } } := by
  have move (z : ZoneIndex) (h : Gate) : moveCell e slot z h
      = { h with zones := (moveCell e slot z h).zones, walker := { h.walker with roster := (moveCell e slot z h).walker.roster } } := by
    unfold moveCell
    split
    · rfl
    · split <;> rfl
  refine List.foldlRecOn (motive := fun acc : Gate => acc
    = { g with zones := acc.zones, walker := { g.walker with roster := acc.walker.roster } }) allZones _ rfl
    (fun acc frame z _ => (move z acc).trans ?_)
  rw [frame]

/-- R129: all the cells of a leg move. -/
theorem moveCells_flushed {r : EventIndex × SheetSlot} (held : g.leg r.1 r.2 = some leg) :
    Flushed g (moveCells r.1 r.2 g) r (emptied leg) := by
  obtain ⟨legs, zones, -⟩ := foldl_moveCell (zones := allZones) (by decide) held
  rw [foldl_moved] at legs
  exact ⟨moveCells_gate, legs, fun f slot apart => moveCells_leg_other apart,
    fun z => (zones z (mem_allZones z)).trans (moveCell_zone held).symm⟩

theorem flushOwed_none {r : EventIndex × SheetSlot} (held : g.leg r.1 r.2 = some leg) (paid : leg.owesFlush = false) :
    flushOwed r g = g := by
  unfold flushOwed
  rw [held]
  exact if_neg (ne_true_of_eq_false paid)

theorem flushOwed_flushed {r : EventIndex × SheetSlot} (held : g.leg r.1 r.2 = some leg) (owes : leg.owesFlush = true) :
    Flushed g (flushOwed r g) r { emptied leg with owesFlush := false } := by
  have moved := moveCells_flushed held
  have flushed : flushOwed r g = setLeg r.1 r.2 (some { emptied leg with owesFlush := false }) (moveCells r.1 r.2 g) := by
    unfold flushOwed
    rw [held]
    dsimp only
    rw [if_pos owes, moved.leg, Option.map_some]
  rw [flushed]
  refine ⟨?_, setLeg_leg_same .., fun f slot apart => ?_, fun z => (setLeg_zone ..).trans (moved.zone z)⟩
  · conv_lhs => rw [moved.gate]
    rfl
  · rw [setLeg_leg_other (not_and_or.mp fun same => apart (Prod.ext same.1 same.2)), moved.others f slot apart]

theorem lapEnded_iff {leg : Leg} : leg.lapEnded = true ↔ leg.walking = true ∧ leg.remaining = 0 := by
  simp [Leg.lapEnded]

theorem flushLapEnd_of_ended {r : EventIndex × SheetSlot} (held : g.leg r.1 r.2 = some leg) (ended : leg.lapEnded = true) :
    flushLapEnd r g = moveCells r.1 r.2 g := by
  unfold flushLapEnd
  rw [held]
  exact if_pos ended

theorem flushLapEnd_of_going {r : EventIndex × SheetSlot} (held : g.leg r.1 r.2 = some leg) (going : ¬ leg.lapEnded = true) :
    flushLapEnd r g = g := by
  unfold flushLapEnd
  rw [held]
  exact if_neg going

theorem flushOwed_leg_other {r : EventIndex × SheetSlot} (apart : (e, slot) ≠ r) : (flushOwed r g).leg e slot = g.leg e slot := by
  cases held : g.leg r.1 r.2 with
  | none =>
    unfold flushOwed
    rw [held]
  | some leg =>
    cases owes : leg.owesFlush with
    | false => rw [flushOwed_none held owes]
    | true => exact (flushOwed_flushed held owes).others e slot apart

theorem flushLapEnd_leg_other {r : EventIndex × SheetSlot} (apart : (e, slot) ≠ r) :
    (flushLapEnd r g).leg e slot = g.leg e slot := by
  unfold flushLapEnd
  split
  · rfl
  · split
    · exact moveCells_leg_other apart
    · rfl

end Moves

/-! ## Placements (R122) -/

section Placements

variable {g : Gate} {r : EventIndex × SheetSlot} {leg : Leg} {h : Holder}

/-- R122: a leg with a decoder at the end of its cell of the record's zone. -/
def placedLeg (h : Holder) (leg : Leg) : Leg :=
  { leg with cells := leg.cells.set h.zone (leg.cells[h.zone] ++ [h.decoder]) }

theorem placeFor_not (held : g.leg r.1 r.2 = some leg)
    (not : ¬ (leg.walking = true ∧ grantEligible h r.1 (g.event r.1) = true)) : placeFor h r g = g := by
  unfold placeFor
  rw [held]
  exact if_neg fun both => not (Bool.and_eq_true_iff.mp both)

theorem placeFor_place (held : g.leg r.1 r.2 = some leg) (walks : leg.walking = true)
    (eligible : grantEligible h r.1 (g.event r.1) = true) :
    let placed := setLeg r.1 r.2 (some (placedLeg h leg))
      (if leg.lap = 1 ∧ leg.late = true then modZone h.zone (Zone.countBy .lateGrants 1) g else g)
    placeFor h r g = if leg.cells[h.zone].length + 1 = 48 then moveCell r.1 r.2 h.zone placed else placed := by
  have counted : (if leg.firstLap && leg.late
        then modZone h.zone (Zone.countBy .lateGrants 1) (setLeg r.1 r.2 (some (placedLeg h leg)) g)
        else setLeg r.1 r.2 (some (placedLeg h leg)) g)
      = setLeg r.1 r.2 (some (placedLeg h leg))
        (if leg.lap = 1 ∧ leg.late = true then modZone h.zone (Zone.countBy .lateGrants 1) g else g) := by
    by_cases late : leg.lap = 1 ∧ leg.late = true
    · rw [if_pos late, if_pos (by simp [Leg.firstLap, walks, late])]
      rfl
    · rw [if_neg late, if_neg (by simpa [Leg.firstLap, walks] using late)]
  intro placed
  have both : (leg.walking && grantEligible h r.1 (g.event r.1)) = true := Bool.and_eq_true_iff.mpr ⟨walks, eligible⟩
  unfold placeFor
  rw [held]
  dsimp only
  rw [if_pos both]
  exact congrArg (fun k => if leg.cells[h.zone].length + 1 = 48 then moveCell r.1 r.2 h.zone k else k) counted

theorem placeFor_leg_other {e : EventIndex} {slot : SheetSlot} (apart : (e, slot) ≠ r) :
    (placeFor h r g).leg e slot = g.leg e slot := by
  have elsewhere := not_and_or.mp fun same : e = r.1 ∧ slot = r.2 => apart (Prod.ext same.1 same.2)
  cases held : g.leg r.1 r.2 with
  | none =>
    unfold placeFor
    rw [held]
  | some leg =>
    by_cases placed : leg.walking = true ∧ grantEligible h r.1 (g.event r.1) = true
    · rw [placeFor_place held placed.1 placed.2]
      split
      · rw [moveCell_leg_other _ apart, setLeg_leg_other elsewhere]
        split <;> rfl
      · rw [setLeg_leg_other elsewhere]
        split <;> rfl
    · rw [placeFor_not held placed]

/-- R122: a WALKING leg whose cell has room takes a decoder where the record is grant-eligible. -/
theorem placeFor_leg (held : g.leg r.1 r.2 = some leg) (walks : leg.walking = true)
    (room : leg.cells[h.zone].length + 1 < 48) : (placeFor h r g).leg r.1 r.2
      = some (if grantEligible h r.1 (g.event r.1) then placedLeg h leg else leg) := by
  by_cases eligible : grantEligible h r.1 (g.event r.1) = true
  · rw [placeFor_place held walks eligible, if_pos eligible]
    rw [if_neg (by omega), setLeg_leg_same]
  · rw [placeFor_not held fun both => eligible both.2, if_neg eligible, held]

theorem rosterOrder_nodup : rosterOrder.Nodup := by decide +kernel

/-- R122: one record, every leg: of each leg's place, what its own placement does. -/
theorem placeRecord_leg (held : g.leg r.1 r.2 = some leg) (walks : leg.walking = true)
    (room : leg.cells[h.zone].length + 1 < 48) : (placeRecord h g).leg r.1 r.2
      = some (if grantEligible h r.1 (g.event r.1) then placedLeg h leg else leg) := by
  have others (items : List (EventIndex × SheetSlot)) (not : r ∉ items) (acc : Gate) :
      (items.foldl (fun acc r => placeFor h r acc) acc).leg r.1 r.2 = acc.leg r.1 r.2 :=
    List.foldlRecOn (motive := fun k : Gate => k.leg r.1 r.2 = acc.leg r.1 r.2) items _ rfl
      (fun k same other listed => (placeFor_leg_other fun there : r = other => not (there ▸ listed)).trans same)
  have events (items : List (EventIndex × SheetSlot)) (acc : Gate) :
      (items.foldl (fun acc r => placeFor h r acc) acc).event r.1 = acc.event r.1 :=
    List.foldlRecOn (motive := fun k : Gate => k.event r.1 = acc.event r.1) items _ rfl
      (fun k same other _ => (placeFor_event ..).trans same)
  obtain ⟨before, after, all⟩ := List.append_of_mem (mem_rosterOrder r.1 r.2)
  have once := rosterOrder_nodup
  rw [all] at once
  obtain ⟨-, tail, apart⟩ := List.nodup_append.mp once
  have notBefore : r ∉ before := fun listed => apart r listed r (.head _) rfl
  have notAfter : r ∉ after := (List.nodup_cons.mp tail).1
  unfold placeRecord
  rw [all, List.foldl_append, List.foldl_cons, others after notAfter]
  have here := placeFor_leg (g := before.foldl (fun acc r => placeFor h r acc) g) (h := h)
    ((others before notBefore g).trans held) walks room
  rw [events] at here
  exact here

/-- What the records of a bucket add to a leg's cell of zone z. -/
def additions (records : List (Nat × Holder)) (e : EventIndex) (ev : Event) (z : ZoneIndex) : List Decoder :=
  records.filterMap (fun entry => if grantEligible entry.2 e ev = true ∧ entry.2.zone = z then some entry.2.decoder else none)

theorem placedLeg_cells (h : Holder) (leg : Leg) (z : ZoneIndex) :
    (placedLeg h leg).cells[z] = leg.cells[z] ++ if h.zone = z then [h.decoder] else [] := by
  by_cases same : h.zone = z
  · subst same
    rw [if_pos rfl]
    exact Vector.getElem_set_self ..
  · rw [if_neg same, List.append_nil]
    exact Vector.getElem_set_ne h.zone.isLt z.isLt fun there => same (Fin.ext there)

/-- R122: the records of a bucket, for a WALKING leg whose cells have room for all of them. -/
theorem bucketPlaced_leg (records : List (Nat × Holder)) (held : g.leg r.1 r.2 = some leg) (walks : leg.walking = true)
    (room : ∀ z : ZoneIndex, leg.cells[z].length + records.length < 48) :
    ∃ cells, (bucketPlaced records g).leg r.1 r.2 = some { leg with cells := cells } ∧
      ∀ z : ZoneIndex, cells[z] = leg.cells[z] ++ additions records r.1 (g.event r.1) z := by
  induction records generalizing g leg with
  | nil => exact ⟨leg.cells, held, fun z => (List.append_nil _).symm⟩
  | cons entry rest ih =>
    have roomHere : leg.cells[entry.2.zone].length + 1 < 48 := by
      have := room entry.2.zone
      rw [List.length_cons] at this
      omega
    have next := placeRecord_leg (h := entry.2) held walks roomHere
    have event : (placeRecord entry.2 g).event r.1 = g.event r.1 :=
      List.foldlRecOn (motive := fun k : Gate => k.event r.1 = g.event r.1) rosterOrder _ rfl
        (fun k same other _ => (placeFor_event ..).trans same)
    have added (z : ZoneIndex) : (if grantEligible entry.2 r.1 (g.event r.1) then placedLeg entry.2 leg else leg).cells[z]
        = leg.cells[z] ++ additions [entry] r.1 (g.event r.1) z := by
      by_cases eligible : grantEligible entry.2 r.1 (g.event r.1) = true
      · rw [if_pos eligible, placedLeg_cells]
        by_cases same : entry.2.zone = z <;> simp [additions, eligible, same]
      · rw [if_neg eligible]
        simp [additions, eligible]
    have few (z : ZoneIndex) : (additions [entry] r.1 (g.event r.1) z).length ≤ 1 := List.length_filterMap_le ..
    have roomRest (z : ZoneIndex) : (if grantEligible entry.2 r.1 (g.event r.1) then placedLeg entry.2 leg else leg).cells[z].length
        + rest.length < 48 := by
      have here := room z
      rw [List.length_cons] at here
      have one := few z
      rw [added z, List.length_append]
      omega
    obtain ⟨cells, found, grown⟩ := ih (g := placeRecord entry.2 g) next (by split <;> exact walks) roomRest
    refine ⟨cells, ?_, fun z => ?_⟩
    · rw [bucketPlaced_cons, found]
      split <;> rfl
    · rw [grown z, added z, event, List.append_assoc]
      exact congrArg (leg.cells[z] ++ ·) (List.filterMap_append (l := [entry]) (l' := rest)).symm

end Placements

/-! ## Lap ends (R123) -/

section LapEnds

variable {g : Gate} {r : EventIndex × SheetSlot} {leg : Leg}

/-- R124: a first-lap leg is left where the leg of a place walks no first lap. -/
theorem hasFirstLap_setLeg_iff {after : Leg} (later : after.firstLap = false) :
    (setLeg r.1 r.2 (some after) g).hasFirstLap = true ↔ FirstLapLeft g r := by
  rw [hasFirstLap_iff]
  constructor
  · rintro ⟨f, other, leg, held, first⟩
    by_cases same : (f, other) = r
    · subst same
      rw [setLeg_leg_same] at held
      cases held
      rw [later] at first
      cases first
    · rw [setLeg_leg_other (not_and_or.mp fun both => same (Prod.ext both.1 both.2))] at held
      exact ⟨f, other, leg, same, held, firstLap_iff.mp first⟩
  · rintro ⟨f, other, leg, apart, held, first⟩
    refine ⟨f, other, leg, ?_, firstLap_iff.mpr first⟩
    rw [setLeg_leg_other (not_and_or.mp fun same => apart (Prod.ext same.1 same.2)), held]

/-- R123: a leg whose lap has ended. -/
def endedLeg (leg : Leg) : Leg :=
  { leg with walking := false, deadline := none }

def endedGate (r : EventIndex × SheetSlot) (leg : Leg) (g : Gate) : Gate :=
  setLeg r.1 r.2 (some (endedLeg leg)) (bumpEvent r.1 .lapsCompleted g)

theorem endLap_going (held : g.leg r.1 r.2 = some leg) (going : ¬ leg.lapEnded = true) : endLap r g = g := by
  unfold endLap
  rw [held]
  exact if_neg going

theorem endLap_ended (held : g.leg r.1 r.2 = some leg) (ended : leg.lapEnded = true) :
    endLap r g = if (endedGate r leg g).hasFirstLap then endedGate r leg g
      else if leg.firstLap then resumeWaiting (endedGate r leg g)
      else setLeg r.1 r.2 (some ((endedLeg leg).resume g.walker.cursor)) (endedGate r leg g) := by
  unfold endLap
  rw [held]
  exact if_pos ended

theorem endedGate_hasFirstLap : (endedGate r leg g).hasFirstLap = true ↔ FirstLapLeft g r :=
  hasFirstLap_setLeg_iff (g := bumpEvent r.1 .lapsCompleted g) rfl

theorem endedGate_leg : (endedGate r leg g).leg r.1 r.2 = some (endedLeg leg) :=
  setLeg_leg_same ..

theorem endedGate_leg_other {f : EventIndex} {slot : SheetSlot} (apart : (f, slot) ≠ r) :
    (endedGate r leg g).leg f slot = g.leg f slot :=
  (setLeg_leg_other (not_and_or.mp fun same => apart (Prod.ext same.1 same.2)) ..).trans (bumpEvent_leg ..)

theorem endedLeg_resume (cursor : Bucket) : (endedLeg leg).resume cursor = onNextLap cursor (endedLeg leg) := by
  rw [resume_eq_resumed]
  exact if_neg Bool.false_ne_true

theorem endLap_waits (held : g.leg r.1 r.2 = some leg) (ended : leg.lapEnded = true) (left : FirstLapLeft g r) :
    endLap r g = endedGate r leg g := by
  rw [endLap_ended held ended, if_pos (endedGate_hasFirstLap.mpr left)]

theorem endLap_last (held : g.leg r.1 r.2 = some leg) (ended : leg.lapEnded = true) (last : ¬ FirstLapLeft g r)
    (first : leg.lap = 1) : endLap r g = mapLegs (resumed g.walker.cursor) (endedGate r leg g) := by
  rw [endLap_ended held ended, if_neg fun has => last (endedGate_hasFirstLap.mp has),
    if_pos (firstLap_iff.mpr ⟨(lapEnded_iff.mp ended).1, first⟩), ← resume_eq_resumed]
  rfl

theorem endLap_alone (held : g.leg r.1 r.2 = some leg) (ended : leg.lapEnded = true) (last : ¬ FirstLapLeft g r)
    (later : leg.lap ≠ 1) :
    endLap r g = setLeg r.1 r.2 (some (onNextLap g.walker.cursor (endedLeg leg))) (endedGate r leg g) := by
  rw [endLap_ended held ended, if_neg fun has => last (endedGate_hasFirstLap.mp has),
    if_neg fun first => later (firstLap_iff.mp first).2, endedLeg_resume]

theorem endLap_frame (held : g.leg r.1 r.2 = some leg) (ended : leg.lapEnded = true) :
    endLap r g = { bumpEvent r.1 .lapsCompleted g with walker := { g.walker with roster := (endLap r g).walker.roster } } := by
  by_cases left : FirstLapLeft g r
  · rw [endLap_waits held ended left]
    rfl
  · by_cases first : leg.lap = 1
    · rw [endLap_last held ended left first]
      rfl
    · rw [endLap_alone held ended left first]
      rfl

/-- R123: a lap that ends leaves each other WALKING leg. -/
theorem endLap_leg_walking {e : EventIndex} {slot : SheetSlot} (walks : leg.walking = true) (held : g.leg e slot = some leg)
    (goes : (e, slot) = r → ¬ leg.lapEnded = true) : (endLap r g).leg e slot = some leg := by
  by_cases same : (e, slot) = r
  · subst same
    rw [endLap_going held (goes rfl), held]
  · cases there : g.leg r.1 r.2 with
    | none =>
      unfold endLap
      rw [there]
      exact held
    | some other =>
      by_cases ended : other.lapEnded = true
      · have stays : (endedGate r other g).leg e slot = some leg := (endedGate_leg_other same).trans held
        by_cases left : FirstLapLeft g r
        · rw [endLap_waits there ended left, stays]
        · by_cases first : other.lap = 1
          · rw [endLap_last there ended left first, mapLegs_leg, stays, Option.map_some, resumed, if_pos walks]
          · rw [endLap_alone there ended left first,
              setLeg_leg_other (not_and_or.mp fun both => same (Prod.ext both.1 both.2)), stays]
      · rw [endLap_going there ended, held]

end LapEnds

/-! ## One leg through a visit -/

theorem bucketRecords_length (b : Bucket) (g : Gate) : (bucketRecords b g).length ≤ 4 :=
  List.length_filterMap_le ..

theorem step_remaining {leg : Leg} (walks : leg.walking = true) (goes : 1 < leg.remaining.val) :
    leg.step.remaining.val + 1 = leg.remaining.val := by
  have limit := leg.remaining.isLt
  unfold Leg.step
  rw [if_pos walks]
  show (leg.remaining.val - 1) % 8193 + 1 = _
  omega

/-- R122: a WALKING leg that owes no flush, whose lap does not end and whose cells have room. -/
theorem visitBucket_leg {g : Gate} {e : EventIndex} {slot : SheetSlot} {leg : Leg} (held : g.leg e slot = some leg)
    (walks : leg.walking = true) (paid : leg.owesFlush = false) (goes : 1 < leg.remaining.val)
    (room : ∀ z : ZoneIndex, leg.cells[z].length + 4 < 48) :
    ∃ cells, (visitBucket g).leg e slot = some (Leg.step { leg with cells := cells }) ∧
      ∀ z : ZoneIndex, cells[z] = leg.cells[z] ++ additions (bucketRecords g.walker.cursor g) e (g.event e) z := by
  have flushed : (flushedGate g).leg e slot = some leg :=
    List.foldlRecOn (motive := fun k : Gate => k.leg e slot = some leg) rosterOrder _ held (fun k same r _ => by
      by_cases here : (e, slot) = r
      · subst here
        rwa [flushOwed_none same paid]
      · exact (flushOwed_leg_other here).trans same)
  have event : (flushedGate g).event e = g.event e :=
    List.foldlRecOn (motive := fun k : Gate => k.event e = g.event e) rosterOrder _ rfl
      (fun k same r _ => (flushOwed_event ..).trans same)
  obtain ⟨cells, placed, grown⟩ := bucketPlaced_leg (r := (e, slot)) (bucketRecords g.walker.cursor g) flushed walks
    (fun z => by have := room z; have := bucketRecords_length g.walker.cursor g; omega)
  rw [event] at grown
  refine ⟨cells, ?_, grown⟩
  have counts := step_remaining (leg := { leg with cells := cells }) walks goes
  have still : (Leg.step { leg with cells := cells }).walking = true := by
    unfold Leg.step
    rw [if_pos walks]
    exact walks
  have going : ¬ (Leg.step { leg with cells := cells }).lapEnded = true := fun ended => by
    rw [(lapEnded_iff.mp ended).2] at counts
    change 0 + 1 = leg.remaining.val at counts
    omega
  have stepped : (mapLegs Leg.step (bucketPlaced (bucketRecords g.walker.cursor g) (flushedGate g))).leg e slot
      = some (Leg.step { leg with cells := cells }) := by
    rw [mapLegs_leg, placed, Option.map_some]
  have lapFlushed : (lapFlushedGate (mapLegs Leg.step (bucketPlaced (bucketRecords g.walker.cursor g) (flushedGate g)))).leg e slot
      = some (Leg.step { leg with cells := cells }) :=
    List.foldlRecOn (motive := fun k : Gate => k.leg e slot = some (Leg.step { leg with cells := cells })) rosterOrder _
      stepped (fun k same r _ => by
        by_cases here : (e, slot) = r
        · subst here
          rwa [flushLapEnd_of_going same going]
        · exact (flushLapEnd_leg_other here).trans same)
  have ended {k : Gate} (before : k.leg e slot = some (Leg.step { leg with cells := cells })) :
      (lapsEnded k).leg e slot = some (Leg.step { leg with cells := cells }) :=
    List.foldlRecOn (motive := fun k : Gate => k.leg e slot = some (Leg.step { leg with cells := cells })) rosterOrder _
      before (fun k same r _ => endLap_leg_walking still same fun _ => going)
  rw [visitBucket_eq]
  exact ended ((advanced_leg ..).trans lapFlushed)

/-- R124: a leg that joins suspends every later-lap leg. -/
theorem joinLeg_suspends {g : Gate} {r : EventIndex × SheetSlot} {sheet : Sheet} (held : g.sheet r.1 r.2 = some sheet)
    (free : g.leg r.1 r.2 = none) {f : EventIndex} {slot : SheetSlot} (apart : (f, slot) ≠ r) :
    (joinLeg r.1 r.2 g).leg f slot = (g.leg f slot).map suspended := by
  have elsewhere := not_and_or.mp fun same : f = r.1 ∧ slot = r.2 => apart (Prod.ext same.1 same.2)
  have entered (joined : Leg) : (enterLeg r.1 r.2 joined g).leg f slot = (g.leg f slot).map suspended := by
    have same : Leg.suspend = suspended := by
      funext leg
      unfold Leg.suspend suspended
      simp
    unfold enterLeg
    rw [bumpEvent_leg, setLeg_leg_other elsewhere, mapLegs_leg, same]
  have late (joined : Leg) :
      (makeLate r.1 r.2 joined (enterLeg r.1 r.2 joined g)).leg f slot = (g.leg f slot).map suspended := by
    unfold makeLate
    split
    · rw [postLegLate, post_leg, bumpEvent_leg, setLeg_leg_other elsewhere, entered]
    · rw [setLeg_leg_other elsewhere, entered]
  unfold joinLeg
  rw [held, free]
  unfold lateAtJoin
  dsimp only
  split
  · split
    · exact late _
    · exact entered _
  · exact entered _

theorem dropLeg_roster_frame (r : EventIndex × SheetSlot) (g : Gate) :
    dropLeg r.1 r.2 g = { g with walker := { g.walker with roster := (dropLeg r.1 r.2 g).walker.roster } } := by
  unfold dropLeg afterFirstLap
  split
  · rfl
  · split <;> rfl

end Sys2Proof.Machine

namespace Sys2Proof.Proofs

open Sys2Proof.Machine Sys2Proof.Safety Sys2Proof.Claims

set_option Elab.async false

/-- Settles O30: by the buffer test (R128); what a visit leaves is one relation, kept by each of its operations. -/
theorem sweepVisitGoesAheadOrParks : Obligations.SweepVisitGoesAheadOrParks := by
  unfold Obligations.SweepVisitGoesAheadOrParks
  intro s walks v
  refine ⟨fun fits turn => ?_, fun full => ⟨fun parked => ?_, fun free => ?_⟩⟩
  · obtain ⟨w, same, walked, next⟩ : ∃ w, v = w ∧ Walked (advanced s.gate) w ∧ sweepVisit s.gate = granted .sweepWalker
        { w with walker := { w.walker with parked := false } } :=
      ⟨visitBucket s.gate, rfl, visitBucket_walked s.gate, sweepVisit_visits walks fits turn⟩
    clear_value v
    subst same
    replace next := exec_of_effect (i := .sweepVisit) next
    refine ⟨_, next, rfl, ?_, congrArg Fin.val walked.cursor, walked.zone, walked.event⟩
    have walker : v.walker = { (advanced s.gate).walker with roster := v.walker.roster } := (congrArg Gate.walker walked.gate :)
    conv_lhs => rw [walked.gate]
    conv_rhs => rw [walker]
    rfl
  · refine exec_of_unchanged ((sweepVisit_parks walks full).trans ?_)
    exact if_pos parked
  · refine exec_of_effect ((sweepVisit_parks walks full).trans ?_)
    exact if_neg (ne_true_of_eq_false free)

/-- Settles O31: clause by clause, each by the lemma about its operation (R122–R129). -/
theorem sweepVisitPlacesGrantEligibleDecoders : Obligations.SweepVisitPlacesGrantEligibleDecoders := by
  refine ⟨fun s e slot leg held walks paid goes room fits turn => ?visit,
    fun g e slot z leg held => ⟨fun empty => moveCell_empty held empty, fun full => ?move⟩,
    fun g r leg held => ⟨fun paid => flushOwed_none held paid, fun owes => flushOwed_flushed held owes,
      fun going => flushLapEnd_of_going held fun ended => going (lapEnded_iff.mp ended), fun walks zero => ?lapFlush⟩,
    fun g r h leg held => ⟨fun not => placeFor_not held not, fun walks eligible => placeFor_place held walks eligible⟩,
    fun g r leg held => ⟨fun going => endLap_going held fun ended => going (lapEnded_iff.mp ended), fun walks zero => ?endLap⟩,
    fun g r sheet held free f slot apart => joinLeg_suspends held free apart, fun g r leg held => ?drop, fun g => ?order⟩
  case visit =>
    obtain ⟨cells, after, grown⟩ := visitBucket_leg held walks paid goes room
    have next := exec_of_effect (i := .sweepVisit) (sweepVisit_visits ⟨e, slot, leg, held, walks⟩ fits turn)
    generalize visitBucket s.gate = v at after next
    refine ⟨_, _, next, after, ?_⟩
    have counts := step_remaining (leg := { leg with cells := cells }) walks goes
    have stepped : Leg.step { leg with cells := cells }
        = { leg with cells := cells, remaining := (Leg.step { leg with cells := cells }).remaining } := by
      unfold Leg.step
      rw [if_pos walks]
    refine ⟨?_, ?_, counts, fun z => ?_⟩ <;> rw [stepped]
    · exact walks
    · exact grown z
  case move =>
    refine ⟨_, _, materialOf_held (g.event e) leg.sheet, (moveCell_full held full).trans ?_⟩
    rw [Leg.moved, if_congr firstLap_iff rfl rfl]
    rfl
  case lapFlush =>
    rw [flushLapEnd_of_ended held (lapEnded_iff.mpr ⟨walks, zero⟩)]
    exact moveCells_flushed held
  case endLap =>
    have ended := lapEnded_iff.mpr ⟨walks, zero⟩
    refine ⟨endLap_frame held ended, fun left => ?_, fun last => ?_, fun last first f slot apart => ?_,
      fun last later f slot apart => ?_⟩
    · rw [endLap_waits held ended left]
      exact ⟨endedGate_leg, fun f slot apart => endedGate_leg_other apart⟩
    · by_cases first : leg.lap = 1
      · rw [endLap_last held ended last first, mapLegs_leg, endedGate_leg]
        rfl
      · rw [endLap_alone held ended last first, setLeg_leg_same]
        rfl
    · rw [endLap_last held ended last first, mapLegs_leg, endedGate_leg_other apart]
    · rw [endLap_alone held ended last later, setLeg_leg_other (not_and_or.mp fun same => apart (Prod.ext same.1 same.2)),
        endedGate_leg_other apart]
  case drop =>
    have last : LastFirstLap g r.1 r.2 ↔ (leg.walking = true ∧ leg.lap = 1 ∧ ¬ FirstLapLeft g r) :=
      ⟨fun ⟨found, there, rest⟩ => by cases held.symm.trans there; exact rest, fun rest => ⟨leg, held, rest⟩⟩
    refine ⟨dropLeg_roster_frame r g, (dropLeg_leg ..).trans (if_pos ⟨rfl, rfl⟩), fun isLast f slot apart => ?_,
      fun notLast f slot apart => ?_⟩
    · rw [dropLeg_leg, if_neg fun same => apart (Prod.ext same.1 same.2), if_pos (lastFirstLap_iff.mpr (last.mpr isLast)),
        resume_eq_resumed]
    · rw [dropLeg_leg, if_neg fun same => apart (Prod.ext same.1 same.2),
        if_neg fun isLast => notLast (last.mp (lastFirstLap_iff.mp isLast))]
  case order =>
    have step : Leg.step = fun leg : Leg =>
        if leg.walking = true then { leg with remaining := Fin.ofNat 8193 (leg.remaining.val - 1) } else leg := rfl
    have cursor := (lapFlushed_walked g).cursor
    intro flushed placed stepped moved
    have movedEq : moved = lapFlushedGate (mapLegs Leg.step (bucketPlaced (bucketRecords g.walker.cursor g) (flushedGate g))) := by
      rw [step]
      unfold lapFlushedGate bucketPlaced placeRecord flushedGate
      rfl
    rw [visitBucket_eq, advanced, cursor, ← movedEq]
    clear_value moved
    unfold lapsEnded nextBucket
    rfl

end Sys2Proof.Proofs

/-! PROOF. A record change (R86, R90, R117, R141): what its counts, its purges and the fresh rule each do, and the statement
RecordChangeMovesCountsAndPurges. -/

namespace Sys2Proof.Machine

open Sys2Proof.Safety Sys2Proof.Claims

set_option Elab.async false

/-! ## Folds over the events -/

theorem allEvents_nodup : allEvents.Nodup := by decide

/-- A fold over the events does for event e what its step does, between the steps of the others. -/
theorem foldl_allEvents_at (e : EventIndex) {f : EventIndex → Gate → Gate} {R : Gate → Gate → Prop} (refl : ∀ g, R g g)
    (trans : ∀ g h k, R g h → R h k → R g k) (other : ∀ x, x ≠ e → ∀ acc, R acc (f x acc)) (g : Gate) :
    ∃ m, R g m ∧ R (f e m) (allEvents.foldl (fun acc x => f x acc) g) := by
  have fold (items : List EventIndex) (not : e ∉ items) (k : Gate) : R k (items.foldl (fun acc x => f x acc) k) :=
    List.foldlRecOn (motive := R k) items _ (refl k)
      (fun acc reached x listed => trans _ _ _ reached (other x (fun same => not (same ▸ listed)) acc))
  obtain ⟨before, after, all⟩ := List.append_of_mem (mem_allEvents e)
  have once := allEvents_nodup
  rw [all] at once
  obtain ⟨-, tail, apart⟩ := List.nodup_append.mp once
  refine ⟨before.foldl (fun acc x => f x acc) g, fold before (fun listed => apart e listed e (.head _) rfl) g, ?_⟩
  rw [all, List.foldl_append, List.foldl_cons]
  exact fold after (List.nodup_cons.mp tail).1 _

/-! ## One count (R86, R90) -/

theorem shiftCount_falls {c : ZoneCount} (above : 0 < c.val) : ∃ d, shiftCount false c = some d ∧ d.val + 1 = c.val := by
  unfold shiftCount
  rw [if_neg Bool.false_ne_true, if_neg (by omega)]
  exact ⟨_, rfl, by dsimp only; omega⟩

theorem shiftCount_rises {c : ZoneCount} (below : c.val < 32768) : ∃ d, shiftCount true c = some d ∧ d.val = c.val + 1 := by
  unfold shiftCount
  rw [if_pos rfl, dif_pos (by omega)]
  exact ⟨_, rfl, rfl⟩

/-- What the move of counts of event e changes. -/
structure Counts (e : EventIndex) (g h : Gate) : Prop where
  gate : h = { g with
    freeDraws := h.freeDraws, events := h.events, upkeep := { g.upkeep with shadow := h.upkeep.shadow } }
  others : ∀ f, f ≠ e → h.event f = g.event f
  record : h.event e = { g.event e with counts := (h.event e).counts }

theorem Counts.refl (e : EventIndex) (g : Gate) : Counts e g g :=
  ⟨rfl, fun _ _ => rfl, rfl⟩

theorem Counts.trans {e : EventIndex} {g h k : Gate} (p : Counts e g h) (q : Counts e h k) : Counts e g k :=
  ⟨q.gate.trans (by rw [p.gate]), fun f other => (q.others f other).trans (p.others f other),
    q.record.trans (by rw [p.record])⟩

theorem shiftLive_counts (e : EventIndex) (z : ZoneIndex) (up : Bool) (g : Gate) : Counts e g (shiftLive e z up g) := by
  unfold shiftLive
  split
  · exact ⟨rfl, fun f other => modEvent_event_other other .., by rw [modEvent_event_same]⟩
  · exact ⟨rfl, fun f other => modEvent_event_other other .., by dsimp only; rw [modEvent_event_same]; rfl⟩

theorem shiftShadow_counts (e : EventIndex) (z : ZoneIndex) (up : Bool) (g : Gate) : Counts e g (shiftShadow z up g) := by
  unfold shiftShadow
  split <;> exact ⟨rfl, fun _ _ => rfl, rfl⟩

theorem moveCount_counts (e : EventIndex) (b : Nat) (z : ZoneIndex) (up : Bool) (g : Gate) :
    Counts e g (moveCount e b z up g) := by
  unfold moveCount
  dsimp only
  split
  · exact (shiftLive_counts ..).trans (shiftShadow_counts ..)
  · exact shiftLive_counts ..

theorem moveCounts_counts (b : Nat) (before after : Option Holder) (e : EventIndex) (g : Gate) :
    Counts e g (moveCounts b before after e g) :=
  moveCounts_keeps (P := fun h => Counts e g h) (fun _ _ _ moved => moved.trans (moveCount_counts ..)) (.refl e g)

theorem shiftLive_upkeep (e : EventIndex) (z : ZoneIndex) (up : Bool) (g : Gate) : (shiftLive e z up g).upkeep = g.upkeep := by
  unfold shiftLive
  split <;> rfl

theorem counts_set (counts : Vector ZoneCount 4) (z : ZoneIndex) (d : ZoneCount) (y : ZoneIndex) :
    (counts.set z d)[y] = if y = z then d else counts[y] := by
  by_cases same : y = z
  · subst same
    rw [if_pos rfl]
    exact Vector.getElem_set_self ..
  · rw [if_neg same]
    exact Vector.getElem_set_ne z.isLt y.isLt fun there => same (Fin.ext there.symm)

section Shifts

variable {e : EventIndex} {z : ZoneIndex} {g : Gate}

/-- One of a zone, at zone y. -/
def atZone (z y : ZoneIndex) : Nat :=
  if y = z then 1 else 0

theorem shiftLive_falls (above : 0 < ((g.event e).counts[z]).val) (y : ZoneIndex) :
    (((shiftLive e z false g).event e).counts[y]).val + atZone z y = ((g.event e).counts[y]).val := by
  obtain ⟨d, shifted, value⟩ := shiftCount_falls above
  unfold shiftLive atZone
  rw [shifted]
  dsimp only
  rw [modEvent_event_same, counts_set]
  split
  · next same => rw [same, value]
  · rfl

theorem shiftLive_rises (below : ((g.event e).counts[z]).val < 32768) (y : ZoneIndex) :
    (((shiftLive e z true g).event e).counts[y]).val = ((g.event e).counts[y]).val + atZone z y := by
  obtain ⟨d, shifted, value⟩ := shiftCount_rises below
  unfold shiftLive atZone
  rw [shifted]
  dsimp only
  rw [modEvent_event_same, counts_set]
  split
  · next same => rw [same, value]
  · rfl

theorem shiftShadow_falls (above : 0 < (g.upkeep.shadow[z]).val) (y : ZoneIndex) :
    ((shiftShadow z false g).upkeep.shadow[y]).val + atZone z y = (g.upkeep.shadow[y]).val := by
  obtain ⟨d, shifted, value⟩ := shiftCount_falls above
  unfold shiftShadow atZone
  rw [shifted]
  dsimp only
  rw [counts_set]
  split
  · next same => rw [same, value]
  · rfl

theorem shiftShadow_rises (below : (g.upkeep.shadow[z]).val < 32768) (y : ZoneIndex) :
    ((shiftShadow z true g).upkeep.shadow[y]).val = (g.upkeep.shadow[y]).val + atZone z y := by
  obtain ⟨d, shifted, value⟩ := shiftCount_rises below
  unfold shiftShadow atZone
  rw [shifted]
  dsimp only
  rw [counts_set]
  split
  · next same => rw [same, value]
  · rfl

/-- R86: the live counts of an event, as its own moves leave them. -/
theorem moveCount_live (e : EventIndex) (b : Nat) (z : ZoneIndex) (up : Bool) (g : Gate) :
    ((moveCount e b z up g).event e).counts = ((shiftLive e z up g).event e).counts := by
  unfold moveCount
  dsimp only
  split
  · rw [shiftShadow_event]
  · rfl

theorem shadows_congr {h : Gate} (tasks : h.upkeep.tasks = g.upkeep.tasks) (cursor : h.upkeep.cursor = g.upkeep.cursor)
    (e : EventIndex) (b : Nat) : h.shadows e b = g.shadows e b := by
  unfold Gate.shadows
  rw [tasks, cursor]

theorem Counts.shadows {h : Gate} {f : EventIndex} (p : Counts f g h) (e : EventIndex) (b : Nat) :
    h.shadows e b = g.shadows e b :=
  shadows_congr (congrArg (fun k : Gate => k.upkeep.tasks) p.gate :) (congrArg (fun k : Gate => k.upkeep.cursor) p.gate :) e b

theorem moveCount_shadowed {b : Nat} (shadows : g.shadows e b = true) (z : ZoneIndex) (up : Bool) :
    (moveCount e b z up g).upkeep.shadow = (shiftShadow z up (shiftLive e z up g)).upkeep.shadow :=
  congrArg (fun k : Gate => k.upkeep.shadow) (if_pos shadows)

theorem moveCount_unshadowed {b : Nat} (out : ¬ g.shadows e b = true) (z : ZoneIndex) (up : Bool) :
    (moveCount e b z up g).upkeep = g.upkeep := by
  unfold moveCount
  dsimp only
  rw [if_neg out, shiftLive_upkeep]

/-- R90, R92: a bucket that the recount of an event has visited. -/
theorem shadows_iff {key : Nat} : g.shadows e (bucketOfKey key) = true ↔ Shadowed g e key := by
  unfold Gate.shadows Shadowed bucketOfKey
  rw [Bool.and_eq_true, decide_eq_true_eq]
  refine and_congr_right fun _ => ?_
  cases g.upkeep.tasks with
  | nil => simp
  | cons task rest => cases task <;> simp

/-- R87: one event at most is being recounted. -/
theorem not_shadows_of_other {x : EventIndex} {b : Nat} (shadows : g.shadows e b = true) (other : x ≠ e) :
    ¬ g.shadows x b = true := by
  unfold Gate.shadows at *
  rw [Bool.and_eq_true] at *
  obtain ⟨-, ours⟩ := shadows
  rintro ⟨-, theirs⟩
  cases tasks : g.upkeep.tasks with
  | nil => rw [tasks] at ours; cases ours
  | cons task rest =>
    rw [tasks] at ours theirs
    cases task with
    | retire y carried => simp_all
    | recount y => simp_all
    | ageScan => cases ours

end Shifts

/-! ## The counts of a change (R86) -/

section MoveCounts

variable {e : EventIndex} {b : Nat} {before after : Option Holder} {g : Gate}

theorem eligibleOn_none (g : Gate) (e : EventIndex) (z : ZoneIndex) : eligibleOn g e z none = 0 := rfl

theorem eligibleOn_eligible {r : Holder} (is : eligible r e (g.event e) = true) (z : ZoneIndex) :
    eligibleOn g e z (some r) = atZone r.zone z := by
  simp [eligibleOn, is, atZone, eq_comm]

theorem eligibleOn_not {r : Holder} (is : ¬ eligible r e (g.event e) = true) (z : ZoneIndex) : eligibleOn g e z (some r) = 0 := by
  simp [eligibleOn, is]

/-- R86: a count of a kind that falls and rises with the moves of event e's counts: it falls where the record was eligible, and
rises where it now is. -/
theorem moveCounts_reads {P : Gate → Prop} {C : Gate → ZoneIndex → Nat}
    (falls : ∀ y k, P k → 0 < C k y →
      P (moveCount e b y false k) ∧ ∀ z, C (moveCount e b y false k) z + atZone y z = C k z)
    (rises : ∀ y k, P k → C k y < 32768 → ∀ z, C (moveCount e b y true k) z = C k z + atZone y z) (held : P g)
    (above : ∀ r, before = some r → eligible r e (g.event e) = true → 0 < C g r.zone)
    (below : ∀ r, after = some r → eligible r e (g.event e) = true → C g r.zone < 32768) (z : ZoneIndex) :
    C (moveCounts b before after e g) z + eligibleOn g e z before = C g z + eligibleOn g e z after := by
  have up {r : Holder} {k : Gate} (there : after = some r) (is : eligible r e (g.event e) = true) (heldK : P k)
      (few : C k r.zone ≤ C g r.zone) : C (moveCount e b r.zone true k) z = C k z + atZone r.zone z :=
    rises r.zone k heldK (Nat.lt_of_le_of_lt few (below r there is)) z
  unfold moveCounts
  dsimp only
  cases before with
  | none =>
    cases after with
    | none => rfl
    | some r =>
      rw [if_neg (by simp)]
      by_cases is : eligible r e (g.event e) = true
      · rw [eligibleOn_eligible is, eligibleOn_none]
        dsimp only
        rw [show eligibleOpt (some r) e (g.event e) = true from is, if_pos rfl]
        exact up rfl is held (Nat.le_refl _)
      · rw [eligibleOn_not is, eligibleOn_none]
        dsimp only
        rw [if_neg (show ¬ eligibleOpt (some r) e (g.event e) = true from is)]
  | some h =>
    by_cases was : eligible h e (g.event e) = true
    · obtain ⟨heldDown, down⟩ := falls h.zone g held (above h rfl was)
      have downZ := down z
      have wasOpt : eligibleOpt (some h) e (g.event e) = true := was
      rw [eligibleOn_eligible was]
      cases after with
      | none =>
        rw [if_neg (by simp), eligibleOn_none]
        dsimp only
        rw [if_pos wasOpt]
        exact downZ
      | some r =>
        by_cases is : eligible r e (g.event e) = true
        · have isOpt : eligibleOpt (some r) e (g.event e) = true := is
          rw [eligibleOn_eligible is]
          split
          · next same =>
            rw [Option.map_some, Option.map_some, Option.some.injEq] at same
            rw [same.2]
          · rw [up rfl is heldDown (by have := down r.zone; omega)]
            omega
        · have isOpt : ¬ eligibleOpt (some r) e (g.event e) = true := is
          rw [eligibleOn_not is, if_neg (by rw [wasOpt]; exact fun same => isOpt same.1.symm)]
          dsimp only
          rw [if_pos wasOpt, if_neg isOpt]
          exact downZ
    · have wasOpt : ¬ eligibleOpt (some h) e (g.event e) = true := was
      rw [eligibleOn_not was]
      cases after with
      | none =>
        rw [if_neg (by simp), eligibleOn_none]
        dsimp only
        rw [if_neg wasOpt]
      | some r =>
        by_cases is : eligible r e (g.event e) = true
        · have isOpt : eligibleOpt (some r) e (g.event e) = true := is
          rw [eligibleOn_eligible is, if_neg (by rw [isOpt]; exact fun same => wasOpt same.1)]
          dsimp only
          rw [if_neg wasOpt, if_pos isOpt]
          exact up rfl is held (Nat.le_refl _)
        · have isOpt : ¬ eligibleOpt (some r) e (g.event e) = true := is
          rw [eligibleOn_not is]
          split
          · rfl
          · rfl

/-- R86: the live counts of an event after its own moves. -/
theorem moveCounts_live
    (above : ∀ r, before = some r → eligible r e (g.event e) = true → 0 < ((g.event e).counts[r.zone]).val)
    (below : ∀ r, after = some r → eligible r e (g.event e) = true → ((g.event e).counts[r.zone]).val < 32768)
    (z : ZoneIndex) : (((moveCounts b before after e g).event e).counts[z]).val + eligibleOn g e z before
      = ((g.event e).counts[z]).val + eligibleOn g e z after :=
  moveCounts_reads (P := fun _ => True) (C := fun k z => ((k.event e).counts[z]).val)
    (fun y k _ above => ⟨trivial, fun z => by rw [moveCount_live]; exact shiftLive_falls above z⟩)
    (fun y k _ below z => by rw [moveCount_live]; exact shiftLive_rises below z) trivial above below z

/-- R90: the shadow counts after the moves of the event that is being recounted. -/
theorem moveCounts_shadow (shadows : g.shadows e b = true)
    (above : ∀ r, before = some r → eligible r e (g.event e) = true → 0 < (g.upkeep.shadow[r.zone]).val)
    (below : ∀ r, after = some r → eligible r e (g.event e) = true → (g.upkeep.shadow[r.zone]).val < 32768)
    (z : ZoneIndex) : ((moveCounts b before after e g).upkeep.shadow[z]).val + eligibleOn g e z before
      = (g.upkeep.shadow[z]).val + eligibleOn g e z after :=
  moveCounts_reads (P := fun k => k.shadows e b = true) (C := fun k z => (k.upkeep.shadow[z]).val)
    (fun y k shadowsK above => ⟨((moveCount_counts e b y false k).shadows e b).trans shadowsK, fun z => by
      rw [moveCount_shadowed shadowsK, shiftShadow_falls (by rwa [shiftLive_upkeep]), shiftLive_upkeep]⟩)
    (fun y k shadowsK below z => by
      rw [moveCount_shadowed shadowsK, shiftShadow_rises (by rwa [shiftLive_upkeep]), shiftLive_upkeep]) shadows above below z

theorem moveCounts_unshadowed (out : ¬ g.shadows e b = true) : (moveCounts b before after e g).upkeep = g.upkeep :=
  moveCounts_keeps (P := fun h => h.upkeep = g.upkeep)
    (fun z up h same => (moveCount_unshadowed (by
      rw [shadows_congr (congrArg Upkeep.tasks same) (congrArg Upkeep.cursor same)]
      exact out) z up).trans same) rfl

end MoveCounts

/-! ## The part between the three stages of a change -/

def countsMoved (key : Nat) (before after : Option Holder) (g : Gate) : Gate :=
  allEvents.foldl (fun acc e => moveCounts (bucketOfKey key) before after e acc) g

def purgedGate (before after : Option Holder) (g : Gate) : Gate :=
  allEvents.foldl (fun acc e => purgeLost before after e acc) g

def handedGate (before after : Option Holder) (g : Gate) : Gate :=
  allEvents.foldl (fun acc e => handFresh before after e acc) g

theorem changeRecord_eq (key : Nat) (before after : Option Holder) (g : Gate) : changeRecord key before after g
    = writeHolder key after (handedGate before after (purgedGate before after (countsMoved key before after g))) := rfl

/-! ## The counts of all events -/

/-- What the counts of a change leave. -/
structure AllCounts (g h : Gate) : Prop where
  gate : h = { g with
    freeDraws := h.freeDraws, events := h.events, upkeep := { g.upkeep with shadow := h.upkeep.shadow } }
  record : ∀ e, h.event e = { g.event e with counts := (h.event e).counts }

theorem Counts.all {e : EventIndex} {g h : Gate} (p : Counts e g h) : AllCounts g h :=
  ⟨p.gate, fun f => by
    by_cases same : f = e
    · rw [same]; exact p.record
    · rw [p.others f same]⟩

theorem AllCounts.refl (g : Gate) : AllCounts g g :=
  ⟨rfl, fun _ => rfl⟩

theorem AllCounts.trans {g h k : Gate} (p : AllCounts g h) (q : AllCounts h k) : AllCounts g k :=
  ⟨q.gate.trans (by rw [p.gate]), fun e => (q.record e).trans (by rw [p.record e])⟩

section AllCountsOfChange

variable {key : Nat} {before after : Option Holder} {g : Gate}

theorem countsMoved_counts : AllCounts g (countsMoved key before after g) :=
  List.foldlRecOn (motive := fun k : Gate => AllCounts g k) allEvents _ (.refl g)
    (fun _ reached _ _ => reached.trans (moveCounts_counts ..).all)

/-- The moves of event e, made when its record is as it was. -/
theorem countsMoved_event (e : EventIndex) : ∃ m : Gate, m.event e = g.event e ∧
    ((countsMoved key before after g).event e) = (moveCounts (bucketOfKey key) before after e m).event e :=
  foldl_allEvents_at e (R := fun g h => h.event e = g.event e) (fun _ => rfl) (fun _ _ _ p q => q.trans p)
    (fun _ other _ => (moveCounts_counts ..).others e other.symm) g

theorem eligibleOn_congr {h : Gate} {e : EventIndex} (same : h.event e = g.event e) (z : ZoneIndex) (record : Option Holder) :
    eligibleOn h e z record = eligibleOn g e z record := by
  unfold eligibleOn
  rw [same]

theorem countsMoved_live {e : EventIndex}
    (above : ∀ r, before = some r → eligible r e (g.event e) = true → 0 < ((g.event e).counts[r.zone]).val)
    (below : ∀ r, after = some r → eligible r e (g.event e) = true → ((g.event e).counts[r.zone]).val < 32768)
    (z : ZoneIndex) : (((countsMoved key before after g).event e).counts[z]).val + eligibleOn g e z before
      = ((g.event e).counts[z]).val + eligibleOn g e z after := by
  obtain ⟨m, same, counted⟩ := countsMoved_event (key := key) (before := before) (after := after) (g := g) e
  rw [counted, ← eligibleOn_congr same, ← eligibleOn_congr same, ← same]
  exact moveCounts_live (by rwa [same]) (by rwa [same]) z

theorem countsMoved_shadow {e : EventIndex} (shadowed : Shadowed g e key)
    (above : ∀ r, before = some r → eligible r e (g.event e) = true → 0 < (g.upkeep.shadow[r.zone]).val)
    (below : ∀ r, after = some r → eligible r e (g.event e) = true → (g.upkeep.shadow[r.zone]).val < 32768)
    (z : ZoneIndex) : ((countsMoved key before after g).upkeep.shadow[z]).val + eligibleOn g e z before
      = (g.upkeep.shadow[z]).val + eligibleOn g e z after := by
  have shadows := shadows_iff.mpr shadowed
  obtain ⟨m, reached, counted⟩ := foldl_allEvents_at e
    (f := fun e acc => moveCounts (bucketOfKey key) before after e acc)
    (R := fun g h => h.event e = g.event e ∧ (g.shadows e (bucketOfKey key) = true →
      h.shadows e (bucketOfKey key) = true ∧ h.upkeep.shadow = g.upkeep.shadow))
    (fun _ => ⟨rfl, fun held => ⟨held, rfl⟩⟩)
    (fun _ _ _ p q => ⟨q.1.trans p.1, fun held => ⟨(q.2 (p.2 held).1).1, (q.2 (p.2 held).1).2.trans (p.2 held).2⟩⟩)
    (fun x other acc => ⟨(moveCounts_counts ..).others e other.symm, fun held =>
      ⟨((moveCounts_counts ..).shadows e _).trans held,
        congrArg Upkeep.shadow (moveCounts_unshadowed (not_shadows_of_other held other))⟩⟩) g
  obtain ⟨same, shadow⟩ := reached
  obtain ⟨shadowsM, shadowM⟩ := shadow shadows
  have shadowsAfter : (moveCounts (bucketOfKey key) before after e m).shadows e (bucketOfKey key) = true :=
    ((moveCounts_counts ..).shadows e _).trans shadowsM
  have final : (countsMoved key before after g).upkeep.shadow = _ := (counted.2 shadowsAfter).2
  rw [final, ← eligibleOn_congr same, ← eligibleOn_congr same, ← shadowM]
  exact moveCounts_shadow shadowsM (by rwa [same, shadowM]) (by rwa [same, shadowM]) z

theorem countsMoved_unshadowed (out : ∀ e, ¬ Shadowed g e key) : (countsMoved key before after g).upkeep = g.upkeep :=
  List.foldlRecOn (motive := fun k : Gate => k.upkeep = g.upkeep) allEvents _ rfl
    (fun k same e _ => (moveCounts_unshadowed (by
      rw [shadows_congr (congrArg Upkeep.tasks same) (congrArg Upkeep.cursor same)]
      exact fun shadows => out e (shadows_iff.mp shadows))).trans same)

end AllCountsOfChange

/-! ## The purges of a change (R86, R130, R143) -/

/-- R130: a leg that has lost decoders from its cells, and nothing else. -/
def Thins (f : Leg → Leg) : Prop :=
  ∀ leg : Leg, f leg = { leg with cells := (f leg).cells } ∧ ∀ z : ZoneIndex, (f leg).cells[z] ⊆ leg.cells[z]

theorem Thins.id : Thins id :=
  fun _ => ⟨rfl, fun _ => List.Subset.refl _⟩

theorem Thins.comp {f k : Leg → Leg} (p : Thins f) (q : Thins k) : Thins (k ∘ f) :=
  fun leg => ⟨(q (f leg)).1.trans (congrArg (fun l : Leg => { l with cells := (k (f leg)).cells }) (p leg).1),
    fun z => List.Subset.trans ((q (f leg)).2 z) ((p leg).2 z)⟩

/-- R86: the purges of a change: entries leave the fresh queues and decoders the cells. -/
structure Purges (g h : Gate) : Prop where
  gate : h = { g with zones := h.zones, walker := { g.walker with roster := h.walker.roster } }
  fresh : ∀ z, ((h.zone z).fresh) ⊆ (g.zone z).fresh
  legs : ∀ e slot, ∃ f, Thins f ∧ h.leg e slot = (g.leg e slot).map f

theorem Purges.refl (g : Gate) : Purges g g :=
  ⟨rfl, fun _ => List.Subset.refl _, fun _ _ => ⟨_, .id, by rw [Option.map_id, id]⟩⟩

theorem Purges.trans {g h k : Gate} (p : Purges g h) (q : Purges h k) : Purges g k :=
  ⟨q.gate.trans (by rw [p.gate]), fun z => List.Subset.trans (q.fresh z) (p.fresh z), fun e slot => by
    obtain ⟨f, thinsF, legsF⟩ := p.legs e slot
    obtain ⟨f', thinsF', legsF'⟩ := q.legs e slot
    exact ⟨_, thinsF.comp thinsF', by rw [legsF', legsF, Option.map_map]⟩⟩

/-- R130: a leg without a decoder in its cell of one zone. -/
def Leg.without (d : Decoder) (z : ZoneIndex) (leg : Leg) : Leg :=
  { leg with cells := leg.cells.set z (takeOut d leg.cells[z]) }

theorem Leg.without_cells (d : Decoder) (z y : ZoneIndex) (leg : Leg) :
    (leg.without d z).cells[y] = if y = z then takeOut d leg.cells[z] else leg.cells[y] := by
  by_cases same : y = z
  · subst same
    rw [if_pos rfl]
    exact Vector.getElem_set_self ..
  · rw [if_neg same]
    exact Vector.getElem_set_ne z.isLt y.isLt fun there => same (Fin.ext there.symm)

theorem Leg.without_thins (d : Decoder) (z : ZoneIndex) : Thins (Leg.without d z) := by
  refine fun leg => ⟨rfl, fun y => ?_⟩
  rw [Leg.without_cells]
  split
  · next same => rw [same]; exact List.filter_subset_self _
  · exact List.Subset.refl _

theorem takeOutOfEvent_leg (d : Decoder) (e f : EventIndex) (z : ZoneIndex) (slot : SheetSlot) (g : Gate) :
    (takeOutOfEvent d e z g).leg f slot = if f = e then (g.leg f slot).map (Leg.without d z) else g.leg f slot := by
  unfold takeOutOfEvent
  dsimp only
  by_cases same : f = e
  · subst same
    rw [if_pos rfl]
    cases slot with
    | current => rw [setLeg_leg_other (.inr (by decide)), setLeg_leg_same]; rfl
    | pending => rw [setLeg_leg_same]; rfl
  · rw [if_neg same, setLeg_leg_other (.inl same), setLeg_leg_other (.inl same)]

/-- R86: the change ends an event's grant-eligibility on a record's zone. -/
def Loses (h : Holder) (after : Option Holder) (e : EventIndex) (ev : Event) : Prop :=
  grantEligible h e ev = true ∧ ¬ after.any (fun r => grantEligible r e ev && decide (r.zone = h.zone)) = true

theorem grantOn_eq_any (record : Option Holder) (e : EventIndex) (ev : Event) (z : ZoneIndex) :
    grantOn record e ev z = record.any (fun r => grantEligible r e ev && decide (r.zone = z)) := by
  cases record <;> rfl

theorem loses_iff {h : Holder} {after : Option Holder} {e : EventIndex} {ev : Event} :
    (grantOn (some h) e ev h.zone && !grantOn after e ev h.zone) = true ↔ Loses h after e ev := by
  rw [grantOn_eq_any after, Bool.and_eq_true, Bool.not_eq_true', ← Bool.not_eq_true]
  refine and_congr_left fun _ => ?_
  simp [grantOn]

/-- R143: a listed entry for a decoder and an event. -/
def FreshEntry.lists (d : Decoder) (e : EventIndex) (entry : FreshEntry) : Bool :=
  entry.form = .listed && entry.decoder = d && entry.event = e

section Purging

variable {h : Holder} {before after : Option Holder} {e : EventIndex} {g : Gate}

theorem purgeLost_loses (loses : Loses h after e (g.event e)) : purgeLost (some h) after e g
    = takeOutOfEvent h.decoder e h.zone (purgeFresh (FreshEntry.lists h.decoder e) h.zone g) :=
  if_pos (loses_iff.mpr loses)

theorem purgeLost_keeps (keeps : ¬ Loses h after e (g.event e)) : purgeLost (some h) after e g = g :=
  if_neg fun lost => keeps (loses_iff.mp lost)

theorem purgeFresh_zone (p : FreshEntry → Bool) (z y : ZoneIndex) (g : Gate) : (purgeFresh p z g).zone y
    = if y = z then { g.zone y with fresh := (g.zone y).fresh.filter (fun entry => !p entry) } else g.zone y := by
  unfold purgeFresh
  rw [modZone_zone]
  split
  · next same => rw [same]
  · rfl

theorem purgeLost_zone (loses : Loses h after e (g.event e)) (z : ZoneIndex) : (purgeLost (some h) after e g).zone z
    = if z = h.zone then { g.zone z with fresh := (g.zone z).fresh.filter (fun entry => !entry.lists h.decoder e) }
      else g.zone z := by
  rw [purgeLost_loses loses]
  exact purgeFresh_zone ..

theorem purgeLost_leg (loses : Loses h after e (g.event e)) (f : EventIndex) (slot : SheetSlot) :
    (purgeLost (some h) after e g).leg f slot
      = if f = e then (g.leg f slot).map (Leg.without h.decoder h.zone) else g.leg f slot := by
  rw [purgeLost_loses loses, takeOutOfEvent_leg]
  rfl

theorem purgeLost_purges : Purges g (purgeLost before after e g) := by
  cases before with
  | none => exact .refl g
  | some h =>
    by_cases loses : Loses h after e (g.event e)
    · refine ⟨?_, fun z => ?_, fun f slot => ?_⟩
      · rw [purgeLost_loses loses]
        rfl
      · rw [purgeLost_zone loses]
        split
        · exact List.filter_subset_self _
        · exact List.Subset.refl _
      · rw [purgeLost_leg loses]
        split
        · exact ⟨_, Leg.without_thins _ _, rfl⟩
        · exact ⟨_, .id, by rw [Option.map_id, id]⟩
    · rw [purgeLost_keeps loses]
      exact .refl g

theorem purgedGate_purges : Purges g (purgedGate before after g) :=
  List.foldlRecOn (motive := fun k : Gate => Purges g k) allEvents _ (.refl g)
    (fun _ reached _ _ => reached.trans purgeLost_purges)

theorem Purges.event {g h : Gate} (p : Purges g h) (e : EventIndex) : h.event e = g.event e := by
  rw [p.gate]
  rfl

/-- R86, R130, R143: where grant-eligibility ends, the listed entries and the places in cells are gone. -/
theorem purgedGate_loses (loses : Loses h after e (g.event e)) :
    (∀ entry ∈ ((purgedGate (some h) after g).zone h.zone).fresh, entry.lists h.decoder e = false) ∧
      ∀ slot leg, (purgedGate (some h) after g).leg e slot = some leg → h.decoder ∉ leg.cells[h.zone] := by
  obtain ⟨m, first, rest⟩ := foldl_allEvents_at e (f := fun e acc => purgeLost (some h) after e acc) (R := Purges) Purges.refl
    (fun _ _ _ => Purges.trans) (fun _ _ _ => purgeLost_purges) g
  have loses' : Loses h after e (m.event e) := by rwa [first.event]
  refine ⟨fun entry listed => ?_, fun slot leg held listed => ?_⟩
  · have there := rest.fresh h.zone listed
    rw [purgeLost_zone loses', if_pos rfl] at there
    simpa using (List.mem_filter.mp there).2
  · obtain ⟨f, thins, legs⟩ := rest.legs e slot
    change (purgedGate (some h) after g).leg e slot = _ at legs
    rw [legs, purgeLost_leg loses', if_pos rfl, Option.map_map] at held
    obtain ⟨was, -, rfl⟩ := Option.map_eq_some_iff.mp held
    have there := (thins _).2 h.zone listed
    rw [Leg.without_cells, if_pos rfl] at there
    simpa [takeOut] using (List.mem_filter.mp there).2

end Purging

/-! ## The fresh rule of a change (R141) -/

/-- R140, R141: entries join the fresh queues, and counters count. -/
structure Grows (g h : Gate) : Prop where
  gate : h = { g with zones := h.zones }
  fresh : ∀ z, (g.zone z).fresh <+: (h.zone z).fresh

theorem Grows.refl (g : Gate) : Grows g g :=
  ⟨rfl, fun _ => List.prefix_rfl⟩

theorem Grows.trans {g h k : Gate} (p : Grows g h) (q : Grows h k) : Grows g k :=
  ⟨q.gate.trans (by rw [p.gate]), fun z => (p.fresh z).trans (q.fresh z)⟩

/-- An entry stands in a queue, or the queue is full. -/
def StandsOrFull (g : Gate) (entry : FreshEntry) (z : ZoneIndex) : Prop :=
  entry ∈ (g.zone z).fresh ∨ 256 ≤ (g.zone z).fresh.length

theorem StandsOrFull.grows {g h : Gate} {entry : FreshEntry} {z : ZoneIndex} (stands : StandsOrFull g entry z)
    (grows : Grows g h) : StandsOrFull h entry z :=
  stands.imp (fun listed => (grows.fresh z).subset listed) (fun full => full.trans (grows.fresh z).length_le)

theorem offerFresh_fresh (entry : FreshEntry) (z y : ZoneIndex) (g : Gate) :
    ((offerFresh entry z g).zone y).fresh = if y = z then offerTo entry (g.zone y).fresh else (g.zone y).fresh := by
  rw [offerFresh_eq, modZone_zone]
  split
  · next same => rw [offerZone_fresh, same]
  · rfl

theorem offerFresh_grows (entry : FreshEntry) (z : ZoneIndex) (g : Gate) : Grows g (offerFresh entry z g) := by
  refine ⟨by rw [offerFresh_eq]; rfl, fun y => ?_⟩
  rw [offerFresh_fresh]
  split
  · exact offerTo_prefix ..
  · exact List.prefix_rfl

theorem offerFresh_stands (entry : FreshEntry) (z : ZoneIndex) (g : Gate) : StandsOrFull (offerFresh entry z g) entry z := by
  unfold StandsOrFull
  rw [offerFresh_fresh, if_pos rfl, offerTo]
  split
  · next stays => exact stays
  · exact .inl (List.mem_append_right _ (.head _))

theorem mem_offerFresh {entry offered : FreshEntry} {z y : ZoneIndex} {g : Gate}
    (listed : entry ∈ ((offerFresh offered z g).zone y).fresh) : entry ∈ (g.zone y).fresh ∨ (entry = offered ∧ y = z) := by
  rw [offerFresh_fresh] at listed
  split at listed
  · next same =>
    unfold offerTo at listed
    split at listed
    · exact .inl listed
    · rcases List.mem_append.mp listed with there | new
      · exact .inl there
      · exact .inr ⟨List.mem_singleton.mp new, same⟩
  · exact .inl listed

/-- R141: the fresh rule offers a sheet's listed entry for a record of event e. -/
def Offers (h : Holder) (e : EventIndex) (slot : SheetSlot) (g : Gate) (entry : FreshEntry) : Prop :=
  ∃ sheet, g.sheet e slot = some sheet ∧ ¬ LegAhead g e slot h.decoder ∧
    entry = { form := .listed, decoder := h.decoder, event := e, sheet := sheet.number }

theorem Grows.offers {g k : Gate} (p : Grows g k) {h : Holder} {e : EventIndex} {slot : SheetSlot} {entry : FreshEntry} :
    Offers h e slot k entry ↔ Offers h e slot g entry := by
  rw [p.gate]
  rfl

section Handing

variable {h : Holder} {before after : Option Holder} {e : EventIndex} {slot : SheetSlot} {g : Gate} {entry : FreshEntry}

theorem freshForSheet_grows : Grows g (freshForSheet h e slot g) := by
  cases held : g.sheet e slot with
  | none =>
    rw [freshForSheet_of_no_sheet held]
    exact .refl g
  | some sheet =>
    by_cases ahead : LegAhead g e slot h.decoder
    · rw [freshForSheet_of_legAhead ahead]
      exact .refl g
    · rw [freshForSheet_of_not_legAhead held ahead]
      exact offerFresh_grows ..

theorem freshForSheet_offers (offers : Offers h e slot g entry) : StandsOrFull (freshForSheet h e slot g) entry h.zone := by
  obtain ⟨sheet, held, passed, rfl⟩ := offers
  rw [freshForSheet_of_not_legAhead held passed]
  exact offerFresh_stands ..

theorem mem_freshForSheet {z : ZoneIndex} (listed : entry ∈ ((freshForSheet h e slot g).zone z).fresh) :
    entry ∈ (g.zone z).fresh ∨ (Offers h e slot g entry ∧ z = h.zone) := by
  cases held : g.sheet e slot with
  | none =>
    rw [freshForSheet_of_no_sheet held] at listed
    exact .inl listed
  | some sheet =>
    by_cases ahead : LegAhead g e slot h.decoder
    · rw [freshForSheet_of_legAhead ahead] at listed
      exact .inl listed
    · rw [freshForSheet_of_not_legAhead held ahead] at listed
      exact (mem_offerFresh listed).imp id fun new => ⟨⟨sheet, held, ahead, new.1⟩, new.2⟩

theorem freshRule_grows : Grows g (freshRule h e g) := by
  unfold freshRule
  split
  · exact freshForSheet_grows.trans freshForSheet_grows
  · exact .refl g

theorem freshRule_offers (listed : (g.event e).phase.mode = .listedGrant) (offers : Offers h e slot g entry) :
    StandsOrFull (freshRule h e g) entry h.zone := by
  rw [freshRule_of_listed listed]
  cases slot with
  | current => exact (freshForSheet_offers offers).grows freshForSheet_grows
  | pending => exact freshForSheet_offers ((freshForSheet_grows (h := h) (e := e) (slot := .current)).offers.mpr offers)

theorem mem_freshRule {z : ZoneIndex} (listed : entry ∈ ((freshRule h e g).zone z).fresh) :
    entry ∈ (g.zone z).fresh ∨
      (z = h.zone ∧ (g.event e).phase.mode = .listedGrant ∧ ∃ slot, Offers h e slot g entry) := by
  by_cases mode : (g.event e).phase.mode = .listedGrant
  · rw [freshRule_of_listed mode] at listed
    rcases mem_freshForSheet listed with there | ⟨offers, zone⟩
    · exact (mem_freshForSheet there).imp id fun new => ⟨new.2, mode, .current, new.1⟩
    · exact .inr ⟨zone, mode, .pending, freshForSheet_grows.offers.mp offers⟩
  · rw [freshRule_of_not_listed mode] at listed
    exact .inl listed

/-- R86, R117: the record of a change becomes grant-eligible for event e. -/
theorem gains_iff : (grantOn (some h) e (g.event e) h.zone && !grantOn before e (g.event e) h.zone) = true ↔
    NewlyGranted g before h e := by
  rw [grantOn_eq_any before, Bool.and_eq_true, Bool.not_eq_true', ← Bool.not_eq_true]
  unfold NewlyGranted
  refine and_congr (by simp [grantOn]) (not_congr ?_)
  cases before with
  | none => simp
  | some r => simp

theorem handFresh_gains (gains : NewlyGranted g before h e) : handFresh before (some h) e g = freshRule h e g :=
  if_pos (gains_iff.mpr gains)

theorem handFresh_keeps (keeps : ¬ NewlyGranted g before h e) : handFresh before (some h) e g = g :=
  if_neg fun gained => keeps (gains_iff.mp gained)

theorem handFresh_grows : Grows g (handFresh before after e g) := by
  cases after with
  | none => exact .refl g
  | some h =>
    by_cases gains : NewlyGranted g before h e
    · rw [handFresh_gains gains]
      exact freshRule_grows
    · rw [handFresh_keeps gains]
      exact .refl g

theorem handedGate_grows : Grows g (handedGate before after g) :=
  List.foldlRecOn (motive := fun k : Gate => Grows g k) allEvents _ (.refl g) (fun _ reached _ _ => reached.trans handFresh_grows)

/-- HandsOn, of one event. -/
theorem handsOn_iff {z : ZoneIndex} : HandsOn g before h entry z ↔ z = h.zone ∧ ∃ e, NewlyGranted g before h e ∧
    (g.event e).phase.mode = .listedGrant ∧ ∃ slot, Offers h e slot g entry := by
  unfold HandsOn Offers
  simp only [Phase.mode_eq_listedGrant_iff]
  refine and_congr_right fun _ => ⟨?_, ?_⟩
  · rintro ⟨e, slot, sheet, gains, mode, held, passed, same⟩
    exact ⟨e, gains, mode, slot, sheet, held, passed, same⟩
  · rintro ⟨e, gains, mode, slot, sheet, held, passed, same⟩
    exact ⟨e, slot, sheet, gains, mode, held, passed, same⟩

theorem Grows.handsOn {g k : Gate} (p : Grows g k) {z : ZoneIndex} : HandsOn k before h entry z ↔ HandsOn g before h entry z := by
  rw [p.gate]
  rfl

theorem Grows.gains {g k : Gate} (p : Grows g k) : NewlyGranted k before h e ↔ NewlyGranted g before h e := by
  rw [p.gate]
  rfl

/-- R141: what the fresh rule hands on stands in its queue, unless that is full. -/
theorem handedGate_offers {z : ZoneIndex} (hands : HandsOn g before h entry z) :
    StandsOrFull (handedGate before (some h) g) entry z := by
  obtain ⟨rfl, e, gains, mode, slot, offers⟩ := handsOn_iff.mp hands
  obtain ⟨m, first, rest⟩ := foldl_allEvents_at e (f := fun e acc => handFresh before (some h) e acc) (R := Grows) Grows.refl
    (fun _ _ _ => Grows.trans) (fun _ _ _ => handFresh_grows) g
  have event : m.event e = g.event e := by rw [first.gate]; rfl
  have offered : StandsOrFull (handFresh before (some h) e m) entry h.zone := by
    rw [handFresh_gains (first.gains.mpr gains)]
    exact freshRule_offers (by rw [event]; exact mode) (first.offers.mpr offers)
  exact offered.grows rest

/-- R141: nothing else joins a queue. -/
theorem mem_handedGate {z : ZoneIndex} (listed : entry ∈ ((handedGate before after g).zone z).fresh) :
    entry ∈ (g.zone z).fresh ∨ ∃ r, after = some r ∧ HandsOn g before r entry z := by
  refine List.foldlRecOn (motive := fun k : Gate => Grows g k ∧ (entry ∈ (k.zone z).fresh →
    entry ∈ (g.zone z).fresh ∨ ∃ r, after = some r ∧ HandsOn g before r entry z)) allEvents _ ⟨.refl g, .inl⟩
    (fun k reached e _ => ⟨reached.1.trans handFresh_grows, fun there => ?_⟩) |>.2 listed
  obtain ⟨grows, from_⟩ := reached
  cases after with
  | none => exact from_ there
  | some h =>
    by_cases gains : NewlyGranted k before h e
    · rw [handFresh_gains gains] at there
      rcases mem_freshRule there with old | ⟨zone, mode, offers⟩
      · exact from_ old
      · exact .inr ⟨h, rfl, grows.handsOn.mp (handsOn_iff.mpr ⟨zone, e, gains, mode, offers⟩)⟩
    · rw [handFresh_keeps gains] at there
      exact from_ there

end Handing

/-! ## What the fresh rule sees -/

/-- Two parts between which the counts and the purges of a change alone lie: the fresh rule sees the same. -/
theorem handsOn_congr {g c p : Gate} (counts : AllCounts g c) (purges : Purges c p) {before : Option Holder} {r : Holder}
    {entry : FreshEntry} {z : ZoneIndex} : HandsOn p before r entry z ↔ HandsOn g before r entry z := by
  have event (e : EventIndex) : p.event e = { g.event e with counts := (c.event e).counts } :=
    (purges.event e).trans (counts.record e)
  have judged (h : Holder) (e : EventIndex) : grantEligible h e (p.event e) = grantEligible h e (g.event e) := by
    rw [event]
    rfl
  have gains (e : EventIndex) : NewlyGranted p before r e ↔ NewlyGranted g before r e := by
    unfold NewlyGranted
    simp only [judged]
  have sheet (e : EventIndex) (slot : SheetSlot) : p.sheet e slot = g.sheet e slot := by
    unfold Gate.sheet
    rw [event]
    cases slot <;> rfl
  have ahead (e : EventIndex) (slot : SheetSlot) (d : Decoder) : LegAhead p e slot d ↔ LegAhead g e slot d := by
    obtain ⟨f, thins, legs⟩ := purges.legs e slot
    have same : c.leg e slot = g.leg e slot := by rw [counts.gate]; rfl
    unfold LegAhead
    rw [legs, same]
    cases g.leg e slot with
    | none => simp
    | some leg =>
      have frame := (thins leg).1
      have walking : (f leg).walking = leg.walking := (congrArg Leg.walking frame :)
      have join : (f leg).join = leg.join := (congrArg Leg.join frame :)
      have remaining : (f leg).remaining = leg.remaining := (congrArg Leg.remaining frame :)
      simp [walking, join, remaining]
  unfold HandsOn
  simp only [gains, sheet, ahead]
  simp only [event]

end Sys2Proof.Machine

namespace Sys2Proof.Proofs

open Sys2Proof.Machine Sys2Proof.Safety Sys2Proof.Claims

set_option Elab.async false

/-- Settles O34: the counts, the purges and the fresh rule one after the other (R86, R117), and the table's entry. -/
theorem recordChangeMovesCountsAndPurges : Obligations.RecordChangeMovesCountsAndPurges := by
  unfold Obligations.RecordChangeMovesCountsAndPurges
  intro g key before after h
  have counts : AllCounts g (countsMoved key before after g) := countsMoved_counts
  have purges : Purges (countsMoved key before after g) (purgedGate before after (countsMoved key before after g)) :=
    purgedGate_purges
  have grows : Grows (purgedGate before after (countsMoved key before after g))
      (handedGate before after (purgedGate before after (countsMoved key before after g))) := handedGate_grows
  have event (e : EventIndex) : h.event e = (countsMoved key before after g).event e := by
    refine Eq.trans ?_ (purges.event e)
    show (handedGate before after (purgedGate before after (countsMoved key before after g))).event e = _
    rw [grows.gate]
    rfl
  have upkeep : h.upkeep = (countsMoved key before after g).upkeep := by
    show (handedGate before after (purgedGate before after (countsMoved key before after g))).upkeep = _
    rw [grows.gate]
    show (purgedGate before after (countsMoved key before after g)).upkeep = _
    rw [purges.gate]
  have leg (e : EventIndex) (slot : SheetSlot) :
      h.leg e slot = (purgedGate before after (countsMoved key before after g)).leg e slot := by
    show (handedGate before after (purgedGate before after (countsMoved key before after g))).leg e slot = _
    rw [grows.gate]
    rfl
  have judged (r : Holder) (e : EventIndex) :
      grantEligible r e ((countsMoved key before after g).event e) = grantEligible r e (g.event e) := by
    rw [counts.record]
    rfl
  refine ⟨changeRecord_holders .., fun e z above below => ?live, fun e z shadowed above below => ?shadow, fun out => ?still, ?rest,
    fun r entry z is hands => ?offered, fun z entry listed => ?new, fun e r was grants lost => ?purged⟩
  case live =>
    rw [event]
    exact countsMoved_live above below z
  case shadow =>
    rw [upkeep]
    exact countsMoved_shadow shadowed above below z
  case still => exact upkeep.trans (countsMoved_unshadowed out)
  case rest =>
    rw [upkeep]
    exact (congrArg Gate.upkeep counts.gate :)
  case offered =>
    subst is
    exact handedGate_offers ((handsOn_congr counts purges).mpr hands)
  case new =>
    rcases mem_handedGate listed with there | ⟨r, is, hands⟩
    · refine .inl ?_
      have zone : (countsMoved key before after g).zone z = g.zone z := by rw [counts.gate]; rfl
      rw [← zone]
      exact purges.fresh z there
    · exact .inr ⟨r, is, (handsOn_congr counts purges).mp hands⟩
  case purged =>
    have loses : Loses r after e ((countsMoved key before after g).event e) := by
      unfold Loses
      simp only [judged]
      exact ⟨grants, lost⟩
    subst was
    obtain ⟨entries, cells⟩ := purgedGate_loses loses
    refine ⟨fun entry listed named => ?_, fun slot l held => cells slot l ((leg e slot).symm.trans held)⟩
    rcases mem_handedGate listed with there | ⟨r', is, hands⟩
    · have not := entries entry there
      simp [FreshEntry.lists, named] at not
    · obtain ⟨zone, e', slot, sheet, gains, -, -, -, rfl⟩ := (handsOn_congr counts purges).mp hands
      obtain ⟨-, -, same⟩ := named
      dsimp only at same
      subst same
      subst is
      exact lost (by simp [gains.1, zone])

end Sys2Proof.Proofs

/-! PROOF. A visit of the maintenance walker (R88–R94): what each task makes of the records of a bucket, how its walk ends, and
the statements MaintenanceVisitAppliesItsTask and WalkEndFinishesItsTask. -/

namespace Sys2Proof.Machine

open Sys2Proof.Safety Sys2Proof.Claims

set_option Elab.async false

/-! ## The table after a visit -/

/-- The records of a bucket, one after the other, each made by f of the record as it was. -/
theorem foldl_table {op : Nat → Holder → Gate → Gate} {f : Holder → Option Holder}
    (writes : ∀ key h acc, Sparse.get acc.holders key = some h →
      ∀ k, Sparse.get (op key h acc).holders k = if k = key then f h else Sparse.get acc.holders k)
    (records : List (Nat × Holder)) (g : Gate) (apart : records.Pairwise (fun a c => a.1 ≠ c.1))
    (listed : ∀ entry ∈ records, Sparse.get g.holders entry.1 = some entry.2) (k : Nat) :
    Sparse.get (records.foldl (fun acc entry => op entry.1 entry.2 acc) g).holders k
      = if k ∈ records.map Prod.fst then (Sparse.get g.holders k).bind f else Sparse.get g.holders k := by
  induction records generalizing g with
  | nil => rfl
  | cons entry rest ih =>
    obtain ⟨others, restApart⟩ := List.pairwise_cons.mp apart
    have write := writes entry.1 entry.2 g (listed entry (.head _))
    rw [List.foldl_cons, ih _ restApart (fun other there => by
      rw [write, if_neg (others other there).symm]
      exact listed other (.tail _ there)), write]
    by_cases here : k = entry.1
    · subst here
      have notRest : entry.1 ∉ rest.map Prod.fst := fun there => by
        obtain ⟨other, member, same⟩ := List.mem_map.mp there
        exact others other member same.symm
      rw [if_pos rfl, if_neg notRest, if_pos (.head _), listed entry (.head _), Option.bind_some]
    · rw [if_neg here]
      exact if_congr ⟨fun there => .tail _ there, fun there => (List.mem_cons.mp there).resolve_left here⟩ rfl rfl

theorem mem_bucketRecords_keys {b : Bucket} {g : Gate} {k : Nat} :
    k ∈ (bucketRecords b g).map Prod.fst ↔ k / 4 = b.val ∧ Sparse.get g.holders k ≠ none := by
  constructor
  · intro listed
    obtain ⟨entry, member, rfl⟩ := List.mem_map.mp listed
    refine ⟨?_, by rw [get_of_mem_bucketRecords member]; exact Option.some_ne_none _⟩
    obtain ⟨way, isWay, read⟩ := List.mem_filterMap.mp member
    obtain ⟨h, -, rfl⟩ := Option.map_eq_some_iff.mp read
    exact bucketOfKey_slotKey b isWay
  · rintro ⟨bucket, some_⟩
    obtain ⟨h, held⟩ := Option.ne_none_iff_exists'.mp some_
    have key : slotKey b (k % 4) = k := by
      unfold slotKey
      omega
    refine List.mem_map.mpr ⟨(k, h), List.mem_filterMap.mpr ⟨k % 4, mem_allWays.mpr (Nat.mod_lt _ (by decide)), ?_⟩, rfl⟩
    rw [key, held, Option.map_some]

/-- R88: the table after every record of a bucket has been made by f of itself. -/
theorem visit_table {op : Nat → Holder → Gate → Gate} {f : Holder → Option Holder}
    (writes : ∀ key h acc, Sparse.get acc.holders key = some h →
      ∀ k, Sparse.get (op key h acc).holders k = if k = key then f h else Sparse.get acc.holders k)
    (b : Bucket) (g : Gate) (k : Nat) :
    Sparse.get ((bucketRecords b g).foldl (fun acc entry => op entry.1 entry.2 acc) g).holders k
      = if k / 4 = b.val then (Sparse.get g.holders k).bind f else Sparse.get g.holders k := by
  rw [foldl_table writes _ _ (bucketRecords_keys b g) (fun _ => get_of_mem_bucketRecords)]
  by_cases bucket : k / 4 = b.val
  · rw [if_pos bucket]
    cases held : Sparse.get g.holders k with
    | none => rw [if_neg fun listed => (mem_bucketRecords_keys.mp listed).2 held, Option.bind_none]
    | some h => rw [if_pos (mem_bucketRecords_keys.mpr ⟨bucket, by rw [held]; exact Option.some_ne_none _⟩)]
  · rw [if_neg bucket, if_neg fun listed => bucket (mem_bucketRecords_keys.mp listed).1]

/-- How many of some records are eligible for event e on zone z. -/
def eligibleAmong (records : List (Nat × Holder)) (e : EventIndex) (ev : Event) (z : ZoneIndex) : Nat :=
  (records.filter (fun entry => eligible entry.2 e ev && decide (entry.2.zone = z))).length

theorem eligibleAmong_nil (e : EventIndex) (ev : Event) (z : ZoneIndex) : eligibleAmong [] e ev z = 0 := rfl

theorem eligibleAmong_cons (entry : Nat × Holder) (rest : List (Nat × Holder)) (e : EventIndex) (ev : Event) (z : ZoneIndex) :
    eligibleAmong (entry :: rest) e ev z
      = (if eligible entry.2 e ev = true then atZone entry.2.zone z else 0) + eligibleAmong rest e ev z := by
  unfold eligibleAmong atZone
  rw [List.filter_cons]
  by_cases is : eligible entry.2 e ev = true
  · by_cases same : z = entry.2.zone
    · subst same
      simp [is, Nat.add_comm]
    · simp [is, same, Ne.symm same]
  · simp [is]

/-! ## RECOUNT (R90) -/

section Recount

variable {e : EventIndex}

theorem shiftShadow_other {z y : ZoneIndex} (apart : y ≠ z) (up : Bool) (g : Gate) :
    (shiftShadow z up g).upkeep.shadow[y] = g.upkeep.shadow[y] := by
  unfold shiftShadow
  split <;> exact (counts_set ..).trans (if_neg apart)

/-- R90: the shadow counts have changed, and free values may have been drawn. -/
def ShadowOnly (g k : Gate) : Prop :=
  k = { g with upkeep := { g.upkeep with shadow := k.upkeep.shadow }, freeDraws := k.freeDraws }

theorem ShadowOnly.trans {g h k : Gate} (p : ShadowOnly g h) (q : ShadowOnly h k) : ShadowOnly g k := by
  unfold ShadowOnly at *
  exact q.trans (by rw [p])

theorem shiftShadow_shadowOnly (z : ZoneIndex) (up : Bool) (g : Gate) : ShadowOnly g (shiftShadow z up g) := by
  unfold ShadowOnly shiftShadow
  split <;> rfl

/-- R90: some records of a recount, one after the other. -/
def recountedGate (e : EventIndex) (records : List (Nat × Holder)) (g : Gate) : Gate :=
  records.foldl (fun acc entry => recountRecord e entry.2 acc) g

theorem recountedGate_cons (entry : Nat × Holder) (rest : List (Nat × Holder)) (g : Gate) :
    recountedGate e (entry :: rest) g = recountedGate e rest (recountRecord e entry.2 g) := rfl

theorem recountedGate_shadow (records : List (Nat × Holder)) (g : Gate) :
    ShadowOnly g (recountedGate e records g) ∧
      ∀ z : ZoneIndex, (g.upkeep.shadow[z]).val + eligibleAmong records e (g.event e) z ≤ 32768 →
      ((recountedGate e records g).upkeep.shadow[z]).val
        = (g.upkeep.shadow[z]).val + eligibleAmong records e (g.event e) z := by
  induction records generalizing g with
  | nil => exact ⟨rfl, fun z _ => by rw [eligibleAmong_nil]; rfl⟩
  | cons entry rest ih =>
    obtain ⟨frame, counted⟩ := ih (recountRecord e entry.2 g)
    rw [recountedGate_cons]
    by_cases is : eligible entry.2 e (g.event e) = true
    · have step : recountRecord e entry.2 g = shiftShadow entry.2.zone true g := if_pos is
      rw [step] at frame counted ⊢
      refine ⟨(shiftShadow_shadowOnly ..).trans frame, fun z few => ?_⟩
      rw [eligibleAmong_cons, if_pos is] at few ⊢
      have first : ((shiftShadow entry.2.zone true g).upkeep.shadow[z]).val
          = (g.upkeep.shadow[z]).val + atZone entry.2.zone z := by
        by_cases same : z = entry.2.zone
        · subst same
          have one : atZone entry.2.zone entry.2.zone = 1 := if_pos rfl
          exact shiftShadow_rises (by omega) _
        · rw [shiftShadow_other same, atZone, if_neg same, Nat.add_zero]
      have event : (shiftShadow entry.2.zone true g).event e = g.event e := shiftShadow_event ..
      have rest := counted z (by rw [event, first]; omega)
      rw [event, first] at rest
      exact rest.trans (Nat.add_assoc ..)
    · have step : recountRecord e entry.2 g = g := if_neg is
      rw [step] at frame counted ⊢
      refine ⟨frame, fun z few => ?_⟩
      rw [eligibleAmong_cons, if_neg is, Nat.zero_add] at few ⊢
      exact counted z few

end Recount

/-! ## RETIRE (R89) -/

/-- R86, R89: a decoder loses event e on zone z with one of some records. -/
def losesAmong (records : List (Nat × Holder)) (e : EventIndex) (ev : Event) (z : ZoneIndex) (d : Decoder) : Bool :=
  records.any (fun entry => grantEligible entry.2 e ev && decide (entry.2.zone = z) && decide (entry.2.decoder = d))

/-- R143: the entries of a fresh queue of zone z that stay. -/
def staysInQueue (records : List (Nat × Holder)) (e : EventIndex) (ev : Event) (z : ZoneIndex) (entry : FreshEntry) : Bool :=
  !(decide (entry.form = .listed) && decide (entry.event = e) && losesAmong records e ev z entry.decoder)

/-- R130: a leg without the decoders that lose its event. -/
def thinned (records : List (Nat × Holder)) (e : EventIndex) (ev : Event) (leg : Leg) : Leg :=
  { leg with cells := Vector.ofFn (fun z : Fin 4 => leg.cells[z].filter (fun d => !losesAmong records e ev z d)) }

/-- R89: the records of a list have been cleared of event e, with the counts and the delivery work that go with it. -/
structure Cleared (records : List (Nat × Holder)) (e : EventIndex) (g k : Gate) : Prop where
  gate : k = { g with
    freeDraws := k.freeDraws
    events := k.events
    holders := k.holders
    walker := { g.walker with roster := k.walker.roster }
    zones := k.zones }
  others : ∀ f, f ≠ e → k.event f = g.event f
  record : k.event e = { g.event e with counts := (k.event e).counts }
  otherLegs : ∀ f slot, f ≠ e → k.leg f slot = g.leg f slot
  legs : ∀ slot, k.leg e slot = (g.leg e slot).map (thinned records e (g.event e))
  zone : ∀ z, k.zone z = { g.zone z with fresh := (g.zone z).fresh.filter (staysInQueue records e (g.event e) z) }
  live : ∀ z : ZoneIndex, eligibleAmong records e (g.event e) z ≤ ((g.event e).counts[z]).val →
    ((k.event e).counts[z]).val + eligibleAmong records e (g.event e) z = ((g.event e).counts[z]).val

section Retire

variable {e : EventIndex}

theorem thinned_nil (ev : Event) : thinned [] e ev = id := by
  funext leg
  have cells : (Vector.ofFn fun z : Fin 4 => leg.cells[z].filter (fun d => !losesAmong [] e ev z d)) = leg.cells := by
    refine Vector.ext fun i below => ?_
    rw [Vector.getElem_ofFn]
    exact List.filter_eq_self.mpr fun _ _ => rfl
  unfold thinned
  rw [cells]
  rfl

theorem thinned_cons (entry : Nat × Holder) (rest : List (Nat × Holder)) (ev : Event) :
    thinned (entry :: rest) e ev = thinned rest e ev ∘ thinned [entry] e ev := by
  funext leg
  have cells : (Vector.ofFn fun z : Fin 4 => leg.cells[z].filter (fun d => !losesAmong (entry :: rest) e ev z d))
      = Vector.ofFn fun z : Fin 4 =>
        (thinned [entry] e ev leg).cells[z].filter (fun d => !losesAmong rest e ev z d) := by
    refine Vector.ext fun i below => ?_
    rw [Vector.getElem_ofFn, Vector.getElem_ofFn]
    show _ = List.filter _ ((Vector.ofFn _)[i])
    rw [Vector.getElem_ofFn, List.filter_filter]
    refine List.filter_congr fun d _ => ?_
    simp [losesAmong, Bool.and_comm]
  unfold thinned at cells ⊢
  exact congrArg (fun cells => ({ leg with cells := cells } : Leg)) cells

theorem filter_staysInQueue_cons (entry : Nat × Holder) (rest : List (Nat × Holder)) (ev : Event) (z : ZoneIndex)
    (queue : List FreshEntry) : queue.filter (staysInQueue (entry :: rest) e ev z)
      = (queue.filter (staysInQueue [entry] e ev z)).filter (staysInQueue rest e ev z) := by
  rw [List.filter_filter]
  refine List.filter_congr fun fresh _ => ?_
  unfold staysInQueue losesAmong
  rw [List.any_cons, List.any_cons, List.any_nil, Bool.or_false]
  cases decide (fresh.form = .listed) && decide (fresh.event = e)
  · rfl
  · simp [Bool.and_comm]

theorem Cleared.refl (g : Gate) : Cleared [] e g g :=
  ⟨rfl, fun _ _ => rfl, rfl, fun _ _ _ => rfl, fun slot => by rw [thinned_nil, Option.map_id, id],
    fun z => by
      have all : (g.zone z).fresh.filter (staysInQueue [] e (g.event e) z) = (g.zone z).fresh :=
        List.filter_eq_self.mpr fun entry _ => by simp [staysInQueue, losesAmong]
      rw [all],
    fun z _ => rfl⟩

/-- Eligibility does not read the counts. -/
theorem Cleared.trans {entry : Nat × Holder} {rest : List (Nat × Holder)} {g h k : Gate} (p : Cleared [entry] e g h)
    (q : Cleared rest e h k) : Cleared (entry :: rest) e g k := by
  have judged (records : List (Nat × Holder)) (z : ZoneIndex) :
      eligibleAmong records e (h.event e) z = eligibleAmong records e (g.event e) z := by
    rw [p.record]
    rfl
  have thin (records : List (Nat × Holder)) : thinned records e (h.event e) = thinned records e (g.event e) := by
    rw [p.record]
    rfl
  have stays (records : List (Nat × Holder)) (z : ZoneIndex) :
      staysInQueue records e (h.event e) z = staysInQueue records e (g.event e) z := by
    rw [p.record]
    rfl
  refine ⟨q.gate.trans (by rw [p.gate]), fun f other => (q.others f other).trans (p.others f other),
    q.record.trans (by rw [p.record]), fun f slot other => (q.otherLegs f slot other).trans (p.otherLegs f slot other),
    fun slot => ?_, fun z => ?_, fun z few => ?_⟩
  · rw [q.legs, p.legs, Option.map_map, thin, ← thinned_cons]
  · rw [q.zone, p.zone, stays, filter_staysInQueue_cons entry rest]
  · have split : eligibleAmong (entry :: rest) e (g.event e) z
        = eligibleAmong [entry] e (g.event e) z + eligibleAmong rest e (g.event e) z := by
      rw [eligibleAmong_cons, eligibleAmong_cons, eligibleAmong_nil, Nat.add_zero]
    have first := p.live z (by omega)
    have second := q.live z (by rw [judged]; omega)
    rw [judged] at second
    omega

theorem shiftLive_other {z y : ZoneIndex} (apart : y ≠ z) (up : Bool) (g : Gate) :
    ((shiftLive e z up g).event e).counts[y] = (g.event e).counts[y] := by
  unfold shiftLive
  split
  · rw [modEvent_event_same]
    exact (counts_set ..).trans (if_neg apart)
  · dsimp only
    rw [modEvent_event_same]
    exact (counts_set ..).trans (if_neg apart)

/-- R89: a record loses event e: its live count falls where it was eligible. -/
theorem moveCounts_forget (b : Nat) (h : Holder) (g : Gate) :
    moveCounts b (some h) (some (h.forget e)) e g = if eligible h e (g.event e) then moveCount e b h.zone false g else g := by
  have isOpt : ¬ eligibleOpt (some (h.forget e)) e (g.event e) = true := by
    show ¬ eligible (h.forget e) e (g.event e) = true
    rw [eligible_forget_self]
    exact Bool.false_ne_true
  unfold moveCounts
  by_cases was : eligible h e (g.event e) = true
  · have wasOpt : eligibleOpt (some h) e (g.event e) = true := was
    dsimp only
    rw [if_neg (fun same => isOpt (same.1.symm.trans wasOpt)), if_neg isOpt, if_pos wasOpt, if_pos was]
  · have wasOpt : ¬ eligibleOpt (some h) e (g.event e) = true := was
    dsimp only
    rw [if_neg isOpt, if_neg wasOpt, if_neg was, ite_self]

/-- R89: a record that loses event e loses it on its zone where it was grant-eligible. -/
theorem loses_forget_iff {h : Holder} {ev : Event} : Loses h (some (h.forget e)) e ev ↔ grantEligible h e ev = true := by
  refine and_iff_left ?_
  have not : grantEligible (h.forget e) e ev = false := by
    rw [grantEligible, eligible_forget_self, Bool.false_and]
  simp [not]

/-- R86, R89: the purges of a record that loses event e. -/
theorem purgeLost_forget (h : Holder) (key : Nat) (g : Gate) :
    (∀ z, (purgeLost (some h) (some (h.forget e)) e g).zone z
      = { g.zone z with fresh := (g.zone z).fresh.filter (staysInQueue [(key, h)] e (g.event e) z) }) ∧
    (∀ slot, (purgeLost (some h) (some (h.forget e)) e g).leg e slot
      = (g.leg e slot).map (thinned [(key, h)] e (g.event e))) ∧
    ∀ f slot, f ≠ e → (purgeLost (some h) (some (h.forget e)) e g).leg f slot = g.leg f slot := by
  by_cases grants : grantEligible h e (g.event e) = true
  · have loses := loses_forget_iff.mpr grants
    refine ⟨fun z => ?_, fun slot => ?_, fun f slot other => by rw [purgeLost_leg loses, if_neg other]⟩
    · rw [purgeLost_zone loses]
      have stays : (g.zone z).fresh.filter (staysInQueue [(key, h)] e (g.event e) z)
          = if z = h.zone then (g.zone z).fresh.filter (fun entry => !entry.lists h.decoder e) else (g.zone z).fresh := by
        split
        · next same =>
          refine List.filter_congr fun entry _ => ?_
          simp [staysInQueue, losesAmong, FreshEntry.lists, grants, same, Bool.and_right_comm, eq_comm]
        · next other =>
          exact List.filter_eq_self.mpr fun entry _ => by simp [staysInQueue, losesAmong, Ne.symm other]
      rw [stays]
      split <;> rfl
    · rw [purgeLost_leg loses, if_pos rfl]
      congr 1
      funext leg
      refine congrArg (fun cells => ({ leg with cells := cells } : Leg)) (Vector.ext fun i below => ?_)
      rw [Vector.getElem_ofFn, Vector.getElem_set]
      split
      · next same =>
        subst same
        refine List.filter_congr fun d _ => ?_
        simp [losesAmong, grants, eq_comm]
      · next other =>
        have apart : h.zone ≠ ⟨i, below⟩ := fun same => other (congrArg Fin.val same)
        exact (List.filter_eq_self.mpr fun d _ => by simp [losesAmong, apart]).symm
  · rw [purgeLost_keeps fun loses => grants (loses_forget_iff.mp loses)]
    have none_ (z : ZoneIndex) (d : Decoder) : losesAmong [(key, h)] e (g.event e) z d = false := by simp [losesAmong, grants]
    refine ⟨fun z => ?_, fun slot => ?_, fun _ _ _ => rfl⟩
    · have all : (g.zone z).fresh.filter (staysInQueue [(key, h)] e (g.event e) z) = (g.zone z).fresh :=
        List.filter_eq_self.mpr fun entry _ => by simp [staysInQueue, none_]
      rw [all]
    · have id_ : thinned [(key, h)] e (g.event e) = thinned [] e (g.event e) := by
        funext leg
        unfold thinned
        simp only [none_]
        rfl
      rw [id_, thinned_nil, Option.map_id, id]

/-- R89: one record of a RETIRE visit, in a bucket that the recount it may carry has yet to visit. -/
theorem retireRecord_cleared {key : Nat} {h : Holder} {g : Gate} (ahead : ¬ g.shadows e (bucketOfKey key) = true) :
    Cleared [(key, h)] e g (retireRecord e key h g) := by
  have amount (z : ZoneIndex) : eligibleAmong [(key, h)] e (g.event e) z
      = if eligible h e (g.event e) = true then atZone h.zone z else 0 := by
    rw [eligibleAmong_cons, eligibleAmong_nil, Nat.add_zero]
  by_cases untouched : h.forget e = h
  · have step : retireRecord e key h g = g := if_pos untouched
    have not : ¬ eligible h e (g.event e) = true := by
      rw [← untouched, eligible_forget_self]
      exact Bool.false_ne_true
    have keeps : purgeLost (some h) (some (h.forget e)) e g = g :=
      purgeLost_keeps fun loses => not ((grantEligible_iff ..).mp (loses_forget_iff.mp loses)).1
    obtain ⟨zone, legs, -⟩ := purgeLost_forget (e := e) h key g
    rw [keeps] at zone legs
    rw [step]
    refine ⟨rfl, fun _ _ => rfl, rfl, fun _ _ _ => rfl, legs, zone, fun z _ => ?_⟩
    rw [amount, if_neg not, Nat.add_zero]
  · have step : retireRecord e key h g = writeHolder key (some (h.forget e)) (purgeLost (some h) (some (h.forget e)) e
        (moveCounts (bucketOfKey key) (some h) (some (h.forget e)) e g)) :=
      (if_neg untouched).trans (changeRecord_forget key h e g)
    have counts := moveCounts_counts (bucketOfKey key) (some h) (some (h.forget e)) e g
    have purges := purgeLost_purges (before := some h) (after := some (h.forget e)) (e := e)
      (g := moveCounts (bucketOfKey key) (some h) (some (h.forget e)) e g)
    have upkeep : (moveCounts (bucketOfKey key) (some h) (some (h.forget e)) e g).upkeep = g.upkeep :=
      moveCounts_unshadowed ahead
    have live (z : ZoneIndex) (few : eligibleAmong [(key, h)] e (g.event e) z ≤ ((g.event e).counts[z]).val) :
        (((moveCounts (bucketOfKey key) (some h) (some (h.forget e)) e g).event e).counts[z]).val
          + eligibleAmong [(key, h)] e (g.event e) z = ((g.event e).counts[z]).val := by
      rw [amount] at few ⊢
      rw [moveCounts_forget]
      by_cases was : eligible h e (g.event e) = true
      · rw [if_pos was] at few ⊢
        rw [if_pos was, moveCount_live]
        by_cases same : z = h.zone
        · subst same
          have one : atZone h.zone h.zone = 1 := if_pos rfl
          exact shiftLive_falls (by omega) _
        · rw [shiftLive_other same, atZone, if_neg same, Nat.add_zero]
      · rw [if_neg was, if_neg was, Nat.add_zero]
    obtain ⟨zone, legs, otherLegs⟩ := purgeLost_forget (e := e) h key
      (moveCounts (bucketOfKey key) (some h) (some (h.forget e)) e g)
    generalize moveCounts (bucketOfKey key) (some h) (some (h.forget e)) e g = m at *
    generalize purgeLost (some h) (some (h.forget e)) e m = p at *
    have zoneM (z : ZoneIndex) : m.zone z = g.zone z := by rw [counts.gate]; rfl
    have legM (f : EventIndex) (slot : SheetSlot) : m.leg f slot = g.leg f slot := by rw [counts.gate]; rfl
    have stays (z : ZoneIndex) : staysInQueue [(key, h)] e (m.event e) z = staysInQueue [(key, h)] e (g.event e) z := by
      rw [counts.record]
      rfl
    have thin : thinned [(key, h)] e (m.event e) = thinned [(key, h)] e (g.event e) := by
      rw [counts.record]
      rfl
    rw [step]
    refine ⟨?_, fun f other => (purges.event f).trans (counts.others f other), ?_,
      fun f slot other => (otherLegs f slot other).trans (legM f slot), fun slot => ?_, fun z => ?_, fun z few => ?_⟩
    · have frame : m = { g with freeDraws := m.freeDraws, events := m.events } := by
        conv_lhs => rw [counts.gate]
        have same : ({ g.upkeep with shadow := m.upkeep.shadow } : Upkeep) = g.upkeep := by rw [upkeep]
        rw [same]
      have frameP : p = { g with
          freeDraws := p.freeDraws, events := p.events, zones := p.zones
          walker := { g.walker with roster := p.walker.roster } } := by
        conv_lhs => rw [purges.gate, frame]
        have draws : p.freeDraws = m.freeDraws := (congrArg Gate.freeDraws purges.gate :)
        have events : p.events = m.events := (congrArg Gate.events purges.gate :)
        rw [draws, events]
      have holders : p.holders = g.holders := (congrArg Gate.holders frameP :)
      unfold writeHolder
      rw [holders]
      conv_lhs => rw [frameP]
    · show p.event e = { g.event e with counts := (p.event e).counts }
      rw [purges.event]
      exact counts.record
    · exact (legs slot).trans (by rw [legM, thin])
    · exact (zone z).trans (by rw [zoneM, stays])
    · show ((p.event e).counts[z]).val + _ = _
      rw [purges.event]
      exact live z few

theorem Cleared.upkeep {records : List (Nat × Holder)} {g k : Gate} (p : Cleared records e g k) : k.upkeep = g.upkeep :=
  (congrArg Gate.upkeep p.gate :)

/-- R89: some records of a RETIRE visit, one after the other. -/
theorem retire_records (records : List (Nat × Holder)) (g : Gate)
    (ahead : ∀ entry ∈ records, ¬ g.shadows e (bucketOfKey entry.1) = true) :
    Cleared records e g (records.foldl (fun acc entry => retireRecord e entry.1 entry.2 acc) g) := by
  induction records generalizing g with
  | nil => exact .refl g
  | cons entry rest ih =>
    have first : Cleared [entry] e g (retireRecord e entry.1 entry.2 g) := retireRecord_cleared (ahead entry (.head _))
    refine first.trans (ih _ fun other listed => ?_)
    rw [shadows_congr (congrArg Upkeep.tasks first.upkeep) (congrArg Upkeep.cursor first.upkeep)]
    exact ahead other (.tail _ listed)

theorem retireRecord_holders (key : Nat) (h : Holder) (g : Gate) (held : Sparse.get g.holders key = some h) (k : Nat) :
    Sparse.get (retireRecord e key h g).holders k = if k = key then some (h.forget e) else Sparse.get g.holders k := by
  unfold retireRecord
  split
  · next untouched =>
    split
    · next here => rw [here, held, untouched]
    · rfl
  · rw [changeRecord_holders]
    show Sparse.get (Sparse.set g.holders key (h.forget e)) k = _
    split
    · next here => rw [here, Sparse.get_set_same]
    · next other => rw [Sparse.get_set_other _ _ other]

/-- R89: a bucket whose records have been cleared of event e, in the table too. -/
theorem indexCleared_of_cleared {b : Bucket} {g d t : Gate} (cleared : Cleared (bucketRecords b g) e g d)
    (table : ∀ key, Sparse.get d.holders key
      = if key / 4 = b.val then (Sparse.get g.holders key).bind (fun h => some (h.forget e)) else Sparse.get g.holders key)
    (holders : t.holders = d.holders) (others : ∀ f, f ≠ e → t.event f = d.event f)
    (walker : t.walker = d.walker) (zones : t.zones = d.zones) : IndexCleared b e g t where
  holders key := by
    rw [holders, table]
    cases Sparse.get g.holders key <;> rfl
  others f other := (others f other).trans (cleared.others f other)
  otherLegs f slot other := by
    rw [Gate.leg, walker]
    exact cleared.otherLegs f slot other
  legs slot := by
    rw [Gate.leg, walker]
    exact cleared.legs slot
  zone z := by
    rw [Gate.zone, zones]
    exact cleared.zone z

end Retire

/-! ## AGE_SCAN (R94) -/

/-- R94: how many of some records an AGE_SCAN removes. -/
def agedAmong (records : List (Nat × Holder)) : Nat :=
  (records.filter (fun entry => (aged entry.2).isNone)).length

theorem agedAmong_cons (entry : Nat × Holder) (rest : List (Nat × Holder)) :
    agedAmong (entry :: rest) = (if aged entry.2 = none then 1 else 0) + agedAmong rest := by
  unfold agedAmong
  rw [List.filter_cons]
  cases aged entry.2 with
  | none => simp [Nat.add_comm]
  | some h => simp

theorem holdsNothing_iff {h : Holder} : h.holdsNothing = true ↔ h.bought = 0 ∧ h.grants = 0 ∧ h.denies = 0 := by
  simp [Holder.holdsNothing, and_assoc]

theorem eligible_of_holdsNothing {h : Holder} (nothing : h.holdsNothing = true) (e : EventIndex) (ev : Event) :
    eligible h e ev = false := by
  obtain ⟨bought, grants, denies⟩ := holdsNothing_iff.mp nothing
  simp [eligible, bought, grants]

/-- R94: an AGE_SCAN visit of a record: it stays, is written with its mark changed, or is removed and counted. -/
theorem ageRecord_cases (key : Nat) (h : Holder) (g : Gate) :
    (ageRecord key h g = g ∧ aged h = some h) ∨
    (∃ after, ageRecord key h g = writeHolder key (some after) g ∧ aged h = some after) ∨
    (ageRecord key h g = bump .recordsAgedOut (writeHolder key none g) ∧ aged h = none) := by
  have judged : (h.isStatic || h.barred) = true ↔ h.isStatic = true ∨ h.barred = true := Bool.or_eq_true_iff
  by_cases spared : (h.isStatic || h.barred) = true
  · exact .inl ⟨if_pos spared, if_pos (judged.mp spared)⟩
  · have spared' := fun both => spared (judged.mpr both)
    by_cases nothing : h.holdsNothing = true
    · by_cases mark : h.ageMark = true
      · have unmarked := changeRecord_of_same_eligibility key h (some { h with ageMark := false }) g (.inl rfl) (fun _ _ => rfl)
        refine .inr (.inl ⟨{ h with ageMark := false }, ?_, ?_⟩)
        · rw [ageRecord, if_neg spared, if_pos nothing, if_pos mark, unmarked]
        · rw [aged, if_neg spared', if_pos (holdsNothing_iff.mp nothing), if_pos mark]
      · have removed := changeRecord_of_same_eligibility key h none g
          (.inr (eligible_of_holdsNothing nothing)) (fun e ev => (eligible_of_holdsNothing nothing e ev).symm)
        refine .inr (.inr ⟨?_, ?_⟩)
        · rw [ageRecord, if_neg spared, if_pos nothing, if_neg mark, removed]
        · rw [aged, if_neg spared', if_pos (holdsNothing_iff.mp nothing), if_neg mark]
    · have nothing' := fun all => nothing (holdsNothing_iff.mpr all)
      by_cases mark : h.ageMark = true
      · refine .inl ⟨?_, ?_⟩
        · rw [ageRecord, if_neg spared, if_neg nothing, if_pos mark]
        · rw [aged, if_neg spared', if_neg nothing', ← mark]
      · have marked := changeRecord_of_same_eligibility key h (some { h with ageMark := true }) g (.inl rfl) (fun _ _ => rfl)
        refine .inr (.inl ⟨{ h with ageMark := true }, ?_, ?_⟩)
        · rw [ageRecord, if_neg spared, if_neg nothing, if_neg mark, marked]
        · rw [aged, if_neg spared', if_neg nothing']

theorem get_writeHolder (key : Nat) (after : Option Holder) (g : Gate) (k : Nat) :
    Sparse.get (writeHolder key after g).holders k = if k = key then after else Sparse.get g.holders k := by
  split
  · next here =>
    subst here
    cases after with
    | none => exact Sparse.get_erase_same ..
    | some h => exact Sparse.get_set_same ..
  · next other =>
    cases after with
    | none => exact Sparse.get_erase_other _ other
    | some h => exact Sparse.get_set_other _ _ other

theorem ageRecord_holders (key : Nat) (h : Holder) (g : Gate) (held : Sparse.get g.holders key = some h) (k : Nat) :
    Sparse.get (ageRecord key h g).holders k = if k = key then aged h else Sparse.get g.holders k := by
  rcases ageRecord_cases key h g with ⟨step, same⟩ | ⟨after, step, same⟩ | ⟨step, same⟩
  · rw [step, same]
    split
    · next here => rw [here, held]
    · rfl
  · rw [step, same, get_writeHolder]
  · rw [step, same, bump_holders, get_writeHolder]

theorem countUp_countUp (count : Counter) (m n : Nat) : countUp (countUp count m) n = countUp count (m + n) := by
  refine BitVec.eq_of_toNat_eq ?_
  rw [countUp_toNat, countUp_toNat, countUp_toNat]
  omega

/-- R94: some records of an AGE_SCAN, one after the other. -/
def agedGate (records : List (Nat × Holder)) (g : Gate) : Gate :=
  records.foldl (fun acc entry => ageRecord entry.1 entry.2 acc) g

theorem agedGate_cons (entry : Nat × Holder) (rest : List (Nat × Holder)) (g : Gate) :
    agedGate (entry :: rest) g = agedGate rest (ageRecord entry.1 entry.2 g) := rfl

/-- R94: the table and the part-level counters have changed. -/
def TableOnly (g k : Gate) : Prop :=
  k = { g with holders := k.holders, counters := k.counters }

theorem TableOnly.trans {g h k : Gate} (p : TableOnly g h) (q : TableOnly h k) : TableOnly g k := by
  unfold TableOnly at *
  exact q.trans (by rw [p])

theorem agedGate_table (records : List (Nat × Holder)) (g : Gate) : TableOnly g (agedGate records g) ∧
    ∀ c, partCount (agedGate records g) c
      = if c = .recordsAgedOut then countUp (partCount g c) (agedAmong records) else partCount g c := by
  induction records generalizing g with
  | nil => exact ⟨rfl, fun c => by
      show partCount g c = _
      rw [show agedAmong [] = 0 from rfl, countUp_zero, ite_self]⟩
  | cons entry rest ih =>
    obtain ⟨frame, counted⟩ := ih (ageRecord entry.1 entry.2 g)
    rw [agedGate_cons]
    rcases ageRecord_cases entry.1 entry.2 g with ⟨step, same⟩ | ⟨after, step, same⟩ | ⟨step, same⟩
    · rw [step] at frame counted ⊢
      refine ⟨frame, fun c => (counted c).trans ?_⟩
      rw [agedAmong_cons, same, if_neg (Option.some_ne_none _), Nat.zero_add]
    · rw [step] at frame counted ⊢
      refine ⟨TableOnly.trans (h := writeHolder entry.1 (some after) g) (by rfl) frame, fun c => (counted c).trans ?_⟩
      rw [agedAmong_cons, same, if_neg (Option.some_ne_none _), Nat.zero_add]
      rfl
    · rw [step] at frame counted ⊢
      refine ⟨TableOnly.trans (h := bump .recordsAgedOut (writeHolder entry.1 none g)) (by rfl) frame, fun c => (counted c).trans ?_⟩
      rw [agedAmong_cons, same, if_pos rfl, ← countUp_countUp]
      simp only [partCount_bump]
      by_cases here : c = .recordsAgedOut
      · rw [if_pos here, if_pos here, if_pos here]
        rfl
      · rw [if_neg here, if_neg here, if_neg here]
        rfl

/-! ## The visit (R88) -/

section Visit

variable {g : Gate} {task : Task} {rest : List Task}

/-- The part once the task has been applied to the records of the bucket at the cursor. -/
def appliedGate (task : Task) (g : Gate) : Gate :=
  (bucketRecords (Fin.ofNat 8192 g.upkeep.cursor.val) g).foldl (fun acc entry => task.applyTo entry.1 entry.2 acc) g

theorem bucketOfKey_of_listed {b : Bucket} {entry : Nat × Holder} (listed : entry ∈ bucketRecords b g) :
    bucketOfKey entry.1 = b.val :=
  (mem_bucketRecords_keys.mp (List.mem_map_of_mem listed)).1

theorem appliedGate_retire (e : EventIndex) (carried : Bool) (inRange : g.upkeep.cursor.val < 8192) :
    Cleared (bucketRecords (Fin.ofNat 8192 g.upkeep.cursor.val) g) e g (appliedGate (.retire e carried) g) := by
  refine retire_records _ g fun entry listed shadows => ?_
  unfold Gate.shadows at shadows
  rw [bucketOfKey_of_listed listed, Bool.and_eq_true, decide_eq_true_eq] at shadows
  obtain ⟨before, -⟩ := shadows
  have value : (Fin.ofNat 8192 g.upkeep.cursor.val : Bucket).val = g.upkeep.cursor.val := Nat.mod_eq_of_lt inRange
  omega

theorem appliedGate_retire_table (e : EventIndex) (carried : Bool) (g : Gate) (key : Nat) :
    Sparse.get (appliedGate (.retire e carried) g).holders key
      = if key / 4 = (Fin.ofNat 8192 g.upkeep.cursor.val : Bucket).val
        then (Sparse.get g.holders key).bind (fun h => some (h.forget e)) else Sparse.get g.holders key :=
  visit_table (op := retireRecord e) retireRecord_holders _ g key

/-- R88: a visit changes the shadow counts of the maintenance walker alone. -/
theorem appliedGate_upkeep (task : Task) (inRange : g.upkeep.cursor.val < 8192) :
    (appliedGate task g).upkeep = { g.upkeep with shadow := (appliedGate task g).upkeep.shadow } := by
  cases task with
  | retire e carried => rw [(appliedGate_retire e carried inRange).upkeep]
  | recount e => exact (congrArg Gate.upkeep (recountedGate_shadow (e := e) _ g).1 :)
  | ageScan => exact (congrArg Gate.upkeep (agedGate_table _ g).1 :).trans (by
      rw [show (appliedGate .ageScan g).upkeep = g.upkeep from (congrArg Gate.upkeep (agedGate_table _ g).1 :)])

/-- R85, R88: the part after a visit: the table has been granted, and the cursor has gone on. -/
theorem visitedBucket_eq (task : Task) (g : Gate) : visitedBucket task g = { appliedGate task g with
    upkeep := { (appliedGate task g).upkeep with
      lastGrant := .maintenanceWalker, cursor := Fin.ofNat 8193 (g.upkeep.cursor.val + 1) } } := rfl

theorem maintenanceVisit_goes (tasks : g.upkeep.tasks = task :: rest) (turn : Turn g .maintenanceWalker)
    (inside : g.upkeep.cursor.val < 8191) : maintenanceVisit g = visitedBucket task g := by
  have goes : (Fin.ofNat 8193 (g.upkeep.cursor.val + 1) : Fin 8193) ≠ 8192 := by
    intro ends
    have value := congrArg Fin.val ends
    change (g.upkeep.cursor.val + 1) % 8193 = 8192 at value
    omega
  unfold maintenanceVisit
  rw [tasks]
  exact (if_pos turn).trans (if_neg goes)

theorem maintenanceVisit_ends (tasks : g.upkeep.tasks = task :: rest) (turn : Turn g .maintenanceWalker)
    (last : g.upkeep.cursor.val = 8191) : maintenanceVisit g = endWalk task rest (visitedBucket task g) := by
  have ends : (Fin.ofNat 8193 (g.upkeep.cursor.val + 1) : Fin 8193) = 8192 := by
    rw [last]
    rfl
  unfold maintenanceVisit
  rw [tasks]
  exact (if_pos turn).trans (if_pos ends)

theorem endWalk_eq (task : Task) (rest : List Task) (g : Gate) : endWalk task rest g = { task.finish g with
    upkeep := { (task.finish g).upkeep with
      tasks := rest
      cursor := if rest = [] then (task.finish g).upkeep.cursor else 0
      shadow := if rest = [] then (task.finish g).upkeep.shadow else Vector.replicate 4 0 } } := by
  cases rest <;> rfl

theorem finish_upkeep (task : Task) (g : Gate) : (task.finish g).upkeep = g.upkeep := by
  cases task <;> rfl

/-- R88: the maintenance walker after the end of a walk. -/
theorem endWalk_upkeep (task : Task) (rest : List Task) (last : g.upkeep.cursor.val = 8191) :
    (endWalk task rest (visitedBucket task g)).upkeep = { g.upkeep with
      tasks := rest
      cursor := if rest = [] then 8192 else 0
      shadow := (endWalk task rest (visitedBucket task g)).upkeep.shadow
      lastGrant := .maintenanceWalker } := by
  have upkeep := appliedGate_upkeep (g := g) task (by omega)
  have ends : (Fin.ofNat 8193 (g.upkeep.cursor.val + 1) : Fin 8193) = 8192 := by
    rw [last]
    rfl
  rw [endWalk_eq]
  dsimp only
  rw [finish_upkeep, visitedBucket_eq]
  dsimp only
  rw [ends]
  have age : (appliedGate task g).upkeep.ageInstant = g.upkeep.ageInstant := (congrArg Upkeep.ageInstant upkeep :)
  rw [age]

theorem endWalk_shadow (task : Task) (some_ : rest ≠ []) (g : Gate) (z : ZoneIndex) :
    (endWalk task rest g).upkeep.shadow[z] = 0 := by
  rw [endWalk_eq]
  dsimp only
  rw [if_neg some_]
  exact Vector.getElem_replicate ..

/-- R92: the end of a RETIRE walk. -/
theorem vacantWalk_eq (e : EventIndex) (carried : Bool) (rest : List Task) (g : Gate) :
    endWalk (.retire e carried) rest g = { g with
      lanes := g.lanes.filter (fun entry => !decide (entry.2.owner = e))
      intake := { g.intake with keyRefs := g.intake.keyRefs.set e none }
      freeDraws := (endWalk (.retire e carried) rest g).freeDraws
      events := g.events.set e Event.vacant
      holders := (endWalk (.retire e carried) rest g).holders
      upkeep := (endWalk (.retire e carried) rest g).upkeep
      walker := { g.walker with roster := (endWalk (.retire e carried) rest g).walker.roster }
      zones := (endWalk (.retire e carried) rest g).zones
      command := { g.command with
        status := insertItem
          { kind := .phase
            object := eventObject e
            detail := [(g.event e).phase.number, 0] ++ field 4 g.clock.siteTime.toNat }
          g.command.status } } := by
  have lanes : g.lanes.filter (fun entry => !decide (entry.2.owner = e)) = (releaseLanes e g).lanes :=
    List.filter_congr fun entry _ => (decide_not ..).symm
  rw [lanes]
  cases rest <;> rfl

/-- R91: the end of a RECOUNT walk. -/
theorem recountedWalk_eq (e : EventIndex) (rest : List Task) (g : Gate) :
    endWalk (.recount e) rest g = { g with
      freeDraws := (endWalk (.recount e) rest g).freeDraws
      events := g.events.set e { g.event e with counts := g.upkeep.shadow, recountFlag := false }
      upkeep := (endWalk (.recount e) rest g).upkeep
      command := { g.command with
        status := insertItem
          { kind := .recountDone
            object := eventObject e
            detail := field 2 (countSum g.upkeep.shadow) ++ field 4 g.clock.siteTime.toNat }
          g.command.status }
      counters := (bump .recountsCompleted g).counters } := by
  cases rest <;> rfl

theorem agedWalk_eq (rest : List Task) (g : Gate) :
    endWalk .ageScan rest g = { g with
      holders := (endWalk .ageScan rest g).holders
      upkeep := (endWalk .ageScan rest g).upkeep
      counters := (endWalk .ageScan rest g).counters } := by
  cases rest <;> rfl

end Visit

end Sys2Proof.Machine

namespace Sys2Proof.Proofs

open Sys2Proof.Machine Sys2Proof.Safety Sys2Proof.Claims

set_option Elab.async false

/-- Settles O35: by the task at the head of the list (R89, R90, R94). -/
theorem maintenanceVisitAppliesItsTask : Obligations.MaintenanceVisitAppliesItsTask := by
  unfold Obligations.MaintenanceVisitAppliesItsTask
  intro s task rest tasks inside turn b
  have inRange : s.gate.upkeep.cursor.val < 8192 := by omega
  have upkeep := appliedGate_upkeep task inRange
  refine ⟨_, exec_of_effect (maintenanceVisit_goes tasks turn inside), rfl, ?upkeep, fun e is => ?recount,
    fun e carried is => ?retire, fun is => ?age⟩
  case upkeep =>
    show { (appliedGate task s.gate).upkeep with
      lastGrant := .maintenanceWalker, cursor := Fin.ofNat 8193 (s.gate.upkeep.cursor.val + 1) } = _
    conv_lhs => rw [upkeep]
    rfl
  case recount =>
    subst is
    obtain ⟨frame, counted⟩ := recountedGate_shadow (e := e) (bucketRecords b s.gate) s.gate
    change ShadowOnly _ (appliedGate (.recount e) s.gate) at frame
    refine ⟨?_, counted⟩
    rw [visitedBucket_eq]
    conv_lhs => rw [frame]
    conv_rhs => rw [upkeep]
  case retire =>
    subst is
    have cleared := appliedGate_retire e carried inRange
    have same : (appliedGate (.retire e carried) s.gate).upkeep = s.gate.upkeep := cleared.upkeep
    refine ⟨?_, indexCleared_of_cleared cleared (appliedGate_retire_table e carried s.gate) rfl (fun _ _ => rfl) rfl rfl,
      cleared.record, cleared.live⟩
    rw [visitedBucket_eq, same]
    conv_lhs => rw [cleared.gate]
  case age =>
    subst is
    obtain ⟨frame, counted⟩ := agedGate_table (bucketRecords b s.gate) s.gate
    change TableOnly _ (appliedGate .ageScan s.gate) at frame
    have same : (appliedGate .ageScan s.gate).upkeep = s.gate.upkeep := (congrArg Gate.upkeep frame :)
    refine ⟨?_, counted, visit_table ageRecord_holders b s.gate⟩
    rw [visitedBucket_eq, same]
    conv_lhs => rw [frame]

/-- Settles O36: the visit of the last bucket, and then the end of the task (R88, R91, R92). -/
theorem walkEndFinishesItsTask : Obligations.WalkEndFinishesItsTask := by
  unfold Obligations.WalkEndFinishesItsTask
  intro s task rest tasks last turn
  have inRange : s.gate.upkeep.cursor.val < 8192 := by omega
  have bucket : (Fin.ofNat 8192 s.gate.upkeep.cursor.val : Bucket) = 8191 := by
    rw [last]
    rfl
  refine ⟨_, exec_of_effect (maintenanceVisit_ends tasks turn last), rfl, endWalk_upkeep task rest last,
    fun some_ z => endWalk_shadow task some_ _ z, fun e carried is => ?retire, fun e is => ?recount, fun is => ?age⟩
  case retire =>
    subst is
    have cleared := appliedGate_retire e carried inRange
    have table := appliedGate_retire_table e carried s.gate
    rw [bucket] at cleared table
    obtain ⟨v, visited⟩ : ∃ v, v = visitedBucket (.retire e carried) s.gate := ⟨_, rfl⟩
    have frame : v = { s.gate with
        freeDraws := v.freeDraws
        events := v.events
        holders := v.holders
        upkeep := v.upkeep
        walker := { s.gate.walker with roster := v.walker.roster }
        zones := v.zones } := by
      have applied : v = { appliedGate (.retire e carried) s.gate with
          freeDraws := v.freeDraws
          events := v.events
          holders := v.holders
          upkeep := v.upkeep
          walker := { (appliedGate (.retire e carried) s.gate).walker with roster := v.walker.roster }
          zones := v.zones } := by
        rw [visited]
        rfl
      exact applied.trans (by rw [cleared.gate])
    have events : v.events.set e Event.vacant = s.gate.events.set e Event.vacant := by
      refine Vector.ext fun i below => ?_
      rw [visited, Vector.getElem_set, Vector.getElem_set]
      split
      · rfl
      · next other => exact cleared.others ⟨i, below⟩ fun same => other (congrArg Fin.val same).symm
    have phase : (v.event e).phase = (s.gate.event e).phase := by
      rw [visited]
      exact (congrArg Event.phase cleared.record :)
    have index (t : Gate) := indexCleared_of_cleared (t := t) cleared table
    have same : (appliedGate (.retire e carried) s.gate).holders = v.holders ∧
        (appliedGate (.retire e carried) s.gate).walker = v.walker ∧
        (appliedGate (.retire e carried) s.gate).zones = v.zones ∧
        ∀ f, (appliedGate (.retire e carried) s.gate).event f = v.event f := by
      rw [visited]
      exact ⟨rfl, rfl, rfl, fun _ => rfl⟩
    obtain ⟨holders, walker, zones, event⟩ := same
    rw [← visited]
    have ended := vacantWalk_eq e carried rest v
    refine ⟨?_, index _ ?_ (fun f other => ?_) ?_ ?_⟩
    · exact ended.trans (by rw [events, phase, frame])
    · rw [holders]
      cases rest <;> rfl
    · rw [event]
      show (endWalk (.retire e carried) rest v).event f = _
      rw [ended]
      exact Vector.getElem_set_ne e.isLt f.isLt fun there => other (Fin.ext there.symm)
    · rw [walker]
      cases rest <;> rfl
    · rw [zones]
      cases rest <;> rfl
  case recount =>
    subst is
    obtain ⟨frame, counted⟩ := recountedGate_shadow (e := e) (bucketRecords 8191 s.gate) s.gate
    have applied : appliedGate (.recount e) s.gate = recountedGate e (bucketRecords 8191 s.gate) s.gate := by
      rw [← bucket]
      rfl
    rw [← applied] at frame counted
    obtain ⟨v, visited⟩ : ∃ v, v = visitedBucket (.recount e) s.gate := ⟨_, rfl⟩
    have frameV : v = { s.gate with freeDraws := v.freeDraws, upkeep := v.upkeep } := by
      have applied : v = { appliedGate (.recount e) s.gate with freeDraws := v.freeDraws, upkeep := v.upkeep } := by
        rw [visited]
        rfl
      exact applied.trans (by rw [frame])
    have shadow : v.upkeep.shadow = (appliedGate (.recount e) s.gate).upkeep.shadow := by rw [visited, visitedBucket_eq]
    rw [← shadow] at counted
    rw [← visited]
    have ended := recountedWalk_eq e rest v
    have counts : ((endWalk (.recount e) rest v).event e).counts = v.upkeep.shadow := by
      rw [ended]
      exact congrArg Event.counts (Vector.getElem_set_self ..)
    have sum (counts : Vector ZoneCount 4) :
        countSum counts = (counts[0]).val + (counts[1]).val + (counts[2]).val + (counts[3]).val := by
      simp [countSum, allZones, Nat.add_assoc]
    dsimp only
    refine ⟨?_, fun z few => ?_⟩
    · rw [counts, ← sum]
      exact ended.trans (by rw [frameV]; rfl)
    · rw [counts]
      exact counted z few
  case age =>
    subst is
    obtain ⟨frame, counted⟩ := agedGate_table (bucketRecords 8191 s.gate) s.gate
    have table := visit_table ageRecord_holders 8191 s.gate
    have applied : appliedGate .ageScan s.gate = agedGate (bucketRecords 8191 s.gate) s.gate := by
      rw [← bucket]
      rfl
    obtain ⟨v, visited⟩ : ∃ v, v = visitedBucket .ageScan s.gate := ⟨_, rfl⟩
    have frameV : v = { s.gate with upkeep := v.upkeep, holders := v.holders, counters := v.counters } := by
      have applied : v = { agedGate (bucketRecords 8191 s.gate) s.gate with
          upkeep := v.upkeep, holders := v.holders, counters := v.counters } := by
        rw [visited, visitedBucket_eq, applied]
      exact applied.trans (by rw [frame])
    have parts : v.holders = (agedGate (bucketRecords 8191 s.gate) s.gate).holders ∧
        v.counters = (agedGate (bucketRecords 8191 s.gate) s.gate).counters := by
      rw [visited, visitedBucket_eq, applied]
      exact ⟨rfl, rfl⟩
    rw [← visited]
    have ended := agedWalk_eq rest v
    refine ⟨?_, fun k => ?_, fun key => ?_⟩
    · exact ended.trans (by rw [frameV])
    · refine Eq.trans ?_ (counted k)
      refine congrArg (fun counters : Vector Counter 37 => counters[k.pos]) (Eq.trans ?_ parts.2)
      cases rest <;> rfl
    · refine Eq.trans ?_ (table key)
      refine congrArg (fun holders => Sparse.get holders key) (Eq.trans ?_ parts.1)
      cases rest <;> rfl

end Sys2Proof.Proofs

/-! PROOF. The two remaining instants of delivery and maintenance (R93, R134) and the Command Unit's queues (R170–R172, R178): the
statements LatenessAndAgeInstants, ManagementCellJoinsTheQueue, ReturnSlotSendsInOrder and CommandsTurnedAwayUnread. -/

namespace Sys2Proof.Machine

open Sys2Proof.Safety Sys2Proof.Claims

set_option Elab.async false

/-! ## Lateness deadlines (R134) -/

section LegLate

variable {e : EventIndex} {slot : SheetSlot} {g : Gate} {leg : Leg} {deadline : Time}

theorem makeLate_first (first : leg.walking = true ∧ leg.lap = 1) : makeLate e slot leg g
    = post .legLate (eventObject e) (field 4 leg.sheet.toNat ++ field 2 leg.remaining.val)
        (bumpEvent e .lateLegs (setLeg e slot (some { leg with late := true, deadline := none }) g)) :=
  if_pos (firstLap_iff.mpr first)

theorem makeLate_later (later : ¬ (leg.walking = true ∧ leg.lap = 1)) :
    makeLate e slot leg g = setLeg e slot (some { leg with deadline := none }) g :=
  if_neg fun first => later (firstLap_iff.mp first)

theorem legLate_due (held : g.leg e slot = some leg) (dated : leg.deadline = some deadline) (reached : Reached g deadline)
    (first : ∀ f other l u, g.leg f other = some l → l.deadline = some u → deadline ≤ u) :
    legLate e slot g = makeLate e slot leg g := by
  have earliest : g.noEarlierLeg deadline = true :=
    noEarlierLeg_iff.mpr fun f other l u there dated => BitVec.not_lt.mpr (first f other l u there dated)
  unfold legLate
  simp only [held, dated]
  exact if_pos (by rw [reached_iff.mpr reached, earliest]; rfl)

end LegLate

/-! ## The age instant (R93) -/

section AgeInstant

variable {g : Gate}

theorem queueAgeScan_present (present : Task.ageScan ∈ g.upkeep.tasks) : queueAgeScan g = g := if_pos present

theorem queueAgeScan_first (empty : g.upkeep.tasks = []) : queueAgeScan g
    = { g with upkeep := { g.upkeep with tasks := [.ageScan], cursor := 0, shadow := Vector.replicate 4 0 } } := by
  unfold queueAgeScan setTasks
  rw [if_neg (by simp [empty]), if_neg (by simp [empty]), empty]
  rfl

theorem queueAgeScan_behind (absent : Task.ageScan ∉ g.upkeep.tasks) (busy : g.upkeep.tasks ≠ []) :
    queueAgeScan g = { g with upkeep := { g.upkeep with tasks := g.upkeep.tasks ++ [.ageScan] } } := by
  obtain ⟨head, rest, tasks⟩ := List.exists_cons_of_ne_nil busy
  unfold queueAgeScan setTasks
  rw [if_neg absent, if_pos (by simp [tasks])]

theorem ageInstant_due (reached : Reached g g.upkeep.ageInstant) : ageInstant g = { queueAgeScan g with
    upkeep := { (queueAgeScan g).upkeep with
      ageInstant := timeAdd g.clock.siteTime (g.settings.agingPeriod.toNat * 60000) } } :=
  if_pos (reached_iff.mpr reached)

end AgeInstant

/-! ## Cells that join and leave the command queue (R170, R171) -/

section Joining

variable {cell : List Byte} {g : Gate}

theorem joinQueue_atBusyLevel (level : g.command.queue.length = 23) (clear : g.command.busy = false) :
    joinQueue cell g = { g with
      command := { g.command with
        queue := g.command.queue ++ [cell]
        busy := true
        status := insertItem { kind := .queue, object := 0xFF, detail := [0x01, 24, 0, 0, 0, 0] } g.command.status } } := by
  have brought : (g.command.queue ++ [cell]).length = 24 := by simp [level]
  unfold joinQueue
  rw [if_pos ⟨brought, clear⟩]
  simp only [postQueue, post, brought]
  rfl

theorem joinQueue_elsewhere (other : ¬ (g.command.queue.length = 23 ∧ g.command.busy = false)) :
    joinQueue cell g = { g with command := { g.command with queue := g.command.queue ++ [cell] } } := by
  refine if_neg fun ⟨brought, clear⟩ => other ⟨?_, clear⟩
  rw [List.length_append, List.length_singleton] at brought
  exact Nat.succ.inj brought

theorem leaveQueue_atClearLevel {rest : List (List Byte)} (queue : g.command.queue = cell :: rest) (level : rest.length = 8)
    (busy : g.command.busy = true) :
    leaveQueue g = { g with
      command := { g.command with
        queue := rest
        busy := false
        status := insertItem { kind := .queue, object := 0xFF, detail := [0x02, 8, 0, 0, 0, 0] } g.command.status } } := by
  unfold leaveQueue
  simp only [queue, List.tail_cons]
  rw [if_pos ⟨level, busy⟩]
  simp only [postQueue, post, level]
  rfl

theorem leaveQueue_elsewhere {rest : List (List Byte)} (queue : g.command.queue = cell :: rest)
    (other : ¬ (rest.length = 8 ∧ g.command.busy = true)) :
    leaveQueue g = { g with command := { g.command with queue := rest } } := by
  unfold leaveQueue
  simp only [queue, List.tail_cons]
  exact if_neg other

theorem addressed_iff : g.addressed cell = true ↔ byteAt cell 5 = unitOf g ∨ byteAt cell 5 = 255 := by
  unfold Gate.addressed
  rw [Bool.or_eq_true, decide_eq_true_iff, decide_eq_true_iff]
  rfl

theorem takeManagement_other (other : ¬ (byteAt cell 5 = unitOf g ∨ byteAt cell 5 = 255)) :
    takeManagement cell g = bump .commandsForOthers g :=
  if_neg fun addressed => other (addressed_iff.mp addressed)

theorem takeManagement_full (addressed : byteAt cell 5 = unitOf g ∨ byteAt cell 5 = 255)
    (full : 32 ≤ g.command.queue.length) : takeManagement cell g = bump .commandsDropped g := by
  unfold takeManagement
  rw [if_pos (addressed_iff.mpr addressed)]
  exact if_neg (Nat.not_lt.mpr full)

theorem takeManagement_joins (addressed : byteAt cell 5 = unitOf g ∨ byteAt cell 5 = 255)
    (room : g.command.queue.length < 32) : takeManagement cell g = joinQueue cell (bump .commandsAccepted g) := by
  unfold takeManagement
  rw [if_pos (addressed_iff.mpr addressed)]
  exact if_pos room

theorem managementCell_handed (held : g.intake.handoff = some (.management cell)) :
    managementCell g = takeManagement cell { g with intake := { g.intake with handoff := none } } := by
  unfold managementCell
  rw [held]
  rfl

end Joining

/-! ## Return slots (R178) -/

section ReturnSlots

variable {g : Gate}

theorem returnSlot_loading (loading : g.loader.loading = true) : returnSlot g = sendReturn idleCell g := if_pos loading

theorem returnSlot_idle (loaded : g.loader.loading = false) (replies : g.command.replies = [])
    (status : g.command.status = []) : returnSlot g = sendReturn idleCell g := by
  simp [returnSlot, loaded, replies, status]

theorem returnSlot_reply {reply : Reply} {rest : List Reply} (loaded : g.loader.loading = false)
    (replies : g.command.replies = reply :: rest) : returnSlot g = sendReply reply rest g := by
  simp [returnSlot, loaded, replies]

theorem returnSlot_status (loaded : g.loader.loading = false) (replies : g.command.replies = [])
    (status : g.command.status ≠ []) : returnSlot g = sendStatus g := by
  simp [returnSlot, loaded, replies, status]

end ReturnSlots

/-! ## Commands turned away unread (R16, R172) -/

/-- R172: a row takes up no command but one with a code, and takes up such a command wherever its body length is too large. -/
def TakesCode (code : Byte) (f : Gate → Gate) : Prop :=
  ∀ g, ∃ p run, f g = beginWhere p run g ∧ (∀ q : Request, p q = true → q.code = code) ∧
    ∀ q : Request, q.code = code → 228 < q.length → p q = true

theorem beginCommand_takesCode (code : Byte) (run : Request → Gate → Gate) : TakesCode code (beginCommand code run) :=
  fun _ => ⟨_, run, rfl, fun _ coded => of_decide_eq_true coded, fun _ coded _ => decide_eq_true coded⟩

theorem executeCommand_takesCode (code : Byte) (meaning : Request → Gate → Answer) :
    TakesCode code (executeCommand code meaning) :=
  beginCommand_takesCode code _

theorem executeAtTable_takesCode (code : Byte) (meaning : Request → Gate → Answer) :
    TakesCode code (executeAtTable code meaning) :=
  fun _ => ⟨_, _, rfl, fun _ taken => of_decide_eq_true (Bool.and_eq_true_iff.mp taken).1,
    fun q coded long => by simp [coded, long]⟩

/-- Table 77: the row of a code takes up the commands of that code. -/
theorem codeTable_takesCode {code : Byte} {c : Instr} (row : (code, c) ∈ codeTable) : TakesCode code (effect c) := by
  have all : ∀ row ∈ codeTable, TakesCode row.1 (effect row.2) := by
    simp only [codeTable, List.cons_append, List.nil_append, List.forall_mem_cons]
    have step {code : Byte} {meaning : Request → Gate → Answer} := executeCommand_takesCode code meaning
    have atTable {code : Byte} {meaning : Request → Gate → Answer} := executeAtTable_takesCode code meaning
    have purchases : TakesCode 0x20 purchase := beginCommand_takesCode 0x20 _
    have saves : TakesCode 0x35 saveImage := beginCommand_takesCode 0x35 _
    have restarts : TakesCode 0x36 restart := beginCommand_takesCode 0x36 _
    exact ⟨step, step, step, step, step, purchases, atTable, atTable, atTable, atTable, atTable, atTable, atTable, atTable, atTable,
      step, step, step, step, step, saves, restarts,
      fun _ none_ => absurd none_ List.not_mem_nil⟩
  exact all _ row

section Turned

variable {g : Gate} {cell : List Byte} {rest : List (List Byte)}

theorem canBegin_of (ready : g.command.work = .ready) (room : g.command.replies.length < 16) : g.canBegin = true := by
  simp [Gate.canBegin, ready, room]

theorem canBegin_of_blocked (blocked : g.command.work ≠ .ready ∨ 16 ≤ g.command.replies.length) : g.canBegin = false := by
  rcases blocked with working | full
  · simp [Gate.canBegin, working]
  · simp [Gate.canBegin, Nat.not_lt.mpr full]

theorem beginWhere_blocked (blocked : g.canBegin = false) (p : Request → Bool) (run : Request → Gate → Gate) :
    beginWhere p run g = g := by
  unfold beginWhere
  cases g.command.queue with
  | nil => rfl
  | cons cell rest => exact if_neg (by simp [blocked])

theorem beginWhere_unfit {p : Request → Bool} {run : Request → Gate → Gate} (queue : g.command.queue = cell :: rest)
    (unfit : ¬ p (requestOf cell) = true) : beginWhere p run g = g := by
  simp [beginWhere, queue, unfit]

theorem beginWhere_tooLong {p : Request → Bool} {run : Request → Gate → Gate} (queue : g.command.queue = cell :: rest)
    (ready : g.canBegin = true) (fits : p (requestOf cell) = true) (long : 228 < (requestOf cell).length) :
    beginWhere p run g = placeReply (requestOf cell).tag (requestOf cell).code .badForm [] (leaveQueue g) := by
  simp [beginWhere, queue, ready, fits, long]

theorem unknownCommand_blocked (blocked : g.canBegin = false) : unknownCommand g = g := by
  unfold unknownCommand
  cases g.command.queue with
  | nil => rfl
  | cons cell rest => exact if_neg (by simp [blocked])

theorem unknownCommand_answers (queue : g.command.queue = cell :: rest) (ready : g.canBegin = true)
    (unknown : (requestOf cell).code ∉ codeTable.map Prod.fst) : unknownCommand g
      = placeReply (requestOf cell).tag (requestOf cell).code .unknownCommand [] (leaveQueue g) := by
  have undefined : (g.canBegin && !commandCodes.contains (requestOf cell).code) = true := by
    have absent : commandCodes.contains (requestOf cell).code = false :=
      Bool.eq_false_iff.mpr fun defined => unknown (List.contains_iff_mem.mp defined)
    rw [ready, absent]
    rfl
  unfold unknownCommand
  simp only [queue]
  exact if_pos undefined

theorem TakesCode.tooLong {code : Byte} {f : Gate → Gate} (takes : TakesCode code f) (queue : g.command.queue = cell :: rest)
    (ready : g.canBegin = true) (coded : (requestOf cell).code = code) (long : 228 < (requestOf cell).length) :
    f g = placeReply (requestOf cell).tag (requestOf cell).code .badForm [] (leaveQueue g) := by
  obtain ⟨p, run, begins, -, fits⟩ := takes g
  rw [begins, beginWhere_tooLong queue ready (fits _ coded long) long]

theorem TakesCode.otherCode {code : Byte} {f : Gate → Gate} (takes : TakesCode code f) (queue : g.command.queue = cell :: rest)
    (other : (requestOf cell).code ≠ code) : f g = g := by
  obtain ⟨p, run, begins, only, -⟩ := takes g
  rw [begins, beginWhere_unfit queue fun fits => other (only _ fits)]

theorem TakesCode.blocked {code : Byte} {f : Gate → Gate} (takes : TakesCode code f) (blocked : g.canBegin = false) :
    f g = g := by
  obtain ⟨p, run, begins, -⟩ := takes g
  rw [begins, beginWhere_blocked blocked]

end Turned

end Sys2Proof.Machine

namespace Sys2Proof.Proofs

open Sys2Proof.Machine Sys2Proof.Safety Sys2Proof.Claims

set_option Elab.async false

/-- Settles O37: the two branches of `makeLate`, and the three states of the maintenance list that `queueAgeScan` tells apart. -/
theorem latenessAndAgeInstants : Obligations.LatenessAndAgeInstants := by
  refine ⟨fun s e slot leg deadline held dated reached first => ⟨fun walking lap => exec_of_effect (i := .legLate e slot) ?_,
      fun later => exec_of_effect (i := .legLate e slot) ?_⟩,
    fun s reached => ⟨fun present => exec_of_effect (i := .ageInstant) ?_,
      fun empty => exec_of_effect (i := .ageInstant) ?_, fun absent busy => exec_of_effect (i := .ageInstant) ?_⟩⟩
  · exact (legLate_due held dated reached first).trans (makeLate_first ⟨walking, lap⟩)
  · exact (legLate_due held dated reached first).trans (makeLate_later later)
  · exact (ageInstant_due reached).trans (by rw [queueAgeScan_present present])
  · exact (ageInstant_due reached).trans (by rw [queueAgeScan_first empty])
  · exact (ageInstant_due reached).trans (by rw [queueAgeScan_behind absent busy])

/-- Settles O38: the branches of `takeManagement`, `joinQueue` and `leaveQueue`. -/
theorem managementCellJoinsTheQueue : Obligations.ManagementCellJoinsTheQueue := by
  refine ⟨fun s cell held => ⟨fun other => exec_of_effect (i := .managementCell) ?_,
    fun addressed full => exec_of_effect (i := .managementCell) ?_, fun addressed room =>
      ⟨fun level clear => exec_of_effect (i := .managementCell) ?_,
        fun elsewhere => exec_of_effect (i := .managementCell) ?_⟩⟩,
    fun g cell rest queue => ⟨leaveQueue_atClearLevel queue, leaveQueue_elsewhere queue⟩⟩
  all_goals refine (managementCell_handed held).trans ?_
  · exact takeManagement_other other
  · exact takeManagement_full addressed full
  · exact (takeManagement_joins (g := clearHandoff s.gate) addressed room).trans
      (joinQueue_atBusyLevel (g := bump .commandsAccepted (clearHandoff s.gate)) level clear)
  · exact (takeManagement_joins (g := clearHandoff s.gate) addressed room).trans
      (joinQueue_elsewhere (g := bump .commandsAccepted (clearHandoff s.gate)) elsewhere)

/-- Settles O39: the branches of `returnSlot`. -/
theorem returnSlotSendsInOrder : Obligations.ReturnSlotSendsInOrder := by
  intro s
  exact ⟨fun loading => exec_of_effect (i := .returnSlot) (returnSlot_loading loading), fun loaded =>
    ⟨fun replies status => exec_of_effect (i := .returnSlot) (returnSlot_idle loaded replies status),
      fun reply rest replies => exec_of_effect (i := .returnSlot) (returnSlot_reply loaded replies),
      fun replies status => exec_of_effect (i := .returnSlot) (returnSlot_status loaded replies status)⟩⟩

/-- Settles O40: every row of Table 77 begins by way of `beginWhere` (`codeTable_takesCode`). -/
theorem commandsTurnedAwayUnread : Obligations.CommandsTurnedAwayUnread := by
  refine ⟨fun s cell rest queue ready room => ⟨fun unknown => exec_of_effect (i := .unknownCommand) ?_,
      fun c row long => exec_of_effect ?_, fun code c row other => exec_of_unchanged ?_⟩,
    fun s code c row blocked => exec_of_unchanged ?_, fun _ _ _ _ _ => rfl⟩
  · exact unknownCommand_answers queue (canBegin_of ready room) unknown
  · exact (codeTable_takesCode row).tooLong queue (canBegin_of ready room) rfl long
  · exact (codeTable_takesCode row).otherCode queue other
  · rcases row with row | rfl
    · exact (codeTable_takesCode row).blocked (canBegin_of_blocked blocked)
    · exact unknownCommand_blocked (canBegin_of_blocked blocked)

end Sys2Proof.Proofs

/-! PROOF. LOAD_EVENT (R7, R34, R35): what its body says, each of its five checks, the lanes it claims and the record it takes,
and the statement LoadEventTakesTheLowestVacantRecord. -/

namespace Sys2Proof.Machine

open Sys2Proof.Safety Sys2Proof.Claims

set_option Elab.async false

/-! ## Fields that stand back to back -/

theorem range_map_succ {α : Type} (f : Nat → α) (n : Nat) :
    (List.range (n + 1)).map f = f 0 :: (List.range n).map (fun k => f (k + 1)) := by
  rw [List.range_succ_eq_map, List.map_cons, List.map_map]
  rfl

theorem halvesAt_eq (bytes : List Byte) (i n : Nat) :
    halvesAt bytes i n = (List.range n).map (fun k => halfAt bytes (i + 2 * k)) := by
  induction n generalizing i with
  | zero => rfl
  | succ n ih =>
    rw [halvesAt, ih, range_map_succ]
    refine congrArg₂ List.cons rfl (List.map_congr_left fun k _ => ?_)
    rw [show i + 2 + 2 * k = i + 2 * (k + 1) by omega]

theorem rangesAt_eq (bytes : List Byte) (i n : Nat) : rangesAt bytes i n
    = (List.range n).map (fun k => { low := halfAt bytes (i + 4 * k), high := halfAt bytes (i + 2 + 4 * k) }) := by
  induction n generalizing i with
  | zero => rfl
  | succ n ih =>
    rw [rangesAt, ih, range_map_succ]
    refine congrArg₂ List.cons rfl (List.map_congr_left fun k _ => ?_)
    rw [show i + 4 + 4 * k = i + 4 * (k + 1) by omega, show i + 4 + 2 + 4 * k = i + 2 + 4 * (k + 1) by omega]

/-! ## What a LOAD_EVENT body says (R34) -/

section Body

variable {body : List Byte}

theorem loadFields_number : (loadFields body).number = halfAt body 0 := rfl

theorem loadFields_lanes : (loadFields body).lanes = loadLanes body := halvesAt_eq ..

theorem loadFields_ranges : (loadFields body).ranges = loadRanges body := by
  refine (rangesAt_eq ..).trans (List.map_congr_left fun k _ => ?_)
  rfl

theorem loadFields_named : (loadFields body).named = loadNamed body := by
  have alternate : (loadFields body).alternate.toList
      = if halfAt body (keyAt body + 2) = 0xFFFF then [] else [halfAt body (keyAt body + 2)] :=
    (apply_ite Option.toList ..).trans rfl
  unfold LoadFields.named loadNamed
  rw [loadFields_lanes, alternate]
  rfl

theorem loadLanes_length : (loadLanes body).length = (byteAt body 2).toNat := by
  rw [loadLanes, List.length_map, List.length_range]

theorem loadRanges_length : (loadRanges body).length = (byteAt body 3).toNat := by
  rw [loadRanges, List.length_map, List.length_range]

theorem loadFormGood_iff {q : Request} : loadFormGood q = true ↔ LoadForm q := by
  simp only [loadFormGood, Bool.and_eq_true, decide_eq_true_eq]

theorem rangesInRange_iff {ranges : List Range} :
    rangesInRange ranges = true ↔ ∀ range ∈ ranges, range.low ≤ range.high := by
  simp only [rangesInRange, List.all_eq_true, decide_eq_true_eq]

theorem cutoffInRange_iff {cutoff : Byte} : cutoffInRange cutoff = true ↔ cutoff.toNat ≤ 240 ∨ cutoff = 255 := by
  simp only [cutoffInRange, Bool.or_eq_true, decide_eq_true_eq]

theorem maskInRange_iff {g : Gate} {mask : Byte} :
    g.maskInRange mask = true ↔ mask.toNat < 2 ^ (g.loader.zoneStraps.toNat + 1) :=
  decide_eq_true_iff

theorem loadInRange_iff {g : Gate} : g.loadInRange (loadFields body) = true ↔ LoadRange g body := by
  simp only [Gate.loadInRange, Bool.and_eq_true, decide_eq_true_eq, List.all_eq_true, rangesInRange_iff, cutoffInRange_iff,
    maskInRange_iff, loadFields_named, loadFields_lanes, loadFields_ranges, loadLanes_length, loadRanges_length, and_assoc]
  exact Iff.rfl

theorem claimable_iff {g : Gate} : g.claimable (loadFields body).named = true ↔ LanesFree g body := by
  simp only [Gate.claimable, Bool.and_eq_true, decide_eq_true_eq, List.all_eq_true, loadFields_named]
  simp only [LanesFree, laneOfHalf, BitVec.ofNat_toNat]

end Body

/-! ## The lowest VACANT record (R35) -/

section LowestVacant

variable {g : Gate}

theorem vacantIndex_eq_none (full : ∀ e, occupied g e) : g.vacantIndex = none := by
  refine List.find?_eq_none.mpr fun e _ vacant => full e (of_decide_eq_true vacant)

theorem allEvents_sorted : allEvents.Pairwise (· < ·) := by decide

theorem find_allEvents_lowest {p : EventIndex → Bool} {e : EventIndex} (fits : p e = true)
    (lower : ∀ f, f < e → p f = false) :
    allEvents.find? p = some e := by
  cases found : allEvents.find? p with
  | none => exact absurd fits (List.find?_eq_none.mp found e (mem_allEvents e))
  | some f =>
    obtain ⟨fitsFound, before, after, split, unfit⟩ := List.find?_eq_some_iff_append.mp found
    have sorted := allEvents_sorted
    have listed := mem_allEvents e
    rw [split] at sorted listed
    rcases List.mem_append.mp listed with early | late
    · exact absurd (unfit e early) (by simp [fits])
    · rcases List.mem_cons.mp late with same | later
      · rw [same]
      · have less : f < e := (List.pairwise_cons.mp (List.pairwise_append.mp sorted).2.1).1 e later
        rw [lower f less] at fitsFound
        cases fitsFound

theorem vacantIndex_lowest {e : EventIndex} (vacant : ¬ occupied g e) (lower : ∀ f, f < e → occupied g f) :
    g.vacantIndex = some e :=
  find_allEvents_lowest (decide_eq_true (not_not.mp vacant)) fun f less => decide_eq_false (lower f less)

end LowestVacant

/-! ## The checks, in order (R34) -/

section LoadEvent

variable {q : Request} {g : Gate} {e : EventIndex}

theorem loadEvent_badForm (form : ¬ LoadForm q) : loadEvent q g = refuse .badForm g := by
  have failed : (!loadFormGood q) = true := by simpa using mt loadFormGood_iff.mp form
  exact if_pos failed

theorem loadEvent_form (form : LoadForm q) : loadEvent q g
    = if !g.loadInRange (loadFields q.body) then refuse .range g
      else match g.loadIdentity (loadFields q.body).number with
        | some refusal => refuse refusal g
        | none => match g.vacantIndex with
          | none => refuse .noRoom g
          | some e =>
            if g.claimable (loadFields q.body).named then
              { result := .ok, body := [eventObject e], gate := takeRecord e (loadFields q.body) g }
            else refuse .laneTaken g := by
  have passed : ¬ (!loadFormGood q) = true := by simp [loadFormGood_iff.mpr form]
  exact if_neg passed

theorem loadEvent_range (form : LoadForm q) (range : ¬ LoadRange g q.body) : loadEvent q g = refuse .range g := by
  rw [loadEvent_form form]
  exact if_pos (by simpa using mt loadInRange_iff.mp range)

theorem loadEvent_identity {refusal : Result} (form : LoadForm q) (range : LoadRange g q.body)
    (identity : g.loadIdentity (halfAt q.body 0) = some refusal) : loadEvent q g = refuse refusal g := by
  rw [loadEvent_form form, if_neg (by simp [loadInRange_iff.mpr range]), loadFields_number, identity]

theorem loadEvent_noRoom (form : LoadForm q) (range : LoadRange g q.body) (unknown : g.findEvent (halfAt q.body 0) = none)
    (full : ∀ e, occupied g e) : loadEvent q g = refuse .noRoom g := by
  rw [loadEvent_form form, if_neg (by simp [loadInRange_iff.mpr range]), loadFields_number,
    Gate.loadIdentity, unknown, vacantIndex_eq_none full]

theorem loadEvent_lanes (form : LoadForm q) (range : LoadRange g q.body) (unknown : g.findEvent (halfAt q.body 0) = none)
    (vacant : ¬ occupied g e) (lower : ∀ f, f < e → occupied g f) : loadEvent q g
      = if g.claimable (loadFields q.body).named then
          { result := .ok, body := [eventObject e], gate := takeRecord e (loadFields q.body) g }
        else refuse .laneTaken g := by
  rw [loadEvent_form form, if_neg (by simp [loadInRange_iff.mpr range]), loadFields_number,
    Gate.loadIdentity, unknown, vacantIndex_lowest vacant lower]

end LoadEvent

/-! ## The lanes claimed and the record taken (R7, R35) -/

section Taken

variable {e : EventIndex} {f : LoadFields} {g : Gate}

theorem claimLanes_keyRefs : (claimLanes e f g).intake = { g.intake with keyRefs := g.intake.keyRefs.set e none } := by
  have claimed (claim : LaneClaim) (lanes : List Half) (h : Gate) :
      (lanes.foldl (fun acc lane => claimLane claim lane acc) h).intake = h.intake :=
    List.foldlRecOn (motive := fun acc : Gate => acc.intake = h.intake) lanes _ rfl (fun _ same _ _ => same)
  unfold claimLanes
  dsimp only
  rw [claimed (.alternate e), claimLane, claimed (.content e)]

theorem clearSubstitutes_eq : clearSubstitutes e g
    = onZones (fun _ zone => { zone with substitutes := zone.substitutes.set e 0 }) g :=
  foldZones_eq _ (fun z => modZone z fun zone => { zone with substitutes := zone.substitutes.set e 0 }) g fun _ _ => rfl

/-- R35: all that a LOAD changes when it takes a record. -/
theorem takeRecord_eq : takeRecord e f g = { g with
    intake := { g.intake with keyRefs := g.intake.keyRefs.set e none }
    lanes := (claimLanes e f g).lanes
    events := g.events.set e (f.record g.clock.siteTime)
    zones := Vector.ofFn fun z => { g.zone z with substitutes := (g.zone z).substitutes.set e 0 }
    command := { g.command with
      status := insertItem
        { kind := .phase, object := eventObject e, detail := [0, 1] ++ field 4 g.clock.siteTime.toNat }
        g.command.status } } := by
  unfold takeRecord
  rw [clearSubstitutes_eq, claimLanes_frame, claimLanes_keyRefs]
  rfl

end Taken

section ClaimedKinds

variable {g : Gate} {body : List Byte} {e : EventIndex} {lane : Lane}

theorem laneOfHalf_eq_iff {half : Half} (small : half.toNat ≤ 4095) : laneOfHalf half = lane ↔ lane.toNat = half.toNat := by
  have value : (laneOfHalf half).toNat = half.toNat := by
    rw [laneOfHalf, BitVec.toNat_setWidth]
    exact Nat.mod_eq_of_lt (by omega)
  rw [← value, BitVec.toNat_inj, eq_comm]

theorem contentNamed_iff (small : ∀ lane ∈ loadNamed body, lane.toNat ≤ 4095) :
    lane ∈ (loadFields body).lanes.map laneOfHalf ↔ lane.toNat ∈ (loadLanes body).map BitVec.toNat := by
  rw [loadFields_lanes, List.mem_map, List.mem_map]
  refine exists_congr fun half => and_congr_right fun listed => ?_
  rw [laneOfHalf_eq_iff (small half (by simp [loadNamed, listed])), eq_comm]

theorem keyNamed_iff (small : ∀ lane ∈ loadNamed body, lane.toNat ≤ 4095) :
    laneOfHalf (loadFields body).keyLane = lane ↔ lane.toNat = (halfAt body (keyAt body)).toNat :=
  laneOfHalf_eq_iff (small (halfAt body (keyAt body)) (by simp [loadNamed]))

theorem alternateNamed_iff (small : ∀ lane ∈ loadNamed body, lane.toNat ≤ 4095) :
    (loadFields body).alternate.map laneOfHalf = some lane ↔ lane.toNat = (halfAt body (keyAt body + 2)).toNat := by
  have alternate : (loadFields body).alternate
      = if halfAt body (keyAt body + 2) = 0xFFFF then none else some (halfAt body (keyAt body + 2)) := rfl
  rw [alternate]
  split
  · next absent =>
    have below := lane.isLt
    rw [absent]
    simp only [Option.map_none, reduceCtorEq, false_iff]
    exact fun same => absurd (same ▸ below) (by decide)
  · next present =>
    have listed : halfAt body (keyAt body + 2) ∈ loadNamed body := by
      rw [loadNamed, if_neg present]
      exact List.mem_append_right _ (List.mem_singleton_self _)
    rw [Option.map_some, Option.some.injEq, laneOfHalf_eq_iff (small _ listed)]

/-- R6, R7: the kind of every lane once a LOAD has claimed its lanes. -/
theorem laneKind_of_claimLanes {h : Gate} (lanes : h.lanes = (claimLanes e (loadFields body) g).lanes)
    (range : LoadRange g body) (free : LanesFree g body) : h.laneKind lane
      = if lane.toNat ∈ (loadLanes body).map BitVec.toNat then .content e
        else if lane.toNat = (halfAt body (keyAt body)).toNat then .key e
        else if lane.toNat = (halfAt body (keyAt body + 2)).toNat then .alternate e
        else g.laneKind lane := by
  have small := range.2.2.2.1
  have apart := lanesApart (loadInRange_iff.mpr range) (claimable_iff.mpr free)
  simp only [← contentNamed_iff small, ← keyNamed_iff small, ← alternateNamed_iff small]
  have unreserved {half : Half} (listed : half ∈ (loadFields body).named) : (laneOfHalf half).toNat < 4080 := by
    have isFree := claimable_iff.mpr free
    simp only [Gate.claimable, Bool.and_eq_true, decide_eq_true_eq, List.all_eq_true] at isFree
    exact Nat.lt_of_not_le fun reserved => LaneKind.noConfusion ((if_pos reserved).symm.trans (isFree.1 half listed))
  by_cases reserved : 4080 ≤ lane.toNat
  · have content : lane ∉ (loadFields body).lanes.map laneOfHalf := by
      intro named
      obtain ⟨half, listed, rfl⟩ := List.mem_map.mp named
      exact absurd reserved (Nat.not_le.mpr (unreserved (by simp [LoadFields.named, listed])))
    have key : laneOfHalf (loadFields body).keyLane ≠ lane := by
      rintro rfl
      exact absurd reserved (Nat.not_le.mpr (unreserved (by simp [LoadFields.named])))
    have alternate : (loadFields body).alternate.map laneOfHalf ≠ some lane := by
      intro named
      obtain ⟨half, listed, rfl⟩ := Option.map_eq_some_iff.mp named
      exact absurd reserved (Nat.not_le.mpr (unreserved (by simp [LoadFields.named, listed])))
    rw [if_neg content, if_neg key, if_neg alternate]
    exact (if_pos reserved).trans (if_pos reserved).symm
  · unfold Gate.laneKind
    rw [if_neg reserved, if_neg reserved, lanes, claimLanes_get apart]
    unfold LoadFields.claimed
    by_cases content : lane ∈ (loadFields body).lanes.map laneOfHalf
    · rw [if_pos content, if_pos content]
      rfl
    · rw [if_neg content, if_neg content]
      by_cases key : laneOfHalf (loadFields body).keyLane = lane
      · rw [if_pos key, if_pos key]
        rfl
      · rw [if_neg key, if_neg key]
        by_cases alternate : (loadFields body).alternate.map laneOfHalf = some lane
        · rw [if_pos alternate, if_pos alternate]
          rfl
        · rw [if_neg alternate, if_neg alternate]
          rfl

end ClaimedKinds

end Sys2Proof.Machine

namespace Sys2Proof.Machine

open Sys2Proof.Safety Sys2Proof.Claims

set_option Elab.async false

/-- R173: a command of one step whose meaning is a refusal is turned away. -/
theorem exec_of_refused {i : Instr} {s : State} {q : Request} {code : Byte} {meaning : Request → Gate → Answer} {r : Result}
    (row : effect i = executeCommand code meaning) (begins : Begins s.gate q) (coded : q.code = code)
    (answer : meaning q (leaveQueue s.gate) = refuse r (leaveQueue s.gate)) : exec i s = .next (turnedAway s q r) := by
  have run := executeCommand_of_begins (meaning := meaning) begins coded
  rw [answer, answered_refuse] at run
  rw [← run, exec_eq_effect, row]
  rfl

/-- R173: a command of one step is answered by its meaning. -/
theorem exec_of_answered {i : Instr} {s : State} {q : Request} {code : Byte} {meaning : Request → Gate → Answer}
    {a : Answer} (row : effect i = executeCommand code meaning) (begins : Begins s.gate q) (coded : q.code = code)
    (answer : meaning q (leaveQueue s.gate) = a) : exec i s = .next (answered s q a) := by
  rw [← answer, ← executeCommand_of_begins begins coded, exec_eq_effect, row]
  rfl

/-- R171: what the leaving of the command in hand leaves of the part: all but the Command Unit, and its replies. -/
theorem leaveQueue_left (g : Gate) :
    ∃ c, leaveQueue g = { g with command := c } ∧ c.replies = g.command.replies :=
  ⟨_, leaveQueue_eq_command g, leaveQueue_replies g⟩

/-- R34, R35: the record that a LOAD gives, from its body. -/
theorem loadFields_record {body : List Byte} {now : Time} (named : 1 ≤ (byteAt body 2).toNat) :
    (loadFields body).record now = { Event.vacant with
    number := halfAt body 0
    phase := .onSale
    firstLane := BitVec.ofNat 12 (halfAt body 4).toNat
    moreLanes := (loadLanes body).tail.map (fun lane => BitVec.ofNat 12 lane.toNat)
    keyLane := BitVec.ofNat 12 (halfAt body (keyAt body)).toNat
    alternateLane :=
      if halfAt body (keyAt body + 2) = 0xFFFF then none
      else some (BitVec.ofNat 12 (halfAt body (keyAt body + 2)).toNat)
    mask := (byteAt body (keyAt body + 4)).setWidth 4
    ranges := loadRanges body
    epoch := BitVec.ofNat 16 (max 10 (min (halfAt body (epochAt body)).toNat 600))
    previewLength := byteAt body (epochAt body + 2)
    scheduledStart := loadStart body
    cutoff := byteAt body (epochAt body + 9)
    extraLimit := byteAt body (epochAt body + 10)
    grace := BitVec.ofNat 8 (max 1 (min (byteAt body (epochAt body + 11)).toNat 240))
    currentEntry := now
    previousPhase := some .vacant
    deadline := loadStart body } := by
  have first : laneOfHalf ((loadFields body).lanes.headD 0) = BitVec.ofNat 12 (halfAt body 4).toNat := by
    obtain ⟨n, count⟩ := Nat.exists_eq_add_of_le' named
    rw [loadFields_lanes, loadLanes, count, range_map_succ, List.headD_cons, BitVec.ofNat_toNat]
    rfl
  have alternate : (loadFields body).alternate.map laneOfHalf
      = if halfAt body (keyAt body + 2) = 0xFFFF then none
        else some (BitVec.ofNat 12 (halfAt body (keyAt body + 2)).toNat) :=
    (apply_ite (Option.map laneOfHalf) ..).trans rfl
  unfold LoadFields.record
  rw [first, alternate, loadFields_lanes, loadFields_ranges]
  rfl

end Sys2Proof.Machine

namespace Sys2Proof.Proofs

open Sys2Proof.Machine Sys2Proof.Safety Sys2Proof.Claims

set_option Elab.async false

/-- Settles O41: the five checks in order, then `takeRecord_eq` for what the LOAD changes and `laneKind_of_claimLanes` for the
kinds of the lanes. -/
theorem loadEventTakesTheLowestVacantRecord : Obligations.LoadEventTakesTheLowestVacantRecord := by
  intro s q begins coded g body number
  obtain ⟨c, left, replies⟩ := leaveQueue_left s.gate
  have refused {r : Result} (answer : loadEvent q (leaveQueue s.gate) = refuse r (leaveQueue s.gate)) :
      exec .loadEvent s = .next (turnedAway s q r) := exec_of_refused (i := .loadEvent) rfl begins coded answer
  rw [left] at refused
  have found_ : (leaveQueue s.gate).findEvent number = s.gate.findEvent number := leaveQueue_findEvent ..
  rw [left] at found_
  have identity {e : EventIndex} (found : s.gate.findEvent number = some e) :
      ({ s.gate with command := c } : Gate).loadIdentity number
        = if (s.gate.event e).phase = .retiring then some .busy else some .duplicateEvent := by
    rw [Gate.loadIdentity, found_, found]
    rfl
  refine ⟨fun form => refused (loadEvent_badForm form), fun form range => refused (loadEvent_range form range),
    fun form range => ⟨fun e found retiring =>
        refused (loadEvent_identity form range ((identity found).trans (if_pos retiring))),
      fun e found other => refused (loadEvent_identity form range ((identity found).trans (if_neg other))),
      fun unknown full => refused (loadEvent_noRoom form range (found_.trans unknown) full),
      fun e unknown vacant lower => ?_⟩⟩
  have lanes := loadEvent_lanes (g := { s.gate with command := c }) form range (found_.trans unknown) vacant lower
  refine ⟨fun taken => refused (lanes.trans (if_neg (mt claimable_iff.mp taken))), fun free => ?_⟩
  have claimable := claimable_iff (g := { s.gate with command := c }).mpr free
  have answer := lanes.trans (if_pos claimable)
  rw [takeRecord_eq] at answer
  have run := exec_of_answered (i := .loadEvent) rfl begins coded ((congrArg (loadEvent q) left).trans answer)
  refine ⟨_, run, rfl, ?frame, fun z => ?zones,
    fun lane => ?kinds, ?record⟩
  case frame =>
    rw [left]
    simp only [answered, placeReply, bump, replies, coded, Gate.event, Fin.getElem_fin, Vector.getElem_set_self]
    rfl
  case zones =>
    exact onZones_zone (fun _ zone => { zone with substitutes := zone.substitutes.set e 0 }) s.gate z
  case kinds => exact laneKind_of_claimLanes (g := { s.gate with command := c }) rfl range free
  case record =>
    exact (Vector.getElem_set_self _).trans (loadFields_record range.1)

end Sys2Proof.Proofs

/-! PROOF. AMEND_EVENT (R52–R54): its checks, each field as it is written, and the statement AmendEventWritesItsFields. -/

namespace Sys2Proof.Machine

open Sys2Proof.Safety Sys2Proof.Claims

set_option Elab.async false

/-! ## The checks, in order (R52) -/

section Checks

variable {q : Request} {g : Gate} {f : AmendFields}

/-- R52: the fields given lie in their ranges. -/
structure AmendRange (g : Gate) (f : AmendFields) : Prop where
  mask : ∀ mask, f.mask = some mask → mask.toNat < 2 ^ (g.loader.zoneStraps.toNat + 1)
  ranges : ∀ ranges, f.ranges = some ranges → ranges.length ≤ 8 ∧ ∀ range ∈ ranges, range.low ≤ range.high
  cutoff : ∀ cutoff, f.cutoff = some cutoff → cutoff.toNat ≤ 240 ∨ cutoff = 255
  extraLimit : ∀ limit, f.extraLimit = some limit → limit.toNat ≤ 120

theorem all_given_iff {α : Type} {given : Option α} {p : α → Bool} :
    given.all p = true ↔ ∀ a, given = some a → p a = true := by
  cases given <;> simp

theorem amendInRange_iff : g.amendInRange f = true ↔ AmendRange g f := by
  simp only [Gate.amendInRange, Bool.and_eq_true, all_given_iff, maskInRange_iff, decide_eq_true_eq, rangesInRange_iff,
    cutoffInRange_iff, and_assoc]
  exact ⟨fun ⟨mask, ranges, cutoff, extraLimit⟩ => ⟨mask, ranges, cutoff, extraLimit⟩,
    fun ⟨mask, ranges, cutoff, extraLimit⟩ => ⟨mask, ranges, cutoff, extraLimit⟩⟩

theorem amendEvent_badForm (form : amendFormGood q = false) : amendEvent q g = refuse .badForm g := by
  simp [amendEvent, form]

theorem amendEvent_range (form : amendFormGood q = true) (range : ¬ AmendRange g (amendFields q.body)) :
    amendEvent q g = refuse .range g := by
  simp [amendEvent, form, mt amendInRange_iff.mp range]

theorem amendEvent_noEvent (form : amendFormGood q = true) (range : AmendRange g (amendFields q.body))
    (unknown : g.findEvent (amendFields q.body).number = none) : amendEvent q g = refuse .noEvent g := by
  simp [amendEvent, form, amendInRange_iff.mpr range, unknown]

variable {e : EventIndex}

theorem amendEvent_busy (form : amendFormGood q = true) (range : AmendRange g (amendFields q.body))
    (found : g.findEvent (amendFields q.body).number = some e) (retiring : (g.event e).phase = .retiring) :
    amendEvent q g = refuse .busy g := by
  simp [amendEvent, form, amendInRange_iff.mpr range, found, retiring]

theorem amendEvent_wrongPhase (form : amendFormGood q = true) (range : AmendRange g (amendFields q.body))
    (found : g.findEvent (amendFields q.body).number = some e) (live : (g.event e).phase ≠ .retiring)
    (given : (amendFields q.body).start ≠ none) (other : (g.event e).phase ≠ .onSale) :
    amendEvent q g = refuse .wrongPhase g := by
  have isSome := Option.isSome_iff_ne_none.mpr given
  simp [amendEvent, form, amendInRange_iff.mpr range, found, live, isSome, other]

theorem amendEvent_writes (form : amendFormGood q = true) (range : AmendRange g (amendFields q.body))
    (found : g.findEvent (amendFields q.body).number = some e) (live : (g.event e).phase ≠ .retiring)
    (dated : (amendFields q.body).start ≠ none → (g.event e).phase = .onSale) :
    amendEvent q g = { result := .ok, body := [], gate := writeAmend e (amendFields q.body) g } := by
  have timely : ¬ ((amendFields q.body).start.isSome ∧ (g.event e).phase ≠ .onSale) :=
    fun ⟨given, other⟩ => other (dated (Option.isSome_iff_ne_none.mp given))
  unfold amendEvent
  simp only [form, amendInRange_iff.mpr range, found]
  exact (if_neg live).trans (if_neg timely)

end Checks

/-! ## A RECOUNT is queued (R87) -/

section Recount

variable {e : EventIndex} {g : Gate}

theorem queueRecount_eq_upkeep : queueRecount e g = { g with upkeep := (queueRecount e g).upkeep } := by
  unfold queueRecount
  split
  · rfl
  · split
    · rfl
    · exact setTasks_eq_upkeep ..

theorem queueRecount_running (head : g.upkeep.tasks.head? = some (.recount e)) :
    (queueRecount e g).upkeep = { g.upkeep with cursor := 0, shadow := Vector.replicate 4 0 } := by
  rw [queueRecount, if_pos head]
  rfl

theorem queueRecount_merged (head : g.upkeep.tasks.head? ≠ some (.recount e)) (queued : Task.recount e ∈ g.upkeep.tasks) :
    (queueRecount e g).upkeep = g.upkeep := by
  rw [queueRecount, if_neg head, if_pos queued]

theorem queueRecount_first (empty : g.upkeep.tasks = []) : (queueRecount e g).upkeep
    = { g.upkeep with tasks := [.recount e], cursor := 0, shadow := Vector.replicate 4 0 } := by
  unfold queueRecount setTasks
  rw [if_neg (by simp [empty]), if_neg (by simp [empty]), if_neg (by simp [empty]), empty]
  rfl

theorem queueRecount_behind (busy : g.upkeep.tasks ≠ []) (absent : Task.recount e ∉ g.upkeep.tasks) :
    (queueRecount e g).upkeep = { g.upkeep with tasks := g.upkeep.tasks ++ [.recount e] } := by
  obtain ⟨head, rest, tasks⟩ := List.exists_cons_of_ne_nil busy
  have other : g.upkeep.tasks.head? ≠ some (.recount e) := fun same => absent (List.mem_of_head? same)
  unfold queueRecount setTasks
  rw [if_neg other, if_neg absent, if_pos (by simp [tasks])]

end Recount

/-! ## Zones newly blacked (R53) -/

section Blacked

variable {e : EventIndex} {old : BitVec 4} {g : Gate}

/-- R53: the mask that event e has now blacks zone z and the mask it had did not. -/
def NewlyBlack (e : EventIndex) (old : BitVec 4) (g : Gate) (z : ZoneIndex) : Bool :=
  (g.event e).mask.getLsbD z.val && !old.getLsbD z.val

/-- R53: a leg without its open assembly cells of one zone, where that zone is newly blacked. -/
def Leg.blacked (black : ZoneIndex → Bool) (z : ZoneIndex) (leg : Leg) : Leg :=
  { leg with cells := if black z then leg.cells.set z [] else leg.cells }

/-- R53: a fresh queue without the entries of event e, where its zone is newly blacked. -/
def Zone.blacked (e : EventIndex) (black : Bool) (zone : Zone) : Zone :=
  { zone with fresh := zone.fresh.filter (fun entry => !(black && decide (entry.event = e))) }

theorem filter_none_blacked (fresh : List FreshEntry) :
    fresh.filter (fun entry => !(false && decide (entry.event = e))) = fresh :=
  List.filter_eq_self.mpr fun _ _ => rfl

theorem blackZone_black {z : ZoneIndex} (black : NewlyBlack e old g z = true) :
    blackZone e old z g = discardCells e z (purgeFresh (fun entry => entry.event = e) z g) :=
  if_pos black

theorem blackZone_unblack {z : ZoneIndex} (black : NewlyBlack e old g z = false) : blackZone e old z g = g :=
  if_neg (Bool.eq_false_iff.mp black)

theorem discardCells_leg (i : EventIndex) (z : ZoneIndex) (slot : SheetSlot) : (discardCells e z g).leg i slot
    = if i = e then (g.leg i slot).map (fun leg => { leg with cells := leg.cells.set z [] }) else g.leg i slot := by
  unfold discardCells
  dsimp only
  by_cases same : i = e
  · subst same
    rw [if_pos rfl]
    cases slot with
    | current => rw [setLeg_leg_other (.inr (by decide)), setLeg_leg_same]
    | pending => rw [setLeg_leg_same]
  · rw [if_neg same, setLeg_leg_other (.inl same), setLeg_leg_other (.inl same)]

theorem blackZone_eq (z : ZoneIndex) : blackZone e old z g = { g with
    zones := (blackZone e old z g).zones, walker := { g.walker with roster := (blackZone e old z g).walker.roster } } := by
  unfold blackZone
  split <;> rfl

theorem blackZone_newlyBlack (z : ZoneIndex) : NewlyBlack e old (blackZone e old z g) = NewlyBlack e old g := by
  rw [blackZone_eq]
  rfl

theorem blackZone_leg (i : EventIndex) (z : ZoneIndex) (slot : SheetSlot) : (blackZone e old z g).leg i slot
    = if i = e then (g.leg i slot).map (Leg.blacked (NewlyBlack e old g) z) else g.leg i slot := by
  unfold Leg.blacked
  cases black : NewlyBlack e old g z with
  | true =>
    rw [blackZone_black black, discardCells_leg]
    rfl
  | false =>
    rw [blackZone_unblack black]
    split
    · exact Option.map_id'.symm
    · rfl

theorem blackZone_zone (y z : ZoneIndex) : (blackZone e old z g).zone y
    = if y = z then Zone.blacked e (NewlyBlack e old g z) (g.zone y) else g.zone y := by
  unfold Zone.blacked
  cases black : NewlyBlack e old g z with
  | true =>
    rw [blackZone_black black]
    exact purgeFresh_zone ..
  | false => rw [blackZone_unblack black, filter_none_blacked, ite_self]

theorem blackedCells_get (black : Bool) (z : ZoneIndex) (cells : Vector (List Decoder) 4) (i : Nat) (small : i < 4) :
    (if black then cells.set z [] else cells)[i]
      = if z.val = i then (if black then [] else cells[i]) else cells[i] := by
  cases black with
  | true => exact Vector.getElem_set z.isLt small
  | false => exact (ite_self _).symm

/-- R53: what the blacking of zones, each in turn, does to the part. -/
structure Blacks (e : EventIndex) (black : ZoneIndex → Bool) (g h : Gate) : Prop where
  gate : h = { g with zones := h.zones, walker := { g.walker with roster := h.walker.roster } }
  zone : ∀ z, h.zone z = Zone.blacked e (black z) (g.zone z)
  others : ∀ i slot, i ≠ e → h.leg i slot = g.leg i slot
  leg : ∀ slot, h.leg e slot = (g.leg e slot).map (fun leg =>
    { leg with cells := Vector.ofFn (fun z : Fin 4 => if black z then [] else leg.cells[z]) })

theorem blackZones_blacks : Blacks e (NewlyBlack e old g) g (allZones.foldl (fun acc z => blackZone e old z acc) g) := by
  show Blacks e _ g (blackZone e old 3 (blackZone e old 2 (blackZone e old 1 (blackZone e old 0 g))))
  refine ⟨?gate, fun z => ?zone, fun i slot other => ?others, fun slot => ?leg⟩
  case gate => rw [blackZone_eq, blackZone_eq 2, blackZone_eq 1, blackZone_eq 0]
  case zone =>
    simp only [blackZone_zone, blackZone_newlyBlack]
    obtain rfl | rfl | rfl | rfl : z = 0 ∨ z = 1 ∨ z = 2 ∨ z = 3 := by simpa [allZones] using mem_allZones z
    all_goals rfl
  case others => simp only [blackZone_leg, if_neg other]
  case leg =>
    simp only [blackZone_leg, blackZone_newlyBlack, if_true, Option.map_map]
    refine congrFun (congrArg Option.map (funext fun leg => ?_)) _
    simp only [Function.comp, Leg.blacked]
    refine congrArg (fun cells => { leg with cells := cells }) (Vector.ext fun i small => ?_)
    simp only [blackedCells_get, Vector.getElem_ofFn]
    obtain rfl | rfl | rfl | rfl : i = 0 ∨ i = 1 ∨ i = 2 ∨ i = 3 := by omega
    all_goals rfl

end Blacked

/-! ## Each field as it is written (R52–R54) -/

section Fields

variable {e : EventIndex} {f : AmendFields} {g : Gate} {ev : Event}

/-- R53: the mask given. -/
def AmendFields.masked (f : AmendFields) (ev : Event) : Event :=
  { ev with mask := (f.mask.map (fun mask => mask.setWidth 4)).getD ev.mask }

/-- R54: the ranges given, with the recount flag. -/
def AmendFields.ranged (f : AmendFields) (ev : Event) : Event :=
  { ev with ranges := f.ranges.getD ev.ranges, recountFlag := ev.recountFlag || f.ranges.isSome }

/-- R54: the scheduled start given, with the deadline. -/
def AmendFields.started (f : AmendFields) (ev : Event) : Event :=
  { ev with scheduledStart := f.start.getD ev.scheduledStart, deadline := f.start.getD ev.deadline }

/-- R54: the cutoff given. -/
def AmendFields.cutOff (f : AmendFields) (ev : Event) : Event :=
  { ev with cutoff := f.cutoff.getD ev.cutoff }

/-- R54: the extra limit given, with the deadline it governs. -/
def AmendFields.limited (f : AmendFields) (ev : Event) : Event :=
  { ev with
    extraLimit := f.extraLimit.getD ev.extraLimit
    deadline :=
      if f.extraLimit ≠ none ∧ ev.deadlinePhase = .extra then
        table33 { ev with extraLimit := f.extraLimit.getD ev.extraLimit } ev.entryTime .extra
      else ev.deadline }

/-- R54: the grace given, with the deadline it governs. -/
def AmendFields.graced (f : AmendFields) (ev : Event) : Event :=
  { ev with
    grace := (f.grace.map clampGrace).getD ev.grace
    deadline :=
      if f.grace ≠ none ∧ ev.deadlinePhase = .windDown then
        table33 { ev with grace := (f.grace.map clampGrace).getD ev.grace } ev.entryTime .windDown
      else ev.deadline }

theorem redate_eq (p : Phase) (ev : Event) : Event.redate p ev
    = { ev with deadline := if ev.deadlinePhase = p then table33 ev ev.entryTime p else ev.deadline } := by
  unfold Event.redate
  split
  · rw [deadlineFor_eq_table33]
  · rfl

theorem applyGiven_start : applyGiven f.start (amendStart e) g = modEvent e f.started g := by
  unfold AmendFields.started
  cases f.start with
  | none => exact (modEvent_of_same rfl).symm
  | some start => rfl

theorem applyGiven_cutoff :
    applyGiven f.cutoff (fun cutoff => modEvent e (fun ev => { ev with cutoff := cutoff })) g = modEvent e f.cutOff g := by
  unfold AmendFields.cutOff
  cases f.cutoff with
  | none => exact (modEvent_of_same rfl).symm
  | some cutoff => rfl

theorem applyGiven_extra : applyGiven f.extraLimit (amendExtra e) g = modEvent e f.limited g := by
  unfold AmendFields.limited
  cases f.extraLimit with
  | none => exact (modEvent_of_same (by simp)).symm
  | some limit =>
    simp only [applyGiven, amendExtra, redate_eq, ne_eq, reduceCtorEq, not_false_eq_true, true_and]
    rfl

theorem applyGiven_grace : applyGiven f.grace (amendGrace e) g = modEvent e f.graced g := by
  unfold AmendFields.graced
  cases f.grace with
  | none => exact (modEvent_of_same (by simp)).symm
  | some grace =>
    simp only [applyGiven, amendGrace, redate_eq, ne_eq, reduceCtorEq, not_false_eq_true, true_and]
    rfl

/-- R52–R54: an event record with the fields given. -/
def AmendFields.amended (f : AmendFields) (ev : Event) : Event :=
  f.graced (f.limited (f.cutOff (f.started (f.ranged (f.masked ev)))))

theorem amended_frame : f.amended ev = { ev with
    mask := (f.mask.map (fun mask => mask.setWidth 4)).getD ev.mask
    ranges := f.ranges.getD ev.ranges
    recountFlag := ev.recountFlag || f.ranges.isSome
    scheduledStart := f.start.getD ev.scheduledStart
    cutoff := f.cutoff.getD ev.cutoff
    extraLimit := f.extraLimit.getD ev.extraLimit
    grace := (f.grace.map (fun grace => BitVec.ofNat 8 (max 1 (min grace.toNat 240)))).getD ev.grace
    deadline := (f.amended ev).deadline } := rfl

theorem amended_deadline (dated : f.start ≠ none → ev.phase = .onSale) : (f.amended ev).deadline
    = if f.start ≠ none then f.start.getD none
      else if f.extraLimit ≠ none ∧ ev.deadlinePhase = .extra then table33 (f.amended ev) ev.entryTime .extra
      else if f.grace ≠ none ∧ ev.deadlinePhase = .windDown then table33 (f.amended ev) ev.entryTime .windDown
      else ev.deadline := by
  have whole : (f.amended ev).deadline
      = if f.grace ≠ none ∧ ev.deadlinePhase = .windDown then table33 (f.amended ev) ev.entryTime .windDown
        else if f.extraLimit ≠ none ∧ ev.deadlinePhase = .extra then table33 (f.amended ev) ev.entryTime .extra
        else f.start.getD ev.deadline := rfl
  rw [whole]
  by_cases given : f.start = none
  · rw [if_neg (not_not.mpr given), given, Option.getD_none]
    by_cases extra : f.extraLimit ≠ none ∧ ev.deadlinePhase = .extra
    · have other : ¬ (f.grace ≠ none ∧ ev.deadlinePhase = .windDown) := by simp [extra.2]
      rw [if_neg other, if_pos extra, if_pos extra]
    · rw [if_neg extra, if_neg extra]
  · have onSale : ev.deadlinePhase = .onSale := by simp [Event.deadlinePhase, dated given]
    obtain ⟨start, same⟩ := Option.ne_none_iff_exists'.mp given
    simp [onSale, same]

/-- R52–R54: the record, and beside it what the mask and the ranges change. -/
theorem writeAmend_eq : writeAmend e f g
    = modEvent e (fun ev => f.graced (f.limited (f.cutOff (f.started ev))))
        (applyGiven f.ranges (amendRanges e) (applyGiven f.mask (amendMask e) g)) := by
  unfold writeAmend
  rw [applyGiven_grace, applyGiven_extra, applyGiven_cutoff, applyGiven_start]
  simp only [modEvent, Gate.setEvent, Gate.event, Fin.getElem_fin, Vector.getElem_set_self, Vector.set_set]

theorem Blacks.none {black : ZoneIndex → Bool} (unblack : ∀ z, black z = false) : Blacks e black g g := by
  refine ⟨rfl, fun z => ?zone, fun _ _ _ => rfl, fun slot => ?leg⟩
  case zone =>
    unfold Zone.blacked
    rw [unblack z, filter_none_blacked]
  case leg =>
    simp only [unblack, Bool.false_eq_true, if_false]
    have same (leg : Leg) : Vector.ofFn (fun z : Fin 4 => leg.cells[z]) = leg.cells :=
      Vector.ext fun i small => Vector.getElem_ofFn small
    simp only [same]
    exact Option.map_id'.symm

theorem applyGiven_mask : Blacks e (NewlyBlack e (g.event e).mask (modEvent e f.masked g)) (modEvent e f.masked g)
    (applyGiven f.mask (amendMask e) g) := by
  unfold AmendFields.masked
  cases f.mask with
  | none =>
    rw [modEvent_of_same rfl]
    exact .none fun z => by simp [NewlyBlack]
  | some mask => exact blackZones_blacks

/-- R87: the maintenance list alone decides how a RECOUNT is queued. -/
theorem queueRecount_upkeep_congr {h : Gate} (same : h.upkeep = g.upkeep) :
    (queueRecount e h).upkeep = (queueRecount e g).upkeep := by
  have like : h = { h with upkeep := g.upkeep } := by rw [← same]
  rw [like]
  unfold queueRecount setTasks
  dsimp only
  split
  · rfl
  · split
    · rfl
    · split <;> rfl

theorem applyGiven_ranges : applyGiven f.ranges (amendRanges e) g = { modEvent e f.ranged g with
    upkeep := if f.ranges = none then g.upkeep else (queueRecount e g).upkeep } := by
  unfold AmendFields.ranged
  cases f.ranges with
  | none =>
    rw [modEvent_of_same (by simp)]
    rfl
  | some ranges =>
    unfold applyGiven amendRanges
    dsimp only
    rw [queueRecount_eq_upkeep, queueRecount_upkeep_congr (g := g) (h := modEvent e _ g) rfl, if_neg (by simp)]
    simp

/-- R52–R54: all that an AMEND_EVENT writes. -/
structure Amends (e : EventIndex) (f : AmendFields) (g h : Gate) : Prop where
  gate : h = { g with
    events := g.events.set e (f.amended (g.event e))
    upkeep := if f.ranges = none then g.upkeep else (queueRecount e g).upkeep
    walker := { g.walker with roster := h.walker.roster }
    zones := h.zones }
  zone : ∀ z, h.zone z = Zone.blacked e (NewlyBlack e (g.event e).mask h z) (g.zone z)
  others : ∀ i slot, i ≠ e → h.leg i slot = g.leg i slot
  leg : ∀ slot, h.leg e slot = (g.leg e slot).map (fun leg =>
    { leg with
      cells := Vector.ofFn (fun z : Fin 4 => if NewlyBlack e (g.event e).mask h z then [] else leg.cells[z]) })

theorem Amends.event {h : Gate} (amends : Amends e f g h) : h.event e = f.amended (g.event e) := by
  rw [amends.gate]
  exact Vector.getElem_set_self _

theorem Amends.other {i : EventIndex} {h : Gate} (amends : Amends e f g h) (other : i ≠ e) : h.event i = g.event i := by
  rw [amends.gate]
  exact Vector.getElem_set_ne e.isLt i.isLt (Fin.val_ne_of_ne other.symm)

theorem writeAmend_frame : writeAmend e f g = { g with
    events := g.events.set e (f.amended (g.event e))
    upkeep := if f.ranges = none then g.upkeep else (queueRecount e g).upkeep
    walker := { g.walker with roster := (writeAmend e f g).walker.roster }
    zones := (writeAmend e f g).zones } := by
  have blacks := applyGiven_mask (e := e) (f := f) (g := g)
  rw [writeAmend_eq, applyGiven_ranges]
  obtain ⟨m, same⟩ : ∃ m, applyGiven f.mask (amendMask e) g = m := ⟨_, rfl⟩
  rw [same] at blacks ⊢
  obtain ⟨zones, roster, rfl⟩ : ∃ zones roster, m
    = { modEvent e f.masked g with zones := zones, walker := { g.walker with roster := roster } } := ⟨_, _, blacks.gate⟩
  rw [queueRecount_upkeep_congr (g := g)
    (h := { modEvent e f.masked g with zones := zones, walker := { g.walker with roster := roster } }) rfl]
  simp only [modEvent, Gate.setEvent, Gate.event, Fin.getElem_fin, Vector.getElem_set_self, Vector.set_set]
  rfl

theorem writeAmend_event : (writeAmend e f g).event e = f.amended (g.event e) := by
  rw [writeAmend_frame]
  exact Vector.getElem_set_self _

theorem writeAmend_zone (z : ZoneIndex) : (writeAmend e f g).zone z = (applyGiven f.mask (amendMask e) g).zone z := by
  rw [writeAmend_eq, applyGiven_ranges]
  rfl

theorem writeAmend_leg (i : EventIndex) (slot : SheetSlot) :
    (writeAmend e f g).leg i slot = (applyGiven f.mask (amendMask e) g).leg i slot := by
  rw [writeAmend_eq, applyGiven_ranges]
  rfl

theorem amended_mask : (f.amended ev).mask = (f.masked ev).mask := rfl

theorem writeAmend_amends : Amends e f g (writeAmend e f g) := by
  obtain ⟨-, zone, others, leg⟩ := applyGiven_mask (e := e) (f := f) (g := g)
  have black : NewlyBlack e (g.event e).mask (writeAmend e f g) = NewlyBlack e (g.event e).mask (modEvent e f.masked g) := by
    unfold NewlyBlack
    rw [writeAmend_event, modEvent_event_same, amended_mask]
  refine ⟨writeAmend_frame, fun z => ?_, fun i slot other => ?_, fun slot => ?_⟩
  · rw [black, writeAmend_zone]
    exact zone z
  · rw [writeAmend_leg]
    exact others i slot other
  · rw [black, writeAmend_leg]
    exact leg slot

end Fields

end Sys2Proof.Machine

namespace Sys2Proof.Proofs

open Sys2Proof.Machine Sys2Proof.Safety Sys2Proof.Claims

set_option Elab.async false

/-- Settles O42: the checks in order, then `writeAmend_amends` for what is written and `amended_deadline` for the deadline. -/
theorem amendEventWritesItsFields : Obligations.AmendEventWritesItsFields := by
  intro s q begins coded g f inRange
  obtain ⟨c, left, replies⟩ := leaveQueue_left s.gate
  have refused {r : Result} (answer : amendEvent q (leaveQueue s.gate) = refuse r (leaveQueue s.gate)) :
      exec .amendEvent s = .next (turnedAway s q r) := exec_of_refused (i := .amendEvent) rfl begins coded answer
  have found_ : (leaveQueue s.gate).findEvent f.number = s.gate.findEvent f.number := leaveQueue_findEvent ..
  rw [left] at refused found_
  have range : inRange ↔ AmendRange { s.gate with command := c } f :=
    ⟨fun ⟨mask, ranges, cutoff, extraLimit⟩ => ⟨mask, ranges, cutoff, extraLimit⟩,
      fun ⟨mask, ranges, cutoff, extraLimit⟩ => ⟨mask, ranges, cutoff, extraLimit⟩⟩
  refine ⟨fun form => refused (amendEvent_badForm form),
    fun form outside => refused (amendEvent_range form (mt range.mpr outside)), fun form inside =>
      ⟨fun unknown => refused (amendEvent_noEvent form (range.mp inside) (found_.trans unknown)), fun e found => ?_⟩⟩
  replace found := found_.trans found
  replace inside := range.mp inside
  intro ev entry limited
  refine ⟨fun retiring => refused (amendEvent_busy form inside found retiring),
    fun live given other => refused (amendEvent_wrongPhase form inside found live given other), fun live dated => ?_⟩
  have run := exec_of_answered (i := .amendEvent) rfl begins coded
    ((congrArg (amendEvent q) left).trans (amendEvent_writes form inside found live dated))
  have amends : Amends e f { s.gate with command := c } (writeAmend e f { s.gate with command := c }) := writeAmend_amends
  obtain ⟨w, written⟩ : ∃ w, writeAmend e f { s.gate with command := c } = w := ⟨_, rfl⟩
  rw [written] at amends
  have record : w.event e = f.amended ev := amends.event
  have upkeep := congrArg Gate.upkeep amends.gate
  rw [written] at run
  have upkeep : w.upkeep = if f.ranges = none then s.gate.upkeep else (queueRecount e s.gate).upkeep :=
    (congrArg Gate.upkeep amends.gate).trans
      (by rw [queueRecount_upkeep_congr (g := s.gate) (h := { s.gate with command := c }) rfl])
  refine ⟨_, run, rfl, ?frame, ?record, ?deadline, fun i => amends.other, fun none_ => upkeep.trans (if_pos none_),
    fun given => ?upkeep, amends.zone, fun i slot => amends.others i slot, amends.leg⟩
  case upkeep =>
    replace upkeep := upkeep.trans (if_neg given)
    exact ⟨fun head => upkeep.trans (queueRecount_running head),
      fun head queued => upkeep.trans (queueRecount_merged head queued), fun empty => upkeep.trans (queueRecount_first empty),
      fun busy absent => upkeep.trans (queueRecount_behind busy absent)⟩
  case frame =>
    have gate := amends.gate
    obtain ⟨events, zones, roster, after, rfl⟩ : ∃ events zones roster after, w = { s.gate with
        events := events, upkeep := after, walker := { s.gate.walker with roster := roster }, zones := zones, command := c } :=
      ⟨_, _, _, _, gate⟩
    have command : (leaveQueue g).command = c := congrArg Gate.command left
    rw [command]
    simp only [answered, placeReply, bump, coded, replies]
    rfl
  case record =>
    exact (record.trans amended_frame).trans (by rw [← record]; rfl)
  case deadline =>
    refine (congrArg Event.deadline record).trans ((amended_deadline dated).trans ?_)
    rw [← record]
    rfl

end Sys2Proof.Proofs

/-! PROOF. The commands that only read (READ_EVENT, R57; READ_HOLDER, R97; DUMP, R98) and the course of a PURCHASE (R103): what
each reply holds, and the statements ReadEventAndDumpChangeNothing, ReadHolderReturnsTheRecord and PurchaseIsTakenItemByItem. -/

namespace Sys2Proof.Machine

open Sys2Proof.Safety Sys2Proof.Claims

set_option Elab.async false

/-! ## A command at the table (R85, R172) -/

section AtTable

variable {s : State} {q : Request} {code : Byte} {meaning : Request → Gate → Answer} {i : Instr}

theorem granting_eq (g : Gate) : granting g = granted .command (leaveQueue g) := by
  unfold granting granted
  rw [leaveQueue_upkeep]

theorem executeAtTable_of_begins (begins : Begins s.gate q) (turn : Turn s.gate .command) (coded : q.code = code) :
    s.onGate (executeAtTable code meaning) = .next (answered s q (meaning q (granting s.gate))) := by
  obtain ⟨cell, rest, queue, rfl⟩ := begins.head
  rw [onGate_eq, executeAtTable_runs queue (canBegin_of begins.ready begins.room) coded begins.length turn, granting_eq]
  rfl

theorem exec_atTable_answered {a : Answer} (row : effect i = executeAtTable code meaning) (begins : Begins s.gate q)
    (turn : Turn s.gate .command) (coded : q.code = code) (answer : meaning q (granting s.gate) = a) :
    exec i s = .next (answered s q a) := by
  rw [← answer, ← executeAtTable_of_begins begins turn coded, exec_eq_effect, row]
  rfl

theorem exec_atTable_refused {r : Result} (row : effect i = executeAtTable code meaning) (begins : Begins s.gate q)
    (turn : Turn s.gate .command) (coded : q.code = code)
    (answer : meaning q (granting s.gate) = refuse r (granting s.gate)) :
    exec i s = .next (turnedAwayAtTable s q r) :=
  exec_atTable_answered row begins turn coded answer

/-- R85: what the leaving of a command and the grant of the table leave of the part. -/
theorem granting_left (g : Gate) : ∃ c, (granting g = { g with
      command := c, upkeep := { g.upkeep with lastGrant := .command } } ∧ (leaveQueue g).command = c) ∧
    c.replies = g.command.replies := by
  obtain ⟨c, left, replies⟩ := leaveQueue_left g
  exact ⟨c, ⟨by rw [granting, left], congrArg Gate.command left⟩, replies⟩

theorem granting_findEvent (g : Gate) (number : Half) : (granting g).findEvent number = g.findEvent number :=
  leaveQueue_findEvent ..

theorem granting_event (g : Gate) (e : EventIndex) : (granting g).event e = g.event e :=
  leaveQueue_event ..

theorem granting_holders (g : Gate) : (granting g).holders = g.holders := by
  rw [granting, leaveQueue_eq_command]

theorem granting_findHolder (g : Gate) (d : Decoder) : findHolder d (granting g) = findHolder d g :=
  findHolder_congr (by rw [granting_holders]; exact fun _ _ => rfl)

theorem decoderInRange_iff {d : Decoder} : decoderInRange d = true ↔ ¬ BadDecoder d := by
  simp [decoderInRange, BadDecoder, allDecoders]

theorem decoderInRange_eq_false {d : Decoder} : decoderInRange d = false ↔ BadDecoder d := by
  rw [← Bool.not_eq_true, decoderInRange_iff, not_not]

end AtTable

/-! ## An event record as read back (R57, Table 28) -/

section RecordRead

variable {e : EventIndex} {ev : Event}

@[simp] theorem field_length (n v : Nat) : (field n v).length = n := by
  induction n with
  | zero => rfl
  | succ n ih => rw [field, List.length_cons, ih]

@[simp] theorem padTo_length (n : Nat) (bytes : List Byte) : (padTo n bytes).length = n := by
  simp [padTo]

@[simp] theorem optionalTime_length (t : Option Time) : (optionalTime t).length = 6 := by
  cases t <;> simp [optionalTime]

@[simp] theorem lanesRead_length : (lanesRead ev).length = 13 := by
  simp [lanesRead]
  omega

@[simp] theorem rangesRead_length (ranges : List Range) : (rangesRead ranges).length = 33 := by
  simp [rangesRead]

@[simp] theorem sheetRead_length (sheet : Option Sheet) : (sheetRead sheet).length = 11 := by
  cases sheet <;> simp [sheetRead]

@[simp] theorem cueRead_length (sequence : Option Byte) : (cueRead sequence).length = 2 := by
  cases sequence <;> rfl

/-- Table 28: the alternate lane as read back. -/
def alternateRead (ev : Event) : List Byte :=
  match ev.alternateLane with
  | some lane => field 2 lane.toNat
  | none => [0xFF, 0xFF]

@[simp] theorem alternateRead_length : (alternateRead ev).length = 2 := by
  unfold alternateRead
  split <;> simp

/-- Table 28: the bytes of a record before its counts. -/
def recordFields (e : EventIndex) (ev : Event) : List Byte :=
  [eventObject e] ++ field 2 ev.number.toNat ++ [ev.phase.number] ++ lanesRead ev ++ field 2 ev.keyLane.toNat
    ++ alternateRead ev
    ++ [ev.mask.setWidth 8] ++ rangesRead ev.ranges ++ field 2 ev.epoch.toNat ++ [ev.previewLength]
    ++ optionalTime ev.scheduledStart ++ [ev.cutoff, ev.extraLimit, ev.grace]
    ++ optionalTime ev.liveStamp ++ field 6 ev.currentEntry.toNat ++ optionalTime ev.previousEntry
    ++ [optionalPhase ev.previousPhase, optionalPhase ev.resumePhase] ++ optionalTime ev.deadline
    ++ cueRead ev.lastCue ++ sheetRead ev.current ++ sheetRead ev.pendingSheet ++ field 2 ev.starvation.toNat
    ++ optionalTime ev.base

theorem recordFields_length : (recordFields e ev).length = 125 := by
  unfold recordFields
  simp only [List.length_append, List.length_cons, List.length_nil, field_length, optionalTime_length,
    lanesRead_length, rangesRead_length, sheetRead_length, cueRead_length, alternateRead_length]

theorem recordRead_eq : recordRead e ev = recordFields e ev
    ++ ((allZones.flatMap fun z => field 2 (ev.counts[z]).val) ++ [if ev.recountFlag then 1 else 0]) := by
  unfold recordRead recordFields alternateRead
  cases ev.alternateLane <;> simp only [List.append_assoc]

theorem recordRead_length : (recordRead e ev).length = 134 := by
  simp [recordRead_eq, recordFields_length, allZones]

theorem recordRead_take_four :
    (recordRead e ev).take 4 = [BitVec.ofNat 8 e.val] ++ field 2 ev.number.toNat ++ [ev.phase.number] := by
  have first : ([BitVec.ofNat 8 e.val] ++ field 2 ev.number.toNat ++ [ev.phase.number]).length = 4 := rfl
  rw [recordRead_eq]
  unfold recordFields
  simp only [List.append_assoc]
  rw [← List.append_assoc (field 2 _), ← List.append_assoc [eventObject e], ← List.append_assoc [eventObject e]]
  exact List.take_left' first

theorem optionalTime_eq (t : Option Time) : optionalTime t = timeRead t := by
  cases t <;> rfl

theorem optionalPhase_eq (p : Option Phase) : optionalPhase p = phaseRead p := by
  cases p <;> rfl

theorem sheetRead_eq (sheet : Option Sheet) : sheetRead sheet = slotRead sheet := by
  cases sheet with
  | none => rfl
  | some held =>
    obtain ⟨number, effective, cls⟩ := held
    cases cls <;> rfl

theorem cueRead_eq (sequence : Option Byte) :
    cueRead sequence = (sequence.map (fun n => [0x00, n])).getD [0xFF, 0xFF] := by
  cases sequence <;> rfl

theorem alternateRead_eq : alternateRead ev = (ev.alternateLane.map (fun lane => field 2 lane.toNat)).getD [0xFF, 0xFF] := by
  unfold alternateRead
  cases ev.alternateLane <;> rfl

theorem flatMap_field_length {α : Type} (width : Nat) (f : α → List Byte) (each : ∀ a, (f a).length = width) (items : List α) :
    (items.flatMap f).length = width * items.length := by
  induction items with
  | nil => rfl
  | cons a items ih => simp [each, ih, Nat.mul_add, Nat.add_comm]

theorem lanesRead_eq (few : ev.moreLanes.length ≤ 5) : lanesRead ev = [BitVec.ofNat 8 (1 + ev.moreLanes.length)]
    ++ (ev.firstLane :: ev.moreLanes).flatMap (fun lane => field 2 lane.toNat)
    ++ List.replicate (2 * (5 - ev.moreLanes.length)) 0xFF := by
  have length := flatMap_field_length 2 (fun lane : Lane => field 2 lane.toNat) (fun _ => field_length ..)
    (ev.firstLane :: ev.moreLanes)
  have fits : 2 * (ev.firstLane :: ev.moreLanes).length ≤ 12 := by rw [List.length_cons]; omega
  have rest : 12 - 2 * (ev.firstLane :: ev.moreLanes).length = 2 * (5 - ev.moreLanes.length) := by
    rw [List.length_cons]; omega
  unfold lanesRead
  dsimp only
  rw [List.take_append, length, List.take_of_length_le (by rw [length]; exact fits), List.take_replicate, rest,
    Nat.min_eq_left (by omega), List.length_cons, Nat.add_comm]
  rfl

theorem rangesRead_eq (few : ev.ranges.length ≤ 8) : rangesRead ev.ranges = [BitVec.ofNat 8 ev.ranges.length]
    ++ ev.ranges.flatMap (fun range => field 2 range.low.toNat ++ field 2 range.high.toNat)
    ++ List.replicate (4 * (8 - ev.ranges.length)) 0 := by
  have length := flatMap_field_length 4 (fun range : Range => field 2 range.low.toNat ++ field 2 range.high.toNat)
    (fun _ => by rw [List.length_append, field_length, field_length]) ev.ranges
  have rest : 32 - 4 * ev.ranges.length = 4 * (8 - ev.ranges.length) := by omega
  unfold rangesRead padTo
  rw [List.take_append, length, List.take_of_length_le (by rw [length]; omega), List.take_replicate, rest,
    Nat.min_eq_left (by omega)]
  rfl

theorem recordFields_eq (lanes : ev.moreLanes.length ≤ 5) (ranges : ev.ranges.length ≤ 8) :
    recordFields e ev = table28 e ev := by
  unfold recordFields table28
  rw [lanesRead_eq lanes, rangesRead_eq ranges, alternateRead_eq, cueRead_eq]
  simp only [optionalTime_eq, optionalPhase_eq, sheetRead_eq, List.append_assoc]
  rfl

theorem recordRead_take (lanes : ev.moreLanes.length ≤ 5) (ranges : ev.ranges.length ≤ 8) :
    (recordRead e ev).take 125 = table28 e ev := by
  rw [recordRead_eq, List.take_left' recordFields_length, recordFields_eq lanes ranges]

theorem recordRead_drop : (recordRead e ev).drop 125
    = (allZones.flatMap fun z => field 2 (ev.counts[z]).val) ++ [if ev.recountFlag then 1 else 0] := by
  rw [recordRead_eq, List.drop_left' recordFields_length]

end RecordRead

/-! ## DUMP (R98) -/

section Dump

variable {g : Gate}

/-- R98: the records of the buckets from one on, n of them. -/
def bucketsFrom (g : Gate) (start n : Nat) : List Holder :=
  (List.range' start n).flatMap fun b => (bucketRecords (Fin.ofNat 8192 b) g).map Prod.snd

theorem bucketsFrom_succ (start n : Nat) : bucketsFrom g start (n + 1)
    = bucketsFrom g start n ++ (bucketRecords (Fin.ofNat 8192 (start + n)) g).map Prod.snd := by
  simp [bucketsFrom, List.range'_concat]

/-- R98: what the taking of buckets ends with, n of them having been taken and left still to take. -/
theorem dumpFrom_taken (left n start : Nat) (within : start + n ≤ 8192) (few : (bucketsFrom g start n).length ≤ 12) :
    ∃ m, n ≤ m ∧ m ≤ n + left ∧ start + m ≤ 8192 ∧ (bucketsFrom g start m).length ≤ 12 ∧
      dumpFrom g left (start + n) (bucketsFrom g start n) = (start + m, bucketsFrom g start m) ∧
      (start + m = 8192 ∨ m = n + left ∨
        12 < (bucketsFrom g start m).length + (bucketRecords (Fin.ofNat 8192 (start + m)) g).length) := by
  induction left generalizing n with
  | zero => exact ⟨n, Nat.le_refl n, Nat.le_refl n, within, few, rfl, .inr (.inl rfl)⟩
  | succ left ih =>
    unfold dumpFrom
    by_cases last : start + n < 8192
    · have bucket : (⟨start + n, last⟩ : Bucket) = Fin.ofNat 8192 (start + n) := Fin.ext (Nat.mod_eq_of_lt last).symm
      rw [dif_pos last, bucket]
      dsimp only
      rw [List.length_map]
      split
      · next fits =>
        have more : (bucketsFrom g start (n + 1)).length ≤ 12 := by
          rw [bucketsFrom_succ, List.length_append, List.length_map]
          exact fits
        obtain ⟨m, low, high, rest⟩ := ih (n + 1) last more
        rw [← bucketsFrom_succ]
        exact ⟨m, by omega, by omega, by simpa only [Nat.add_assoc, Nat.add_comm 1 left] using rest⟩
      · next exceeds =>
        exact ⟨n, Nat.le_refl n, Nat.le_add_right .., within, few, rfl, .inr (.inr (Nat.not_le.mp exceeds))⟩
    · rw [dif_neg last]
      exact ⟨n, Nat.le_refl n, Nat.le_add_right .., within, few, rfl, .inl (by omega)⟩

theorem dumpFrom_first {start : Nat} (within : start ≤ 8191) : ∃ next records,
    start < next ∧ next ≤ 8192 ∧ next ≤ start + 512 ∧ records.length ≤ 12 ∧
    records = bucketsFrom g start (next - start) ∧
    (next = 8192 ∨ next = start + 512 ∨ 12 < records.length + (bucketRecords (Fin.ofNat 8192 next) g).length) ∧
    dumpFrom g 512 start [] = (next, records) := by
  have small := bucketRecords_length (Fin.ofNat 8192 start) g
  obtain ⟨m, -, high, bound, few, taken, stop⟩ := dumpFrom_taken (g := g) 512 0 start (by omega) (Nat.zero_le 12)
  have some_ : 0 < m := by
    rcases Nat.eq_zero_or_pos m with rfl | some_
    · rcases stop with last | all | full
      · omega
      · omega
      · have none_ : (bucketsFrom g start 0).length = 0 := rfl
        rw [none_, Nat.add_zero] at full
        omega
    · exact some_
  refine ⟨start + m, bucketsFrom g start m, by omega, bound, by omega, few, by rw [Nat.add_sub_cancel_left], ?_, taken⟩
  rcases stop with last | all | full
  · exact .inl last
  · exact .inr (.inl (by omega))
  · exact .inr (.inr full)

end Dump

/-! ## Commands whose body is a decoder number -/

section WithHolder

variable {q : Request} {g : Gate} {run : Nat → Holder → Answer}

theorem withHolder_badForm (form : q.length ≠ 3) : withHolder q run g = refuse .badForm g := if_pos form

theorem withHolder_range (form : q.length = 3) (bad : BadDecoder (decoderAt q.body 0)) :
    withHolder q run g = refuse .range g := by
  unfold withHolder
  rw [if_neg (not_not.mpr form), if_pos (decoderInRange_eq_false.mpr bad)]

theorem withHolder_noHolder (form : q.length = 3) (good : ¬ BadDecoder (decoderAt q.body 0))
    (absent : findHolder (decoderAt q.body 0) g = none) : withHolder q run g = refuse .noHolder g := by
  unfold withHolder
  rw [if_neg (not_not.mpr form), if_neg (mt decoderInRange_eq_false.mp good), absent]

theorem withHolder_runs {key : Nat} {h : Holder} (form : q.length = 3) (good : ¬ BadDecoder (decoderAt q.body 0))
    (found : findHolder (decoderAt q.body 0) g = some (key, h)) : withHolder q run g = run key h := by
  unfold withHolder
  rw [if_neg (not_not.mpr form), if_neg (mt decoderInRange_eq_false.mp good), found]

end WithHolder

/-! ## A holder record as read back (R97, Table 14) -/

theorem flagBits_eq (h : Holder) : h.flagBits = (if h.isStatic = true then 1 else 0) + (if h.ageMark = true then 2 else 0)
    + (if h.barred = true then 4 else 0) + (if h.exempt = true then 8 else 0) := by
  unfold Holder.flagBits
  cases h.isStatic <;> cases h.ageMark <;> cases h.barred <;> cases h.exempt <;> rfl

theorem holderRead_length (h : Holder) : (holderRead h).length = 16 := by
  unfold holderRead
  simp only [List.length_append, List.length_cons, List.length_nil, field_length]

/-! ## PURCHASE (R103) -/

theorem itemsAt_eq (bytes : List Byte) (i n : Nat) : itemsAt bytes i n = (List.range n).map (fun k =>
    ({ decoder := decoderAt bytes (i + 8 * k)
       event := halfAt bytes (i + 8 * k + 3)
       zone := byteAt bytes (i + 8 * k + 5)
       region := halfAt bytes (i + 8 * k + 6) } : PurchaseItem)) := by
  induction n generalizing i with
  | zero => rfl
  | succ n ih =>
    rw [itemsAt, ih, range_map_succ]
    refine congrArg₂ List.cons rfl (List.map_congr_left fun k _ => ?_)
    rw [show i + 8 + 8 * k = i + 8 * (k + 1) by omega]

theorem purchaseFormGood_iff {q : Request} :
    purchaseFormGood q = true ↔ q.length ≠ 0 ∧ q.length ≤ 224 ∧ q.length % 8 = 0 := by
  simp only [purchaseFormGood, Bool.and_eq_true, decide_eq_true_eq, and_assoc]

theorem beginCommand_of_begins {s : State} {q : Request} {code : Byte} {run : Request → Gate → Gate}
    (begins : Begins s.gate q) (coded : q.code = code) : beginCommand code run s.gate = run q (leaveQueue s.gate) := by
  obtain ⟨cell, rest, queue, rfl⟩ := begins.head
  exact beginWhere_runs queue (canBegin_of begins.ready begins.room) (decide_eq_true coded) begins.length

theorem purchase_of_begins {s : State} {q : Request} (begins : Begins s.gate q) (coded : q.code = 0x20) :
    purchase s.gate = if purchaseFormGood q then takeUpItems q (leaveQueue s.gate)
      else placeReply q.tag q.code .badForm [] (leaveQueue s.gate) :=
  beginCommand_of_begins begins coded

theorem purchaseItem_taken {g : Gate} {tag : Half} {item : PurchaseItem} {left : List PurchaseItem} {results : List Result}
    (work : g.command.work = .purchasing tag (item :: left) results) (turn : Turn g .command) :
    purchaseItem g = takeItem tag item left results (granted .command g) := by
  unfold purchaseItem
  rw [work]
  exact if_pos turn

end Sys2Proof.Machine

namespace Sys2Proof.Proofs

open Sys2Proof.Machine Sys2Proof.Safety Sys2Proof.Claims

set_option Elab.async false

/-- Settles O44: the bytes of `recordRead`, and for DUMP the invariant of `dumpFrom` (`dumpFrom_taken`). -/
theorem readEventAndDumpChangeNothing : Obligations.ReadEventAndDumpChangeNothing := by
  refine ⟨fun e ev => ⟨recordRead_length, recordRead_take_four, recordRead_take, recordRead_drop⟩,
    fun s q begins coded => ⟨fun form => ?_, fun form => ⟨fun unknown => ?_, fun e found => ?_⟩⟩,
    fun s q begins turn coded => ⟨fun form => ?_, fun form high => ?_, fun form within => ?_⟩⟩
  · exact exec_of_refused (i := .readEvent) rfl begins coded (if_pos form)
  · refine exec_of_refused (i := .readEvent) rfl begins coded ?_
    rw [readEvent, if_neg (not_not.mpr form), leaveQueue_findEvent, unknown]
  · refine (exec_of_answered (i := .readEvent)
      (a := { result := .ok, body := recordRead e (s.gate.event e), gate := leaveQueue s.gate }) rfl begins coded
      ?_).trans (by rw [answered, coded])
    rw [readEvent, if_neg (not_not.mpr form), leaveQueue_findEvent, found]
    dsimp only
    rw [leaveQueue_event]
  · exact exec_atTable_refused (i := .dump) rfl begins turn coded (if_pos form)
  · exact exec_atTable_refused (i := .dump) rfl begins turn coded ((if_neg (not_not.mpr form)).trans (if_pos high))
  · obtain ⟨next, records, after, last, few, fits, taken, stop, dumped⟩ := dumpFrom_first (g := granting s.gate) within
    have buckets (b : Bucket) : bucketRecords b (granting s.gate) = bucketRecords b s.gate := by
      unfold bucketRecords
      rw [granting_holders]
    unfold bucketsFrom at taken
    simp only [buckets] at taken stop
    refine ⟨next, records, after, last, few, fits, taken, stop, ?_⟩
    refine (exec_atTable_answered (i := .dump) rfl begins turn coded
      ((if_neg (not_not.mpr form)).trans (if_neg (Nat.not_lt.mpr within)))).trans ?_
    rw [answered, coded, dumped]
    rfl

/-- Settles O45: `withHolder` with what READ_HOLDER gives. -/
theorem readHolderReturnsTheRecord : Obligations.ReadHolderReturnsTheRecord := by
  refine ⟨fun h => ⟨holderRead_length h, by rw [holderRead, flagBits_eq]⟩,
    fun s q begins turn coded => ⟨fun form => ?_, fun form bad => ?_, fun form low high =>
      ⟨fun absent => ?_, fun key h found => ?_⟩⟩⟩
  · exact exec_atTable_refused (i := .readHolder) rfl begins turn coded (withHolder_badForm form)
  · exact exec_atTable_refused (i := .readHolder) rfl begins turn coded (withHolder_range form bad)
  all_goals have good : ¬ BadDecoder (decoderAt q.body 0) := fun bad => bad.elim low high
  · exact exec_atTable_refused (i := .readHolder) rfl begins turn coded
      (withHolder_noHolder form good ((granting_findHolder ..).trans absent))
  · refine (exec_atTable_answered (i := .readHolder) rfl begins turn coded
      (withHolder_runs form good ((granting_findHolder ..).trans found))).trans ?_
    rw [answered, coded]

/-- Settles O46: the beginning of a PURCHASE and the branches of `afterItem`. -/
theorem purchaseIsTakenItemByItem : Obligations.PurchaseIsTakenItemByItem := by
  refine ⟨fun s q begins coded => ⟨fun form => exec_of_effect (i := .purchase) ?_, fun some_ few whole =>
      exec_of_effect (i := .purchase) ?_⟩,
    fun s tag item left results work turn => ⟨fun more => exec_of_effect (i := .purchaseItem) ?_,
      fun last => exec_of_effect (i := .purchaseItem) ?_⟩⟩
  · have bad : ¬ purchaseFormGood q = true := fun good => by
      obtain ⟨some_, few, whole⟩ := purchaseFormGood_iff.mp good
      rcases form with none_ | many | part
      · exact some_ none_
      · omega
      · exact part whole
    exact (purchase_of_begins begins coded).trans (if_neg bad)
  · refine (purchase_of_begins begins coded).trans ((if_pos (purchaseFormGood_iff.mpr ⟨some_, few, whole⟩)).trans ?_)
    rw [takeUpItems, itemsAt_eq]
    simp only [Nat.zero_add]
  · obtain ⟨next, rest, rfl⟩ := List.exists_cons_of_ne_nil more
    exact purchaseItem_taken work turn
  · subst last
    exact purchaseItem_taken work turn

end Sys2Proof.Proofs

/-! PROOF. A purchase item (R104–R109) and the refusals of the commands on holder records (R95–R97, R110–R116): the checks one by
one, and the statements PurchaseItemIsJudgedInOrder and HolderCommandsAreRefusedInOrder. -/

namespace Sys2Proof.Machine

open Sys2Proof.Safety Sys2Proof.Claims

set_option Elab.async false

/-! ## Zones and places -/

section Places

variable {g : Gate} {d : Decoder}

theorem strappedZone_none {zone : Byte} (above : g.loader.zoneStraps.toNat < zone.toNat) : g.strappedZone zone = none := by
  refine List.find?_eq_none.mpr fun z _ fits => ?_
  rw [Bool.and_eq_true, decide_eq_true_iff, driven_iff_le_straps] at fits
  omega

theorem strappedZone_some {zone : Byte} {z : ZoneIndex} (same : z.val = zone.toNat)
    (strapped : ¬ g.loader.zoneStraps.toNat < zone.toNat) : g.strappedZone zone = some z :=
  strappedZone_of_driven same ((driven_iff_le_straps g z).mpr (by omega))

theorem placement_tableFull (full : 32768 ≤ g.holders.length) : placement d g = .error .tableFull := if_pos full

theorem placement_bucketFull (room : g.holders.length < 32768) (full : BucketFull g d) :
    placement d g = .error .bucketFull := by
  have none_ : allWays.find? (fun way => (Sparse.get g.holders (slotKey (bucketOf d) way)).isNone) = none :=
    List.find?_eq_none.mpr fun way listed free => full way (mem_allWays.mp listed) (Option.isNone_iff_eq_none.mp free)
  unfold placement
  rw [if_neg (Nat.not_le.mpr room), none_]

theorem placement_lowest {way : Nat} (room : g.holders.length < 32768) (lowest : LowestFree g d way) :
    placement d g = .ok (wayKey d way) := by
  obtain ⟨below, free, taken⟩ := lowest
  have found : allWays.find? (fun way => (Sparse.get g.holders (slotKey (bucketOf d) way)).isNone) = some way := by
    have isTaken (v : Nat) (lower : v < way) : (Sparse.get g.holders (slotKey (bucketOf d) v)).isNone = false :=
      Bool.eq_false_iff.mpr fun isNone => taken v lower (Option.isNone_iff_eq_none.mp isNone)
    have isFree : (Sparse.get g.holders (slotKey (bucketOf d) way)).isNone = true := Option.isNone_iff_eq_none.mpr free
    obtain rfl | rfl | rfl | rfl : way = 0 ∨ way = 1 ∨ way = 2 ∨ way = 3 := by omega
    all_goals simp [allWays, isFree, isTaken]
  unfold placement
  rw [if_neg (Nat.not_le.mpr room), found]
  rfl

end Places

/-! ## A purchase item, check by check (R104–R109) -/

section Item

variable {g : Gate} {item : PurchaseItem} {e : EventIndex} {z : ZoneIndex}

theorem accepts_iff {p : Phase} : g.accepts p = true ↔ Accepts g.settings.profile p := by
  cases p <;> simp [Gate.accepts, ProfileTable.row, Accepts]

theorem pastCutoff_iff {ev : Event} : ev.phase = .live ∧ g.withinCutoff ev = false ↔ PastCutoff g ev := by
  refine and_congr_right fun _ => ?_
  unfold Gate.withinCutoff
  rw [Bool.or_eq_false_iff, decide_eq_false_iff_not]
  refine and_congr_right fun _ => ?_
  cases ev.liveStamp with
  | none => simp
  | some start => simp

theorem blacksRegion_iff {ev : Event} {region : Half} :
    ev.blacksRegion region = true ↔ ∃ range ∈ ev.ranges, range.low ≤ region ∧ region ≤ range.high := by
  simp only [Event.blacksRegion, List.any_eq_true, Range.covers, Bool.and_eq_true, decide_eq_true_eq]

theorem blacksOut_iff : g.blacksOut e z item = true ↔ BlackedOut g (g.event e) z item := by
  unfold Gate.blacksOut BlackedOut
  rw [Bool.or_eq_true, Bool.and_eq_true, blacksRegion_iff]
  refine or_congr Iff.rfl (and_congr_right fun _ => ?_)
  cases findHolder item.decoder g with
  | none => simp
  | some found =>
    obtain ⟨key, h⟩ := found
    simp

theorem buyItem_range (bad : g.loader.zoneStraps.toNat < item.zone.toNat ∨ BadDecoder item.decoder) :
    buyItem item g = (.range, bump .itemsUnplaced g) := by
  unfold buyItem
  split
  · rfl
  · next z strapped =>
    rcases bad with above | bad
    · rw [strappedZone_none above] at strapped
      cases strapped
    · rw [decoderInRange_eq_false.mpr bad]
      rfl

theorem zone_of_strapped {zone : Byte} (strapped : ¬ g.loader.zoneStraps.toNat < zone.toNat) :
    ∃ z : ZoneIndex, z.val = zone.toNat := by
  have four := g.loader.zoneStraps.isLt
  exact ⟨⟨zone.toNat, by omega⟩, rfl⟩

theorem buyItem_noEvent (good : ¬ (g.loader.zoneStraps.toNat < item.zone.toNat ∨ BadDecoder item.decoder))
    (unknown : g.findEvent item.event = none) : buyItem item g = (.noEvent, bump .itemsUnplaced g) := by
  obtain ⟨strapped, decoder⟩ := not_or.mp good
  obtain ⟨z, same⟩ := zone_of_strapped strapped
  unfold buyItem
  rw [strappedZone_some same strapped, unknown]
  exact if_pos (decoderInRange_iff.mpr decoder)

theorem buyItem_named (good : ¬ (g.loader.zoneStraps.toNat < item.zone.toNat ∨ BadDecoder item.decoder))
    (found : g.findEvent item.event = some e) (same : z.val = item.zone.toNat) : buyItem item g = buyFor e z item g := by
  obtain ⟨strapped, decoder⟩ := not_or.mp good
  unfold buyItem
  rw [strappedZone_some same strapped, found]
  exact if_pos (decoderInRange_iff.mpr decoder)

theorem buyFor_refusedPhase (closed : ¬ Accepts g.settings.profile (g.event e).phase) :
    buyFor e z item g = (.refusedPhase, bumpEvent e .refusedByPhase g) :=
  if_pos (by simpa using mt accepts_iff.mp closed)

theorem buyFor_cutoff (accepted : Accepts g.settings.profile (g.event e).phase) (late : PastCutoff g (g.event e)) :
    buyFor e z item g = (.cutoff, bumpEvent e .refusedByCutoff g) := by
  unfold buyFor
  rw [if_neg (by simp [accepts_iff.mpr accepted]), if_pos (pastCutoff_iff.mpr late)]

theorem buyFor_blackedOut (accepted : Accepts g.settings.profile (g.event e).phase) (timely : ¬ PastCutoff g (g.event e))
    (black : BlackedOut g (g.event e) z item) : buyFor e z item g = (.blackedOut, bumpEvent e .refusedByBlackout g) := by
  unfold buyFor
  rw [if_neg (by simp [accepts_iff.mpr accepted]), if_neg (mt pastCutoff_iff.mp timely), if_pos (blacksOut_iff.mpr black)]

theorem buyFor_held {key : Nat} {h : Holder} (accepted : Accepts g.settings.profile (g.event e).phase)
    (timely : ¬ PastCutoff g (g.event e)) (clear : ¬ BlackedOut g (g.event e) z item)
    (held : findHolder item.decoder g = some (key, h)) : buyFor e z item g = buyHeld e z item key h g := by
  unfold buyFor
  rw [if_neg (by simp [accepts_iff.mpr accepted]), if_neg (mt pastCutoff_iff.mp timely), if_neg (mt blacksOut_iff.mp clear),
    held]

theorem buyFor_unheld (accepted : Accepts g.settings.profile (g.event e).phase) (timely : ¬ PastCutoff g (g.event e))
    (clear : ¬ BlackedOut g (g.event e) z item) (absent : findHolder item.decoder g = none) :
    buyFor e z item g = buyNew e z item g := by
  unfold buyFor
  rw [if_neg (by simp [accepts_iff.mpr accepted]), if_neg (mt pastCutoff_iff.mp timely), if_neg (mt blacksOut_iff.mp clear),
    absent]

variable {key : Nat} {h : Holder}

theorem buyHeld_mismatch (other : h.zone ≠ z ∨ h.region ≠ item.region) :
    buyHeld e z item key h g = (.mismatch, bumpEvent e .refusedByRecord g) :=
  if_pos other

theorem buyHeld_matched (zone : h.zone = z) (region : h.region = item.region) : buyHeld e z item key h g
    = if h.barred then (.barred, bumpEvent e .refusedByRecord g)
      else if h.bought.getLsbD e.val then (.okAlready, bumpEvent e .purchasesHeld g)
      else (.ok, bumpEvent e .purchasesAccepted (changeRecord key (some h) (some (h.buy e)) g)) :=
  if_neg fun other => other.elim (absurd zone) (absurd region)

theorem buy_eq : h.buy e = { h with
    bought := h.bought ||| single e, ageMark := if h.isStatic = true then h.ageMark else true } := by
  unfold Holder.buy addIndex single
  cases h.isStatic <;> simp

theorem newHolder_buy_eq : (item.newHolder z).buy e = { item.newHolder z with ageMark := true, bought := single e } := by
  unfold Holder.buy PurchaseItem.newHolder addIndex single
  simp

end Item

/-! ## Events named by a command (R95, R110, R111) -/

section NamedEvents

variable {g : Gate} {numbers : List Half}

theorem namedEvents_ok (all : AllLoaded g numbers) :
    ∃ indices, g.namedEvents numbers = .ok indices ∧ ∀ e, e ∈ indices ↔ Named g numbers e := by
  induction numbers with
  | nil => exact ⟨[], rfl, fun e => by simp [Named]⟩
  | cons number rest ih =>
    obtain ⟨e, found, live⟩ := all number List.mem_cons_self
    obtain ⟨indices, named, mem⟩ := ih fun other listed => all other (List.mem_cons_of_mem _ listed)
    refine ⟨e :: indices, ?_, fun f => ?_⟩
    · simp [Gate.namedEvents, found, live, named]
    · have first : g.findEvent number = some f ↔ f = e := by rw [found, Option.some.injEq, eq_comm]
      rw [List.mem_cons, mem f]
      simp only [Named, List.mem_cons, exists_eq_or_imp, first]

theorem namedEvents_bad {r : Result} (bad : FirstBad g numbers r) : g.namedEvents numbers = .error r := by
  obtain ⟨before, number, after, rfl, all, failed⟩ := bad
  induction before with
  | nil =>
    rcases failed with ⟨unknown, rfl⟩ | ⟨e, found, retiring, rfl⟩
    · simp [Gate.namedEvents, unknown]
    · simp [Gate.namedEvents, found, retiring]
  | cons first before ih =>
    obtain ⟨e, found, live⟩ := all first List.mem_cons_self
    have rest := ih fun other listed => all other (List.mem_cons_of_mem _ listed)
    rw [List.cons_append]
    simp [Gate.namedEvents, found, live, rest]

theorem namedEvents_congr {h : Gate} (find : ∀ number, h.findEvent number = g.findEvent number)
    (event : ∀ e, h.event e = g.event e) : h.namedEvents numbers = g.namedEvents numbers := by
  induction numbers with
  | nil => rfl
  | cons number rest ih => simp only [Gate.namedEvents, find, event, ih]

theorem granting_namedEvents : (granting g).namedEvents numbers = g.namedEvents numbers :=
  namedEvents_congr (granting_findEvent g) (granting_event g)

theorem halvesAt_eq_numbersAt (body : List Byte) (i k : Nat) : halvesAt body i k = numbersAt body i k :=
  halvesAt_eq ..

end NamedEvents

/-! ## The checks of CANCEL, FORCE, RELEASE and PUT_HOLDER, in order -/

section Cancel

variable {q : Request} {g : Gate} {key : Nat} {h : Holder}

/-- R110: the form of a CANCEL. -/
abbrev CancelForm (q : Request) : Prop :=
  4 ≤ q.length ∧ q.length = 4 + 2 * (byteAt q.body 3).toNat

/-- R110: the ranges of a CANCEL. -/
abbrev CancelRange (q : Request) : Prop :=
  ¬ BadDecoder (decoderAt q.body 0) ∧ 1 ≤ (byteAt q.body 3).toNat ∧ (byteAt q.body 3).toNat ≤ 24

theorem cancelForm_iff :
    ¬ (q.length < 4 ∨ q.length ≠ 4 + 2 * (byteAt q.body 3).toNat) ↔ CancelForm q := by
  omega

theorem cancelRange_iff : ¬ (decoderInRange (decoderAt q.body 0) = false ∨ (byteAt q.body 3).toNat = 0 ∨
    24 < (byteAt q.body 3).toNat) ↔ CancelRange q := by
  rw [decoderInRange_eq_false, not_or]
  exact and_congr_right fun _ => by omega

theorem cancel_badForm (form : ¬ CancelForm q) : cancel q g = refuse .badForm g :=
  if_pos (not_not.mp (mt cancelForm_iff.mp form))

theorem cancel_range (form : CancelForm q) (range : ¬ CancelRange q) : cancel q g = refuse .range g :=
  (if_neg (cancelForm_iff.mpr form)).trans (if_pos (not_not.mp (mt cancelRange_iff.mp range)))

theorem cancel_noHolder (form : CancelForm q) (range : CancelRange q)
    (absent : findHolder (decoderAt q.body 0) g = none) : cancel q g = refuse .noHolder g := by
  refine (if_neg (cancelForm_iff.mpr form)).trans ((if_neg (cancelRange_iff.mpr range)).trans ?_)
  rw [absent]

theorem cancel_badNumber {r : Result} (form : CancelForm q) (range : CancelRange q)
    (found : findHolder (decoderAt q.body 0) g = some (key, h))
    (bad : g.namedEvents (numbersAt q.body 4 (byteAt q.body 3).toNat) = .error r) : cancel q g = refuse r g := by
  refine (if_neg (cancelForm_iff.mpr form)).trans ((if_neg (cancelRange_iff.mpr range)).trans ?_)
  rw [found]
  dsimp only
  rw [halvesAt_eq_numbersAt, bad]

theorem cancel_passes {indices : List EventIndex} (form : CancelForm q) (range : CancelRange q)
    (found : findHolder (decoderAt q.body 0) g = some (key, h))
    (named : g.namedEvents (numbersAt q.body 4 (byteAt q.body 3).toNat) = .ok indices) :
    cancel q g = cancelSets key h (indexSet indices) g := by
  refine (if_neg (cancelForm_iff.mpr form)).trans ((if_neg (cancelRange_iff.mpr range)).trans ?_)
  rw [found]
  dsimp only
  rw [halvesAt_eq_numbersAt, named]

end Cancel

section Override

variable {q : Request} {g : Gate} {key : Nat} {h : Holder} {run : Nat → Holder → Bool → EventSet → Answer}

/-- R111, R113: the form of a FORCE or RELEASE. -/
abbrev OverrideForm (q : Request) : Prop :=
  5 ≤ q.length ∧ q.length = 5 + 2 * (byteAt q.body 4).toNat

/-- R111, R113: the ranges of a FORCE or RELEASE. -/
abbrev OverrideRange (q : Request) : Prop :=
  ¬ BadDecoder (decoderAt q.body 0) ∧ (byteAt q.body 3 = 1 ∨ byteAt q.body 3 = 2) ∧ 1 ≤ (byteAt q.body 4).toNat ∧
    (byteAt q.body 4).toNat ≤ 8

theorem overrideForm_iff :
    ¬ (q.length < 5 ∨ q.length ≠ 5 + 2 * (byteAt q.body 4).toNat) ↔ OverrideForm q := by
  omega

theorem overrideRange_iff : ¬ (decoderInRange (decoderAt q.body 0) = false ∨
    (byteAt q.body 3 ≠ 1 ∧ byteAt q.body 3 ≠ 2) ∨ (byteAt q.body 4).toNat = 0 ∨ 8 < (byteAt q.body 4).toNat) ↔
      OverrideRange q := by
  rw [decoderInRange_eq_false, not_or, not_or]
  exact and_congr_right fun _ => and_congr (by rw [not_and_or, not_not, not_not]) (by omega)

theorem withOverride_badForm (form : ¬ OverrideForm q) : withOverride q run g = refuse .badForm g :=
  if_pos (not_not.mp (mt overrideForm_iff.mp form))

theorem withOverride_range (form : OverrideForm q) (range : ¬ OverrideRange q) :
    withOverride q run g = refuse .range g :=
  (if_neg (overrideForm_iff.mpr form)).trans (if_pos (not_not.mp (mt overrideRange_iff.mp range)))

theorem withOverride_noHolder (form : OverrideForm q) (range : OverrideRange q)
    (absent : findHolder (decoderAt q.body 0) g = none) : withOverride q run g = refuse .noHolder g := by
  refine (if_neg (overrideForm_iff.mpr form)).trans ((if_neg (overrideRange_iff.mpr range)).trans ?_)
  rw [absent]

theorem withOverride_badNumber {r : Result} (form : OverrideForm q) (range : OverrideRange q)
    (found : findHolder (decoderAt q.body 0) g = some (key, h))
    (bad : g.namedEvents (numbersAt q.body 5 (byteAt q.body 4).toNat) = .error r) : withOverride q run g = refuse r g := by
  refine (if_neg (overrideForm_iff.mpr form)).trans ((if_neg (overrideRange_iff.mpr range)).trans ?_)
  rw [found]
  dsimp only
  rw [halvesAt_eq_numbersAt, bad]

theorem withOverride_passes {indices : List EventIndex} (form : OverrideForm q) (range : OverrideRange q)
    (found : findHolder (decoderAt q.body 0) g = some (key, h))
    (named : g.namedEvents (numbersAt q.body 5 (byteAt q.body 4).toNat) = .ok indices) :
    withOverride q run g = run key h (byteAt q.body 3 = 1) (indexSet indices) := by
  refine (if_neg (overrideForm_iff.mpr form)).trans ((if_neg (overrideRange_iff.mpr range)).trans ?_)
  rw [found]
  dsimp only
  rw [halvesAt_eq_numbersAt, named]

end Override

section Put

variable {q : Request} {g : Gate} {z : ZoneIndex}

/-- R95: the form of a PUT_HOLDER. -/
abbrev PutForm (q : Request) : Prop :=
  8 ≤ q.length ∧ q.length = 8 + 2 * (byteAt q.body 7).toNat

/-- R95: the ranges of a PUT_HOLDER. -/
abbrev PutRange (g : Gate) (q : Request) : Prop :=
  ¬ BadDecoder (decoderAt q.body 0) ∧ (byteAt q.body 3).toNat ≤ g.loader.zoneStraps.toNat ∧ (byteAt q.body 6).toNat ≤ 1 ∧
    (byteAt q.body 7).toNat ≤ 24

theorem putForm_iff : ¬ (q.length < 8 ∨ q.length ≠ 8 + 2 * (byteAt q.body 7).toNat) ↔ PutForm q := by
  omega

theorem putRange_iff (strapped : (byteAt q.body 3).toNat ≤ g.loader.zoneStraps.toNat) :
    ¬ (decoderInRange (decoderAt q.body 0) = false ∨ 1 < (byteAt q.body 6).toNat ∨ 24 < (byteAt q.body 7).toNat) ↔
      PutRange g q := by
  rw [decoderInRange_eq_false, not_or]
  exact and_congr_right fun _ => by omega

theorem putHolder_badForm (form : ¬ PutForm q) : putHolder q g = refuse .badForm g :=
  if_pos (not_not.mp (mt putForm_iff.mp form))

theorem putHolder_range (form : PutForm q) (range : ¬ PutRange g q) : putHolder q g = refuse .range g := by
  refine (if_neg (putForm_iff.mpr form)).trans ?_
  by_cases strapped : g.loader.zoneStraps.toNat < (byteAt q.body 3).toNat
  · rw [strappedZone_none strapped]
  · obtain ⟨z, same⟩ := zone_of_strapped strapped
    rw [strappedZone_some same strapped]
    exact if_pos (not_not.mp (mt (putRange_iff (Nat.not_lt.mp strapped)).mp range))

theorem putHolder_badNumber {r : Result} (form : PutForm q) (range : PutRange g q)
    (bad : g.namedEvents (numbersAt q.body 8 (byteAt q.body 7).toNat) = .error r) : putHolder q g = refuse r g := by
  have strapped := range.2.1
  obtain ⟨z, same⟩ := zone_of_strapped (Nat.not_lt.mpr strapped)
  refine (if_neg (putForm_iff.mpr form)).trans ?_
  rw [strappedZone_some same (Nat.not_lt.mpr strapped)]
  refine (if_neg ((putRange_iff strapped).mpr range)).trans ?_
  rw [halvesAt_eq_numbersAt, bad]

theorem putHolder_passes {indices : List EventIndex} (form : PutForm q) (range : PutRange g q)
    (same : z.val = (byteAt q.body 3).toNat)
    (named : g.namedEvents (numbersAt q.body 8 (byteAt q.body 7).toNat) = .ok indices) : putHolder q g
      = putRecord (decoderAt q.body 0) z (halfAt q.body 4) (byteAt q.body 6 = 1) (indexSet indices) g := by
  have strapped := range.2.1
  refine (if_neg (putForm_iff.mpr form)).trans ?_
  rw [strappedZone_some same (Nat.not_lt.mpr strapped)]
  refine (if_neg ((putRange_iff strapped).mpr range)).trans ?_
  rw [halvesAt_eq_numbersAt, named]

end Put

end Sys2Proof.Machine

namespace Sys2Proof.Proofs

open Sys2Proof.Machine Sys2Proof.Safety Sys2Proof.Claims

set_option Elab.async false

/-- Settles O47: the checks of `buyItem` and `buyFor` in order, then the two cases of a record that is there and one that is
not. -/
theorem purchaseItemIsJudgedInOrder : Obligations.PurchaseItemIsJudgedInOrder := by
  intro g item badRange
  refine ⟨buyItem_range, buyItem_noEvent, fun e z good found same => ?_⟩
  rw [buyItem_named good found same]
  refine ⟨buyFor_refusedPhase, buyFor_cutoff, buyFor_blackedOut, fun accepted timely clear => ?_⟩
  refine ⟨fun key h held => ?_, fun absent => ?_⟩
  · rw [buyFor_held accepted timely clear held]
    refine ⟨buyHeld_mismatch, fun zone region => ?_⟩
    rw [buyHeld_matched zone region, buy_eq]
    exact ⟨fun barred => if_pos barred, fun unbarred bought => by rw [unbarred, if_neg (by simp), if_pos bought],
      fun unbarred unbought => by rw [unbarred, unbought, if_neg (by simp), if_neg (by simp)]⟩
  · rw [buyFor_unheld accepted timely clear absent]
    unfold buyNew
    exact ⟨fun full => by rw [placement_tableFull full]; rfl, fun room full => by rw [placement_bucketFull room full]; rfl,
      fun way room lowest => by rw [placement_lowest room lowest, newHolder_buy_eq]; rfl⟩

/-- Settles O48: the checks of each command in order. -/
theorem holderCommandsAreRefusedInOrder : Obligations.HolderCommandsAreRefusedInOrder := by
  intro s q begins turn d away
  have find (key : Option (Nat × Holder)) (found : findHolder d s.gate = key) : findHolder d (granting s.gate) = key :=
    (granting_findHolder ..).trans found
  have numbers {numbers : List Half} {r : Result} (bad : FirstBad s.gate numbers r) :
      (granting s.gate).namedEvents numbers = .error r := granting_namedEvents.trans (namedEvents_bad bad)
  refine ⟨fun code c row coded => ?decoder, fun coded => ?cancel, fun code c row coded => ?override, fun coded => ?put⟩
  case decoder =>
    have refusals {meaning : Request → Gate → Answer} (effects : effect c = executeAtTable code meaning)
        (checks : ∃ run, meaning q (granting s.gate) = withHolder q run (granting s.gate)) :
        (q.length ≠ 3 → away c .badForm) ∧ (q.length = 3 → BadDecoder d → away c .range) ∧
          (q.length = 3 → ¬ BadDecoder d → findHolder d s.gate = none → away c .noHolder) := by
      obtain ⟨run, checks⟩ := checks
      have refused {r : Result} := exec_atTable_refused (r := r) effects begins turn coded
      exact ⟨fun form => refused (checks.trans (withHolder_badForm form)),
        fun form bad => refused (checks.trans (withHolder_range form bad)),
        fun form good absent => refused (checks.trans (withHolder_noHolder form good (find _ absent)))⟩
    simp only [List.mem_cons, Prod.mk.injEq, List.not_mem_nil, or_false] at row
    obtain ⟨rfl, rfl⟩ | ⟨rfl, rfl⟩ | ⟨rfl, rfl⟩ := row
    · exact refusals (meaning := dropHolder) rfl ⟨_, rfl⟩
    · exact refusals (meaning := bar) rfl ⟨_, rfl⟩
    · exact refusals (meaning := unbar) rfl ⟨_, rfl⟩
  case cancel =>
    intro k form range
    have refused {r : Result} := exec_atTable_refused (r := r) (i := .cancel) (meaning := cancel) rfl begins turn coded
    refine ⟨fun unformed => refused (cancel_badForm unformed), fun formed unranged => refused (cancel_range formed unranged),
      fun formed ranged absent => refused (cancel_noHolder formed ranged (find _ absent)), fun r formed ranged held bad => ?_⟩
    obtain ⟨⟨key, h⟩, found⟩ := Option.ne_none_iff_exists'.mp held
    exact refused (cancel_badNumber formed ranged (find _ found) (numbers bad))
  case override =>
    intro k form range
    have refusals {meaning : Request → Gate → Answer} (effects : effect c = executeAtTable code meaning)
        (checks : ∃ run, meaning q (granting s.gate) = withOverride q run (granting s.gate)) :
        (¬ form → away c .badForm) ∧ (form → ¬ range → away c .range) ∧
          (form → range → findHolder d s.gate = none → away c .noHolder) ∧
          (∀ r, form → range → findHolder d s.gate ≠ none → FirstBad s.gate (numbersAt q.body 5 k) r → away c r) := by
      obtain ⟨run, checks⟩ := checks
      have refused {r : Result} := exec_atTable_refused (r := r) effects begins turn coded
      refine ⟨fun unformed => refused (checks.trans (withOverride_badForm unformed)),
        fun formed unranged => refused (checks.trans (withOverride_range formed unranged)),
        fun formed ranged absent => refused (checks.trans (withOverride_noHolder formed ranged (find _ absent))),
        fun r formed ranged held bad => ?_⟩
      obtain ⟨⟨key, h⟩, found⟩ := Option.ne_none_iff_exists'.mp held
      exact refused (checks.trans (withOverride_badNumber formed ranged (find _ found) (numbers bad)))
    simp only [List.mem_cons, Prod.mk.injEq, List.not_mem_nil, or_false] at row
    obtain ⟨rfl, rfl⟩ | ⟨rfl, rfl⟩ := row
    · exact refusals (meaning := force) rfl ⟨_, rfl⟩
    · exact refusals (meaning := release) rfl ⟨_, rfl⟩
  case put =>
    intro k form range
    have refused {r : Result} := exec_atTable_refused (r := r) (i := .putHolder) (meaning := putHolder) rfl begins turn coded
    have straps : (granting s.gate).loader = s.gate.loader := by rw [granting, leaveQueue_eq_command]
    have ranges : PutRange (granting s.gate) q ↔ range := by unfold PutRange; rw [straps]
    exact ⟨fun unformed => refused (putHolder_badForm unformed),
      fun formed unranged => refused (putHolder_range formed (mt ranges.mp unranged)),
      fun r formed ranged bad => refused (putHolder_badNumber formed (ranges.mpr ranged) (numbers bad))⟩

end Sys2Proof.Proofs

/-! PROOF. CANCEL (R110), FORCE (R111, R112) and RELEASE (R113) that pass their checks: what a record change leaves alone, the
indices of a set, the counting of each event concerned, and the statement CancelForceReleaseChangeTheSets. -/

namespace Sys2Proof.Machine

open Sys2Proof.Safety Sys2Proof.Claims

set_option Elab.async false

/-! ## What a record change leaves alone (R86) -/

section Frame

variable {key : Nat} {before after : Option Holder} {g : Gate}

theorem changeRecord_frame : changeRecord key before after g = { g with
    freeDraws := (changeRecord key before after g).freeDraws
    events := (changeRecord key before after g).events
    holders := (changeRecord key before after g).holders
    upkeep := { g.upkeep with shadow := (changeRecord key before after g).upkeep.shadow }
    walker := { g.walker with roster := (changeRecord key before after g).walker.roster }
    zones := (changeRecord key before after g).zones } := by
  rw [changeRecord_eq]
  have counted := (countsMoved_counts (key := key) (before := before) (after := after) (g := g)).gate
  obtain ⟨c, same⟩ : ∃ c, countsMoved key before after g = c := ⟨_, rfl⟩
  rw [same] at counted ⊢
  have purged := (purgedGate_purges (before := before) (after := after) (g := c)).gate
  obtain ⟨p, same⟩ : ∃ p, purgedGate before after c = p := ⟨_, rfl⟩
  rw [same] at purged ⊢
  have handed := (handedGate_grows (before := before) (after := after) (g := p)).gate
  obtain ⟨k, same⟩ : ∃ k, handedGate before after p = k := ⟨_, rfl⟩
  rw [same] at handed ⊢
  rw [handed, purged, counted]
  rfl

theorem changeRecord_event (e : EventIndex) : (changeRecord key before after g).event e
    = { g.event e with counts := ((changeRecord key before after g).event e).counts } := by
  have same : (changeRecord key before after g).event e = (countsMoved key before after g).event e := by
    rw [changeRecord_eq]
    have purged := (purgedGate_purges (before := before) (after := after) (g := countsMoved key before after g)).event e
    rw [← purged]
    obtain ⟨p, named⟩ : ∃ p, purgedGate before after (countsMoved key before after g) = p := ⟨_, rfl⟩
    rw [named]
    show (handedGate before after p).event e = p.event e
    rw [(handedGate_grows (before := before) (after := after) (g := p)).gate]
    rfl
  rw [same]
  exact countsMoved_counts.record e

theorem changeRecord_eventCount (e : EventIndex) (k : EventCounter) :
    eventCount (changeRecord key before after g) e k = eventCount g e k := by
  unfold eventCount
  rw [changeRecord_event]

theorem changeRecord_get (k : Nat) : Sparse.get (changeRecord key before after g).holders k
    = if k = key then after else Sparse.get g.holders k := by
  rw [changeRecord_holders, get_writeHolder]

end Frame

/-! ## A command that has changed one record -/

section Answer

variable {s : State} {q : Request} {r : Result} {body : List Byte} {key : Nat} {before after : Option Holder} {w : Gate}

theorem changedRecord_of_answered
    (frame : w = { changeRecord key before after (granting s.gate) with events := w.events, counters := w.counters })
    (record : ∀ e, w.event e
      = { (changeRecord key before after (granting s.gate)).event e with counters := (w.event e).counters }) :
    ChangedRecord s (answered s q { result := r, body := body, gate := w }) q r body key before after where
  pending := rfl
  gate := by
    obtain ⟨c, ⟨left, command⟩, replies⟩ := granting_left s.gate
    obtain ⟨events, counters, rfl⟩ : ∃ events counters, w
      = { changeRecord key before after (granting s.gate) with events := events, counters := counters } := ⟨_, _, frame⟩
    have unchanged : (changeRecord key before after (granting s.gate)).command = c := by
      rw [changeRecord_frame, left]
    simp only [answered, placeReply, bump, unchanged, command, replies]
  event := record
  table k := by
    show Sparse.get w.holders k = _
    rw [frame]
    show Sparse.get (changeRecord key before after (granting s.gate)).holders k = _
    rw [changeRecord_get, granting_holders]

end Answer

/-! ## Sets of event indices -/

section Sets

variable {indices : List EventIndex} {e x : EventIndex} {set : EventSet}

theorem addIndex_getLsbD : (addIndex e set).getLsbD x.val = true ↔ set.getLsbD x.val = true ∨ x = e := by
  have small := x.isLt
  have bit : (1#24 <<< e.val).getLsbD x.val = true ↔ x = e := by
    rw [Fin.ext_iff]
    simp only [BitVec.getLsbD_shiftLeft, BitVec.getLsbD_one, Bool.and_eq_true, decide_eq_true_eq, Bool.not_eq_true',
      decide_eq_false_iff_not]
    omega
  rw [addIndex, BitVec.getLsbD_or, Bool.or_eq_true, bit]

theorem indexSet_getLsbD : (indexSet indices).getLsbD x.val = true ↔ x ∈ indices := by
  have fold (set : EventSet) : (indices.foldl (fun set e => addIndex e set) set).getLsbD x.val = true ↔
      set.getLsbD x.val = true ∨ x ∈ indices := by
    induction indices generalizing set with
    | nil => simp
    | cons e indices ih => rw [List.foldl_cons, ih, addIndex_getLsbD, List.mem_cons, or_assoc]
  rw [indexSet, fold]
  simp

theorem without_getLsbD (a b : EventSet) (x : EventIndex) :
    (a &&& ~~~b).getLsbD x.val = (a.getLsbD x.val && !b.getLsbD x.val) := by
  rw [BitVec.getLsbD_and, BitVec.getLsbD_not, decide_eq_true x.isLt, Bool.true_and]

theorem set_ne_zero_iff : set ≠ 0 ↔ ∃ e : EventIndex, set.getLsbD e.val = true := by
  constructor
  · intro some_
    by_contra none_
    refine some_ (BitVec.eq_of_getLsbD_eq fun i small => ?_)
    have off := not_exists.mp none_ ⟨i, small⟩
    simpa using off
  · rintro ⟨e, held⟩ rfl
    simp at held

end Sets

/-! ## The count of each event concerned (R118) -/

section BumpEach

variable {k : EventCounter} {set : EventSet} {g : Gate}

theorem bumpEach_frame : bumpEach k set g = { g with events := (bumpEach k set g).events } :=
  List.foldlRecOn (motive := fun h : Gate => h = { g with events := h.events }) allEvents _ rfl
    (fun acc reached e _ => by
      split
      · rw [reached]
        rfl
      · exact reached)

theorem bumpEach_event (e : EventIndex) :
    (bumpEach k set g).event e = if set.getLsbD e.val then Event.countBy k 1 (g.event e) else g.event e := by
  obtain ⟨m, first, rest⟩ := foldl_allEvents_at e (f := fun e acc => if set.getLsbD e.val then bumpEvent e k acc else acc)
    (R := fun g h => h.event e = g.event e) (fun _ => rfl) (fun _ _ _ p q => q.trans p)
    (fun x other acc => by
      split
      · exact modEvent_event_other other.symm ..
      · rfl) g
  refine rest.trans ?_
  split
  · exact (modEvent_event_same ..).trans (by rw [first])
  · exact first

theorem bumpEach_record (e : EventIndex) :
    (bumpEach k set g).event e = { g.event e with counters := ((bumpEach k set g).event e).counters } := by
  rw [bumpEach_event]
  split <;> rfl

theorem bumpEach_eventCount (e : EventIndex) : eventCount (bumpEach k set g) e k
    = if set.getLsbD e.val then countUp (eventCount g e k) 1 else eventCount g e k := by
  unfold eventCount
  rw [bumpEach_event]
  split
  · rw [Event.countBy_counter, if_pos rfl]
  · rfl

end BumpEach

/-! ## A command that changes the sets of one record -/

section Changes

variable {s : State} {q : Request} {i : Instr} {code : Byte} {meaning : Request → Gate → Answer} {changed : Bool}
  {k : EventCounter} {set : EventSet} {key : Nat} {h after : Holder}

theorem exec_of_answerChanged (row : effect i = executeAtTable code meaning) (begins : Begins s.gate q)
    (turn : Turn s.gate .command) (coded : q.code = code)
    (answer : meaning q (granting s.gate)
      = answerChanged changed (bumpEach k set (rewriteHolder key h after (granting s.gate)))) :
    ∃ t, exec i s = .next t ∧
      ChangedRecord s t q (if changed then .ok else .okAlready) [] key (some h) (some after) ∧
      ∀ e, (set.getLsbD e.val = true → eventCount t.gate e k = countUp (eventCount s.gate e k) 1) ∧
        (¬ set.getLsbD e.val = true → eventCount t.gate e k = eventCount s.gate e k) := by
  refine ⟨_, exec_atTable_answered row begins turn coded answer, changedRecord_of_answered ?_ ?_, fun e => ?_⟩
  · rw [bumpEach_frame]
    rfl
  · exact fun e => bumpEach_record e
  · have before : eventCount (rewriteHolder key h after (granting s.gate)) e k = eventCount s.gate e k := by
      rw [rewriteHolder, changeRecord_eventCount, eventCount, granting_event]
      rfl
    have bumped : eventCount (bumpEach k set (rewriteHolder key h after (granting s.gate))) e k
        = if set.getLsbD e.val then countUp (eventCount s.gate e k) 1 else eventCount s.gate e k := by
      rw [bumpEach_eventCount, before]
    exact ⟨fun listed => bumped.trans (if_pos listed), fun unlisted => bumped.trans (if_neg unlisted)⟩

end Changes

/-! ## The sets of a FORCE (R112) and a RELEASE (R113) -/

section Overrides

variable {h : Holder} {mode : Prop} [Decidable mode] {named : EventSet} {e : EventIndex}

theorem forced_frame : h.forced mode named
    = { h with grants := (h.forced mode named).grants, denies := (h.forced mode named).denies } := by
  unfold Holder.forced
  split <;> rfl

theorem newlyForced_iff : (h.newlyForced mode named).getLsbD e.val = true ↔
    named.getLsbD e.val = true ∧ (if mode then h.grants else h.denies).getLsbD e.val = false := by
  unfold Holder.newlyForced
  by_cases grant : mode
  · simp only [grant, decide_true, if_true, without_getLsbD, Bool.and_eq_true, Bool.not_eq_true']
  · simp only [grant, decide_false, if_false, without_getLsbD, Bool.and_eq_true, Bool.not_eq_true', Bool.false_eq_true]

theorem forced_grants_iff : (h.forced mode named).grants.getLsbD e.val = true ↔
    (mode ∧ named.getLsbD e.val = true) ∨ (h.grants.getLsbD e.val = true ∧ (mode ∨ ¬ named.getLsbD e.val = true)) := by
  unfold Holder.forced
  by_cases grant : mode
  · simp [grant, or_comm]
  · simp [grant]

theorem forced_denies_iff : (h.forced mode named).denies.getLsbD e.val = true ↔
    (¬ mode ∧ named.getLsbD e.val = true) ∨
      (h.denies.getLsbD e.val = true ∧ (¬ mode ∨ ¬ named.getLsbD e.val = true)) := by
  unfold Holder.forced
  by_cases grant : mode
  · simp [grant]
  · simp [grant, or_comm]

theorem released_bought : (h.released mode named).bought.getLsbD e.val
    = if mode then (h.bought.getLsbD e.val || (h.grants.getLsbD e.val && named.getLsbD e.val)) &&
        !(h.denies.getLsbD e.val && named.getLsbD e.val)
      else h.bought.getLsbD e.val := by
  unfold Holder.released
  by_cases keep : mode
  · simp only [keep, decide_true, if_true, BitVec.getLsbD_or, BitVec.getLsbD_and, BitVec.getLsbD_not, e.isLt, Bool.true_and]
  · simp only [keep, decide_false, Bool.false_eq_true, if_false]

end Overrides

/-- R95, R110, R111: the set of the indices that a command names. -/
theorem namedEvents_set {g : Gate} {numbers : List Half} (all : AllLoaded g numbers) :
    ∃ indices, (granting g).namedEvents numbers = .ok indices ∧
      ∀ e : EventIndex, (indexSet indices).getLsbD e.val = true ↔ Named g numbers e := by
  obtain ⟨indices, named, mem⟩ := namedEvents_ok all
  exact ⟨indices, granting_namedEvents.trans named, fun e => indexSet_getLsbD.trans (mem e)⟩

theorem answer_of_changes {changed : Bool} {p : Prop} (changes : changed = true ↔ p) :
    (if changed then Result.ok else .okAlready) = .ok ∧ p ∨
      (if changed then Result.ok else .okAlready) = .okAlready ∧ ¬ p := by
  rw [← changes]
  cases changed <;> simp

end Sys2Proof.Machine

namespace Sys2Proof.Proofs

open Sys2Proof.Machine Sys2Proof.Safety Sys2Proof.Claims

set_option Elab.async false

/-- Settles O49: each command is one record change with its events counted (`exec_of_answerChanged`), and its sets are read
bit by bit. -/
theorem cancelForceReleaseChangeTheSets : Obligations.CancelForceReleaseChangeTheSets := by
  intro s q key h begins turn good found
  have held : findHolder (decoderAt q.body 0) (granting s.gate) = some (key, h) := (granting_findHolder ..).trans found
  refine ⟨fun coded k count length low high all => ?cancel, fun coded k count length low high mode all => ?force,
    fun coded k count length low high mode all => ?release⟩
  all_goals
    subst count
    obtain ⟨indices, ok, named⟩ := namedEvents_set all
  case cancel =>
    intro hit
    have answer := cancel_passes (q := q) (g := granting s.gate) ⟨by omega, length⟩ ⟨good, low, high⟩ held ok
    obtain ⟨t, run, record, counted⟩ := exec_of_answerChanged (i := .cancel) rfl begins turn coded answer
    have hits (e : EventIndex) : (h.bought &&& indexSet indices).getLsbD e.val = true ↔ hit e := by
      rw [BitVec.getLsbD_and, Bool.and_eq_true, named e, and_comm]
    simp only [hits] at counted
    refine ⟨t, _, _, run, record, rfl, fun e => ?_, answer_of_changes ?_, counted⟩
    · rw [without_getLsbD, Bool.and_eq_true, Bool.not_eq_true', ← Bool.not_eq_true, named e]
    · rw [decide_eq_true_iff, set_ne_zero_iff]
      exact exists_congr hits
  case force =>
    intro names grant hit
    have answer := withOverride_passes (q := q) (g := granting s.gate) (run := fun key h grant named =>
      answerChanged (h.forced grant named ≠ h)
        (bumpEach .overridesSet (h.newlyForced grant named) (rewriteHolder key h (h.forced grant named) (granting s.gate))))
      ⟨by omega, length⟩ ⟨good, mode, low, high⟩ held ok
    obtain ⟨t, run, record, counted⟩ := exec_of_answerChanged (i := .force) rfl begins turn coded answer
    have hits (e : EventIndex) : (h.newlyForced (byteAt q.body 3 = 1) (indexSet indices)).getLsbD e.val = true ↔ hit e := by
      rw [newlyForced_iff, named e]
    simp only [hits] at counted
    refine ⟨t, _, _, run, record, forced_frame, fun e => ⟨?_, ?_⟩, ?_, counted⟩
    · rw [forced_grants_iff, named e]
    · rw [forced_denies_iff, named e]
    · exact (answer_of_changes decide_eq_true_iff).imp_right (And.imp_right not_not.mp)
  case release =>
    intro names keep hit
    have answer := withOverride_passes (q := q) (g := granting s.gate) (run := fun key h keep named =>
      answerChanged ((h.grants ||| h.denies) &&& named ≠ 0)
        (bumpEach .overridesReleased ((h.grants ||| h.denies) &&& named)
          (rewriteHolder key h (h.released keep named) (granting s.gate))))
      ⟨by omega, length⟩ ⟨good, mode, low, high⟩ held ok
    obtain ⟨t, run, record, counted⟩ := exec_of_answerChanged (i := .release) rfl begins turn coded answer
    have hits (e : EventIndex) : ((h.grants ||| h.denies) &&& indexSet indices).getLsbD e.val = true ↔ hit e := by
      rw [BitVec.getLsbD_and, BitVec.getLsbD_or, Bool.and_eq_true, Bool.or_eq_true, named e, and_comm]
    simp only [hits] at counted
    refine ⟨t, _, _, run, record, rfl, fun e => ⟨?_, ?_, ?_⟩, answer_of_changes ?_, counted⟩
    · rw [Holder.released, without_getLsbD, Bool.and_eq_true, Bool.not_eq_true', ← Bool.not_eq_true, named e]
    · rw [Holder.released, without_getLsbD, Bool.and_eq_true, Bool.not_eq_true', ← Bool.not_eq_true, named e]
    · have bit : (indexSet indices).getLsbD e.val = true ↔ names e := named e
      rw [released_bought, ← bit]
      refine ⟨fun untouched => ?_, fun mode listed granted undenied => ?_, fun mode listed denied => ?_,
        fun mode listed ungranted undenied => ?_⟩
      · split
        · next mode =>
          rw [Bool.eq_false_iff.mpr (untouched.resolve_left (not_not.mpr mode))]
          simp
        · rfl
      · rw [if_pos mode, listed, granted, undenied]
        simp
      · rw [if_pos mode, listed, denied]
        simp
      · rw [if_pos mode, ungranted, undenied]
        simp
    · rw [decide_eq_true_iff, set_ne_zero_iff]
      exact exists_congr hits

end Sys2Proof.Proofs

/-! PROOF. PUT_HOLDER (R95), DROP_HOLDER (R96), BAR (R115) and UNBAR (R116) that pass their checks: where the record goes, what a
BAR purges, and the statement PutDropBarAndUnbar. -/

namespace Sys2Proof.Machine

open Sys2Proof.Safety Sys2Proof.Claims

set_option Elab.async false

/-! ## Bucket and way of a reply (R95) -/

theorem placeBody_eq {key : Nat} {d : Decoder} (bucket : bucketOfKey key = (bucketOf d).val) :
    placeBody key = field 2 (bucketOf d).val ++ [BitVec.ofNat 8 (key % 4)] := by
  rw [placeBody, bucket]
  simp [field]

theorem placeBody_wayKey {d : Decoder} {way : Nat} (below : way < 4) :
    placeBody (wayKey d way) = field 2 (bucketOf d).val ++ [BitVec.ofNat 8 way] := by
  have bucket : bucketOfKey (wayKey d way) = (bucketOf d).val := bucketOfKey_slotKey _ (mem_allWays.mpr below)
  rw [placeBody_eq bucket]
  have rest : wayKey d way % 4 = way := by unfold wayKey; omega
  rw [rest]

/-! ## PUT_HOLDER on a record that is there or not (R95) -/

section Put

variable {d : Decoder} {z : ZoneIndex} {region : Half} {exempt : Bool} {bought : EventSet} {g : Gate} {key : Nat} {h : Holder}

theorem putRecord_held (found : findHolder d g = some (key, h)) : putRecord d z region exempt bought g
    = { result := if h.rewrite z region exempt bought = h then .okAlready else .ok
        body := placeBody key
        gate := rewriteHolder key h (h.rewrite z region exempt bought) g } := by
  rw [putRecord, found]

theorem putRecord_refused {r : Result} (absent : findHolder d g = none) (refused : placement d g = .error r) :
    putRecord d z region exempt bought g = { result := r, body := [], gate := countRefusal r g } := by
  rw [putRecord, absent, refused]

theorem putRecord_made (absent : findHolder d g = none) (placed : placement d g = .ok key) :
    putRecord d z region exempt bought g
      = { result := .ok
          body := placeBody key
          gate := bump .createdByPut (changeRecord key none (some (newStatic d z region exempt bought)) g) } := by
  rw [putRecord, absent, placed]

end Put

/-! ## What a BAR purges (R115) -/

section Bar

variable {d : Decoder} {h : Holder} {after : Option Holder} {e : EventIndex} {g : Gate} {key : Nat}

/-- R115: a listed entry that names a decoder. -/
def FreshEntry.namesDecoder (d : Decoder) (entry : FreshEntry) : Bool :=
  decide (entry.form = .listed ∧ entry.decoder = d)

/-- R86, R115: some of the listed entries that name a decoder leave the fresh queues, and nothing else of the zones changes. -/
def Unlists (d : Decoder) (g h : Gate) : Prop :=
  ∀ z, ({ h.zone z with fresh := (h.zone z).fresh.filter fun entry => !entry.namesDecoder d } : Zone)
    = { g.zone z with fresh := (g.zone z).fresh.filter fun entry => !entry.namesDecoder d }

theorem Unlists.refl (d : Decoder) (g : Gate) : Unlists d g g := fun _ => rfl

theorem Unlists.trans {g h k : Gate} (p : Unlists d g h) (q : Unlists d h k) : Unlists d g k :=
  fun z => (q z).trans (p z)

theorem unlists_of_zones {g h : Gate} (same : h.zones = g.zones) : Unlists d g h := by
  intro z
  unfold Gate.zone
  rw [same]

theorem purgeLost_unlists : Unlists h.decoder g (purgeLost (some h) after e g) := by
  by_cases loses : Loses h after e (g.event e)
  · intro z
    rw [purgeLost_zone loses]
    split
    · have both (entry : FreshEntry) : (!entry.namesDecoder h.decoder && !entry.lists h.decoder e)
          = !entry.namesDecoder h.decoder := by
        unfold FreshEntry.namesDecoder FreshEntry.lists
        rw [Bool.decide_and]
        cases decide (entry.form = .listed) <;> cases decide (entry.decoder = h.decoder) <;> simp
      rw [List.filter_filter]
      simp only [both]
    · rfl
  · rw [purgeLost_keeps loses]
    exact Unlists.refl _ g

theorem purgedGate_unlists : Unlists h.decoder g (purgedGate (some h) after g) :=
  List.foldlRecOn (motive := fun k : Gate => Unlists h.decoder g k) allEvents _ (Unlists.refl _ g)
    (fun _ reached _ _ => reached.trans purgeLost_unlists)

theorem handedGate_barred {before : Option Holder} (barred : h.barred = true) : handedGate before (some h) g = g := by
  refine foldl_of_unchanged (f := fun e acc => handFresh before (some h) e acc) allEvents g fun e _ acc => ?_
  refine handFresh_keeps fun gained => ?_
  have eligible := ((grantEligible_iff ..).mp gained.1).1
  rw [eligible_iff, barred] at eligible
  cases eligible.1

theorem changeRecord_barred_unlists {barred : Holder} (isBarred : barred.barred = true) :
    Unlists h.decoder g (changeRecord key (some h) (some barred) g) := by
  rw [changeRecord_eq, handedGate_barred isBarred]
  refine Unlists.trans (unlists_of_zones ?_) purgedGate_unlists
  rw [countsMoved_counts.gate]

theorem takeOutEverywhere_leg (e : EventIndex) (slot : SheetSlot) : (takeOutEverywhere d g).leg e slot
    = (g.leg e slot).map (fun leg => { leg with cells := leg.cells.map (takeOut d) }) :=
  mapLegs_leg ..

theorem takeOutEverywhere_zone (z : ZoneIndex) : (takeOutEverywhere d g).zone z = g.zone z := rfl

theorem not_mem_takeOutEverywhere {slot : SheetSlot} {leg : Leg} (held : (takeOutEverywhere d g).leg e slot = some leg)
    (z : ZoneIndex) : d ∉ leg.cells[z] := by
  rw [takeOutEverywhere_leg] at held
  obtain ⟨was, -, rfl⟩ := Option.map_eq_some_iff.mp held
  simp [takeOut]

theorem purgeDecoder_eq : purgeDecoder d g = takeOutEverywhere d
    (onZones (fun _ zone => { zone with fresh := zone.fresh.filter fun entry => !entry.namesDecoder d }) g) := by
  unfold purgeDecoder FreshEntry.namesDecoder
  simp only [purgeFreshAll_eq, Bool.decide_and]

/-- R115: what a BAR makes of the part: the record, and the purges. -/
structure Bars (d : Decoder) (key : Nat) (barred : Holder) (g w : Gate) : Prop where
  gate : w = { g with
    freeDraws := w.freeDraws
    events := w.events
    holders := Sparse.set g.holders key barred
    upkeep := { g.upkeep with shadow := w.upkeep.shadow }
    walker := { g.walker with roster := w.walker.roster }
    zones := w.zones }
  event : ∀ e, w.event e = { g.event e with counts := (w.event e).counts }
  zone : ∀ z, w.zone z = { g.zone z with fresh := (g.zone z).fresh.filter fun entry => !entry.namesDecoder d }
  leg : ∀ e slot leg, w.leg e slot = some leg → ∀ z : ZoneIndex, d ∉ leg.cells[z]

theorem purgeDecoder_bars {barred : Holder} (isBarred : barred.barred = true) :
    Bars h.decoder key barred g (purgeDecoder h.decoder (rewriteHolder key h barred g)) := by
  have frame := changeRecord_frame (key := key) (before := some h) (after := some barred) (g := g)
  have event := changeRecord_event (key := key) (before := some h) (after := some barred) (g := g)
  have zone := changeRecord_barred_unlists (h := h) (key := key) (g := g) isBarred
  have holders : (changeRecord key (some h) (some barred) g).holders = Sparse.set g.holders key barred :=
    changeRecord_holders ..
  rw [rewriteHolder, purgeDecoder_eq]
  obtain ⟨k, same⟩ : ∃ k, changeRecord key (some h) (some barred) g = k := ⟨_, rfl⟩
  rw [same] at frame event zone holders ⊢
  refine ⟨?_, event, fun z => ?_, fun e slot leg => not_mem_takeOutEverywhere⟩
  case refine_2 =>
    rw [← zone z, takeOutEverywhere_zone, onZones_zone]
  rw [holders] at frame
  rw [frame]
  rfl

end Bar

/-! ## Answers that change one record and count it -/

section Counted

variable {s : State} {q : Request} {r : Result} {body : List Byte} {key : Nat} {before after : Option Holder}
  {j k : PartCounter} {g : Gate}

theorem changeRecord_partCount : partCount (changeRecord key before after g) k = partCount g k := by
  rw [changeRecord_frame]
  rfl

theorem granting_partCount : partCount (granting g) k = partCount g k := by
  rw [granting, leaveQueue_eq_command]
  rfl

theorem changedRecord_counted :
    ChangedRecord s
      (answered s q
        { result := r
          body := body
          gate := bump j (changeRecord key before after (granting s.gate)) }) q r body key before after :=
  changedRecord_of_answered rfl fun _ => rfl

theorem answered_partCount (other : j ≠ .commandsExecuted) :
    partCount (answered s q
      { result := r
        body := body
        gate := bump j (changeRecord key before after (granting s.gate)) }).gate j = countUp (partCount s.gate j) 1 := by
  show partCount (bump .commandsExecuted (bump j _)) j = _
  rw [partCount_bump, if_neg other, partCount_bump, if_pos rfl, changeRecord_partCount, granting_partCount]

end Counted

end Sys2Proof.Machine

namespace Sys2Proof.Proofs

open Sys2Proof.Machine Sys2Proof.Safety Sys2Proof.Claims

set_option Elab.async false

/-- Settles O50: each command is one record change; of a BAR, the purges of the change and the command's own purge come to one
filter (`Unlists`). -/
theorem putDropBarAndUnbar : Obligations.PutDropBarAndUnbar := by
  intro s q begins turn good d
  have find (found : Option (Nat × Holder)) (same : findHolder d s.gate = found) : findHolder d (granting s.gate) = found :=
    (granting_findHolder ..).trans same
  refine ⟨fun coded k z count length few same strapped exempt all => ?put, fun key h length found =>
    ⟨fun coded => ?drop, fun coded barred => ?alreadyBarred, fun coded unbarred => ?bar,
      fun coded unbarred => ?alreadyUnbarred, fun coded barred => ?unbar⟩⟩
  case put =>
    subst count
    obtain ⟨indices, ok, named⟩ := namedEvents_set all
    have straps : (granting s.gate).loader = s.gate.loader := by rw [granting, leaveQueue_eq_command]
    have range : PutRange (granting s.gate) q := ⟨good, by rw [straps, ← same]; exact strapped, exempt, few⟩
    have passes := putHolder_passes ⟨by omega, length⟩ range same ok
    have run {a : Answer}
        (put : putRecord d z (halfAt q.body 4) (byteAt q.body 6 = 1) (indexSet indices) (granting s.gate) = a) :
        exec .putHolder s = .next (answered s q a) :=
      exec_atTable_answered (i := .putHolder) rfl begins turn coded (passes.trans put)
    refine ⟨indexSet indices, named, fun key h found => ?_, fun absent => ⟨fun full => ?_, fun room full => ?_,
      fun way room lowest => ?_⟩⟩
    · intro after
      refine ⟨_, run (putRecord_held (find _ found)), ?_⟩
      rw [placeBody_eq (findHolder_some found).2.2]
      exact changedRecord_of_answered rfl fun _ => rfl
    · refine (run (putRecord_refused (find _ absent) (placement_tableFull ?_))).trans ?_
      · rwa [granting_holders]
      · rw [answered, coded]
        rfl
    · refine (run (putRecord_refused (find _ absent) (placement_bucketFull ?_ ?_))).trans ?_
      · rwa [granting_holders]
      · unfold BucketFull
        rwa [granting_holders]
      · rw [answered, coded]
        rfl
    · have placed : placement d (granting s.gate) = .ok (wayKey d way) := by
        refine placement_lowest ?_ ?_
        · rwa [granting_holders]
        · unfold LowestFree
          rwa [granting_holders]
      have made := run (putRecord_made (find _ absent) placed)
      rw [placeBody_wayKey lowest.1] at made
      exact ⟨_, made, changedRecord_counted, answered_partCount (by decide)⟩
  case drop =>
    exact ⟨_, exec_atTable_answered (i := .dropHolder) rfl begins turn coded (withHolder_runs length good (find _ found)),
      changedRecord_counted, answered_partCount (by decide)⟩
  case alreadyBarred =>
    refine exec_atTable_refused (i := .bar) rfl begins turn coded ((withHolder_runs length good (find _ found)).trans ?_)
    exact if_pos barred
  case alreadyUnbarred =>
    refine exec_atTable_refused (i := .unbar) rfl begins turn coded ((withHolder_runs length good (find _ found)).trans ?_)
    exact if_neg (by simp [unbarred])
  case unbar =>
    exact ⟨_, exec_atTable_answered (i := .unbar) rfl begins turn coded
      ((withHolder_runs length good (find _ found)).trans (if_pos barred)), changedRecord_counted,
      answered_partCount (by decide)⟩
  case bar =>
    have run := exec_atTable_answered (i := .bar) rfl begins turn coded
      ((withHolder_runs length good (find _ found)).trans (if_neg (by simp [unbarred])))
    have bars := purgeDecoder_bars (h := h) (key := key) (g := granting s.gate) (barred := { h with barred := true }) rfl
    obtain ⟨w, same⟩ : ∃ w, purgeDecoder h.decoder (rewriteHolder key h { h with barred := true } (granting s.gate)) = w :=
      ⟨_, rfl⟩
    rw [same] at run bars
    obtain ⟨frame, event, zone, leg⟩ := bars
    simp only [show h.decoder = d from (findHolder_some found).2.1] at zone leg
    obtain ⟨c, ⟨left, command⟩, replies⟩ := granting_left s.gate
    rw [left] at frame event zone
    refine ⟨_, run, rfl, ?frame, event, ?holders, zone, leg, ?count, ?replies⟩
    case frame =>
      rw [left]
      obtain ⟨draws, events, shadow, roster, zones, rfl⟩ : ∃ draws events shadow roster zones, w = { s.gate with
        freeDraws := draws, events := events, holders := Sparse.set s.gate.holders key { h with barred := true },
        upkeep := { s.gate.upkeep with shadow := shadow, lastGrant := .command },
        walker := { s.gate.walker with roster := roster }, zones := zones, command := c } := ⟨_, _, _, _, _, frame⟩
      rfl
    case holders => exact congrArg Gate.holders frame
    case count =>
      have counters : partCount w .bars = partCount s.gate .bars := by
        rw [frame]
        rfl
      show partCount (bump .commandsExecuted (bump .bars w)) .bars = _
      rw [partCount_bump, if_neg (by decide), partCount_bump, if_pos rfl, counters]
    case replies =>
      have before : w.command.replies = s.gate.command.replies := by
        rw [frame]
        exact replies
      show w.command.replies ++ _ = _
      rw [before, coded]
      rfl

end Sys2Proof.Proofs

/-! PROOF. The layouts of the settings (R27, R37) in a body or an image, SET_ZONE, SET_PROFILE, SET_CUE_MAP and SET_TIMING, and
the statement SettingCommandsReplaceTheirSettings. -/

namespace Sys2Proof.Machine

open Sys2Proof.Safety Sys2Proof.Claims

set_option Elab.async false

/-! ## The profile table (R37) -/

theorem profileInRange_iff {bytes : List Byte} {i : Nat} :
    profileInRange bytes i = true ↔ ∀ k, k < 12 → (byteAt bytes (i + k)).toNat ≤ 1 := by
  unfold profileInRange
  rw [List.all_eq_true]
  refine ⟨fun all k small => ?_, fun all b mem => ?_⟩
  · by_cases inside : i + k < bytes.length
    · have listed : bytes[i + k] ∈ (bytes.drop i).take 12 :=
        List.mem_iff_getElem.mpr ⟨k, by simp; omega, by simp⟩
      have low := decide_eq_true_eq.mp (all _ listed)
      rwa [byteAt, List.getD_eq_getElem _ _ inside]
    · rw [byteAt, List.getD_eq_default _ _ (by omega)]
      decide
  · obtain ⟨k, inside, rfl⟩ := List.mem_iff_getElem.mp mem
    have bound : i + k < bytes.length := by
      simp only [List.length_take, List.length_drop] at inside
      omega
    have low := all k (by simp only [List.length_take, List.length_drop] at inside; omega)
    rw [byteAt, List.getD_eq_getElem _ _ bound] at low
    simpa using low

/-! ## The cue map (R27) -/

/-- R27: the entry from byte i of a map is one that SET_CUE_MAP takes. -/
def CueInRange (bytes : List Byte) (i : Nat) : Prop :=
  1 ≤ (byteAt bytes (i + 1)).toNat ∧ (byteAt bytes (i + 1)).toNat ≤ 7 ∧
    (byteAt bytes (i + 1) = 6 → 1 ≤ (byteAt bytes (i + 2)).toNat ∧ (byteAt bytes (i + 2)).toNat ≤ 30)

/-- R27: an entry is the one from byte i. -/
def CueReads (bytes : List Byte) (i : Nat) (entry : CueEntry) : Prop :=
  entry.code = byteAt bytes i ∧ entry.task.number = byteAt bytes (i + 1) ∧
    entry.minutes = if entry.task = .extendPreview then some (byteAt bytes (i + 2)) else none

theorem cueCodesAt_eq (bytes : List Byte) (i n : Nat) :
    cueCodesAt bytes i n = (List.range n).map (fun k => byteAt bytes (i + 3 * k)) := by
  induction n generalizing i with
  | zero => rfl
  | succ n ih =>
    rw [cueCodesAt, ih, range_map_succ]
    refine congrArg₂ List.cons rfl (List.map_congr_left fun k _ => ?_)
    rw [show i + 3 + 3 * k = i + 3 * (k + 1) by omega]

theorem cueEntriesAt_eq (bytes : List Byte) (i n : Nat) :
    cueEntriesAt bytes i n = (List.range n).map (fun k => cueEntryAt bytes (i + 3 * k)) := by
  induction n generalizing i with
  | zero => rfl
  | succ n ih =>
    rw [cueEntriesAt, ih, range_map_succ]
    refine congrArg₂ List.cons rfl (List.map_congr_left fun k _ => ?_)
    rw [show i + 3 + 3 * k = i + 3 * (k + 1) by omega]

theorem number_range (task : PhaseTask) : 1 ≤ task.number.toNat ∧ task.number.toNat ≤ 7 := by
  cases task <;> decide

theorem number_eq_six {task : PhaseTask} : task.number = 6 ↔ task = .extendPreview := by
  cases task <;> decide

theorem taskOfNumber_of_range {n : Byte} (low : 1 ≤ n.toNat) (high : n.toNat ≤ 7) :
    ∃ task : PhaseTask, task.number = n := by
  have some_ : ∀ m : Fin 7, ∃ task : PhaseTask, task.number = BitVec.ofNat 8 (m.val + 1)
    | 0 => ⟨.goPreview, rfl⟩
    | 1 => ⟨.goLive, rfl⟩
    | 2 => ⟨.goExtra, rfl⟩
    | 3 => ⟨.goWindDown, rfl⟩
    | 4 => ⟨.goClosed, rfl⟩
    | 5 => ⟨.extendPreview, rfl⟩
    | 6 => ⟨.backToSale, rfl⟩
  obtain ⟨task, number⟩ := some_ ⟨n.toNat - 1, by omega⟩
  refine ⟨task, number.trans ?_⟩
  rw [show n.toNat - 1 + 1 = n.toNat by omega, BitVec.ofNat_toNat, BitVec.setWidth_eq]

theorem cueEntryAt_some {bytes : List Byte} {i : Nat} (range : CueInRange bytes i) :
    ∃ entry, cueEntryAt bytes i = some entry ∧ CueReads bytes i entry := by
  obtain ⟨low, high, minutes⟩ := range
  obtain ⟨task, number⟩ := taskOfNumber_of_range low high
  have named : taskOfNumber (byteAt bytes (i + 1)) = some task := number ▸ taskOfNumber_number task
  unfold cueEntryAt
  rw [named]
  dsimp only
  by_cases extend : task = .extendPreview
  · have six : byteAt bytes (i + 1) = 6 := number ▸ number_eq_six.mpr extend
    rw [if_pos extend, if_pos (minutes six)]
    exact ⟨_, rfl, rfl, number, (if_pos extend).symm⟩
  · rw [if_neg extend]
    exact ⟨_, rfl, rfl, number, (if_neg extend).symm⟩

theorem cueEntryAt_none {bytes : List Byte} {i : Nat} (out : ¬ CueInRange bytes i) : cueEntryAt bytes i = none := by
  unfold cueEntryAt
  cases named : taskOfNumber (byteAt bytes (i + 1)) with
  | none => rfl
  | some task =>
    have number : task.number = byteAt bytes (i + 1) := by
      by_cases range : 1 ≤ (byteAt bytes (i + 1)).toNat ∧ (byteAt bytes (i + 1)).toNat ≤ 7
      · obtain ⟨same, number⟩ := taskOfNumber_of_range range.1 range.2
        rw [← number, taskOfNumber_number] at named
        rw [← number, Option.some.inj named]
      · rw [taskOfNumber_eq_none (by simp; omega)] at named
        cases named
    have range := number_range task
    rw [number] at range
    have bad : ¬ (byteAt bytes (i + 1) = 6 → 1 ≤ (byteAt bytes (i + 2)).toNat ∧ (byteAt bytes (i + 2)).toNat ≤ 30) :=
      fun minutes => out ⟨range.1, range.2, minutes⟩
    obtain ⟨six, minutes⟩ := Classical.not_imp.mp bad
    dsimp only
    rw [if_pos (number_eq_six.mp (number.trans six)), if_neg minutes]

theorem cueMapAt_none {bytes : List Byte} {i n : Nat} (out : ¬ ∀ k, k < n → CueInRange bytes (i + 3 * k)) :
    cueMapAt bytes i n = none := by
  obtain ⟨k, bad⟩ := Classical.not_forall.mp out
  obtain ⟨small, bad⟩ := Classical.not_imp.mp bad
  refine if_neg fun all => ?_
  have listed : cueEntryAt bytes (i + 3 * k) ∈ cueEntriesAt bytes i n := by
    rw [cueEntriesAt_eq]
    exact List.mem_map.mpr ⟨k, List.mem_range.mpr small, rfl⟩
  have read := List.all_eq_true.mp all _ listed
  rw [cueEntryAt_none bad] at read
  cases read

theorem cueMapAt_some {bytes : List Byte} {i n : Nat} (range : ∀ k, k < n → CueInRange bytes (i + 3 * k)) :
    ∃ map, cueMapAt bytes i n = some map ∧ map.length = n ∧
      ∀ k (h : k < map.length), CueReads bytes (i + 3 * k) map[k] := by
  have one : Nonempty CueEntry := ⟨{ code := 0, task := .goPreview, minutes := none }⟩
  choose! entry read using fun k small => cueEntryAt_some (range k small)
  have entries : cueEntriesAt bytes i n = (List.range n).map (fun k => some (entry k)) := by
    rw [cueEntriesAt_eq]
    exact List.map_congr_left fun k listed => (read k (List.mem_range.mp listed)).1
  refine ⟨(List.range n).map entry, ?_, by simp, fun k inside => ?_⟩
  · unfold cueMapAt
    rw [entries, if_pos (by simp), List.filterMap_map]
    exact congrArg some (congrFun List.filterMap_eq_map _)
  · rw [List.getElem_map, List.getElem_range]
    exact (read k (by simpa using inside)).2

/-! ## SET_ZONE, SET_PROFILE and SET_CUE_MAP -/

section Refusals

variable {q : Request} {g : Gate}

theorem setZone_badForm (form : q.length ≠ 4) : setZone q g = refuse .badForm g := if_pos form

theorem setZone_range (form : q.length = 4)
    (range : ¬ ((byteAt q.body 0).toNat ≤ g.loader.zoneStraps.toNat ∧ (byteAt q.body 3).toNat ≤ 1)) :
    setZone q g = refuse .range g := by
  refine (if_neg (not_not_intro form)).trans ?_
  by_cases strapped : g.loader.zoneStraps.toNat < (byteAt q.body 0).toNat
  · rw [strappedZone_none strapped]
  · obtain ⟨z, same⟩ := zone_of_strapped strapped
    rw [strappedZone_some same strapped]
    exact if_pos (by omega)

theorem setZone_runs {z : ZoneIndex} (form : q.length = 4)
    (range : (byteAt q.body 0).toNat ≤ g.loader.zoneStraps.toNat ∧ (byteAt q.body 3).toNat ≤ 1)
    (same : z.val = (byteAt q.body 0).toNat) : setZone q g =
      { result := .ok
        body := field 2 (clampShare (halfAt q.body 1)).toNat ++ [byteAt q.body 3]
        gate := modZone z (fun zone => { zone with share := clampShare (halfAt q.body 1), dark := byteAt q.body 3 = 1 }) g } := by
  refine (if_neg (not_not_intro form)).trans ?_
  rw [strappedZone_some same (Nat.not_lt.mpr range.1)]
  exact if_neg (Nat.not_lt.mpr range.2)

theorem setCueMap_form (form : q.length ≠ 0 ∧ q.length = 1 + 3 * (byteAt q.body 0).toNat) :
    ¬ (q.length = 0 ∨ q.length ≠ 1 + 3 * (byteAt q.body 0).toNat) :=
  not_or.mpr ⟨form.1, not_not_intro form.2⟩

theorem setCueMap_badForm (form : ¬ (q.length ≠ 0 ∧ q.length = 1 + 3 * (byteAt q.body 0).toNat)) :
    setCueMap q g = refuse .badForm g :=
  if_pos (by omega)

theorem setCueMap_long (form : q.length ≠ 0 ∧ q.length = 1 + 3 * (byteAt q.body 0).toNat)
    (long : 16 < (byteAt q.body 0).toNat) : setCueMap q g = refuse .range g :=
  (if_neg (setCueMap_form form)).trans (if_pos long)

theorem setCueMap_twice (form : q.length ≠ 0 ∧ q.length = 1 + 3 * (byteAt q.body 0).toNat)
    (few : (byteAt q.body 0).toNat ≤ 16) (twice : ¬ (cueCodesAt q.body 1 (byteAt q.body 0).toNat).Nodup) :
    setCueMap q g = refuse .badForm g :=
  (if_neg (setCueMap_form form)).trans ((if_neg (Nat.not_lt.mpr few)).trans (if_pos twice))

theorem setCueMap_reads (form : q.length ≠ 0 ∧ q.length = 1 + 3 * (byteAt q.body 0).toNat)
    (few : (byteAt q.body 0).toNat ≤ 16) (distinct : (cueCodesAt q.body 1 (byteAt q.body 0).toNat).Nodup)
    {read : Option (List CueEntry)} (map : cueMapAt q.body 1 (byteAt q.body 0).toNat = read) :
    setCueMap q g = (read.elim (refuse .range g) fun entries =>
      { result := .ok, body := [], gate := { g with settings := { g.settings with cueMap := entries } } }) := by
  refine (if_neg (setCueMap_form form)).trans ((if_neg (Nat.not_lt.mpr few)).trans ?_)
  refine (if_neg (not_not_intro distinct)).trans ?_
  rw [map]
  cases read <;> rfl

end Refusals

/-! ## SET_TIMING (R77, R174) -/

theorem timingInRange_iff {body : List Byte} : timingInRange body = true ↔
    (halfAt body 0).toNat ≤ 10000 ∧ (halfAt body 2).toNat ≤ 30000 ∧ 1 ≤ (byteAt body 4).toNat ∧
      (byteAt body 4).toNat ≤ 30 ∧ (byteAt body 8).toNat ≤ 1 := by
  simp [timingInRange, and_assoc]

/-- R77: what the recomputation of open lead instants does to the part: the records, and the zones given entries of a sheet
whose new instant is reached. -/
structure Retimes (g h : Gate) : Prop where
  frame : h = { g with events := h.events, zones := h.zones }
  offers : ∀ e sheet, OffersNow h g.settings.openLead e sheet → OffersNow g g.settings.openLead e sheet
  opens : ∀ e z, unblacked h e z ↔ unblacked g e z
  zone : ∀ z, h.zone z = { g.zone z with fresh := (h.zone z).fresh, counters := (h.zone z).counters }
  added : ∀ z, ∃ added, (h.zone z).fresh = (g.zone z).fresh ++ added ∧ ∀ entry ∈ added, ∃ e sheet,
    OffersNow g g.settings.openLead e sheet ∧ unblacked g e z ∧ entry = openEntry e sheet.number
  apart : ∀ z, (∀ e sheet, OffersNow g g.settings.openLead e sheet → ¬ unblacked g e z) → h.zone z = g.zone z

theorem Retimes.refl (g : Gate) : Retimes g g where
  frame := rfl
  offers _ _ now := now
  opens _ _ := .rfl
  zone _ := rfl
  added _ := ⟨[], (List.append_nil _).symm, fun _ mem => nomatch mem⟩
  apart _ _ := rfl

theorem Retimes.settings {g h : Gate} (first : Retimes g h) : h.settings = g.settings := by
  rw [first.frame]

theorem Retimes.clock {g h : Gate} (first : Retimes g h) : h.clock = g.clock := by
  rw [first.frame]

theorem Retimes.trans {g h k : Gate} (first : Retimes g h) (second : Retimes h k) : Retimes g k := by
  have lead : h.settings.openLead = g.settings.openLead := by rw [first.settings]
  have offers {e sheet} (now : OffersNow h h.settings.openLead e sheet) : OffersNow g g.settings.openLead e sheet :=
    first.offers e sheet (lead ▸ now)
  refine ⟨?_, fun e sheet now => offers (second.offers e sheet (lead.symm ▸ now)),
    fun e z => (second.opens e z).trans (first.opens e z), fun z => ?_, fun z => ?_, fun z none => ?_⟩
  · rw [second.frame, first.frame]
  · rw [second.zone, first.zone]
  · obtain ⟨early, before, ones⟩ := first.added z
    obtain ⟨late, after, others⟩ := second.added z
    refine ⟨early ++ late, by rw [after, before, List.append_assoc], fun entry mem => ?_⟩
    rcases List.mem_append.mp mem with old | new
    · exact ones entry old
    · obtain ⟨e, sheet, now, opens, same⟩ := others entry new
      exact ⟨e, sheet, offers now, (first.opens e z).mp opens, same⟩
  · rw [second.apart z fun e sheet now opens => none e sheet (offers now) ((first.opens e z).mp opens), first.apart z none]

section OneEvent

variable {e : EventIndex} {g : Gate} {sheet : Sheet}

/-- R77: the open lead instant of a sheet with the lead in force. -/
abbrev newInstant (g : Gate) (sheet : Sheet) : Time :=
  leadInstant sheet.effective g.settings.openLead

theorem recomputeLead_of_unset (unset : (g.event e).openLead = none ∨ (g.event e).pendingSheet = none) :
    recomputeLead e g = g := by
  rcases unset with unset | empty
  · exact if_neg (by simp [unset])
  · unfold recomputeLead
    rw [setOpenLead_none empty, ite_self]

theorem recomputeLead_waits (set : (g.event e).openLead ≠ none) (held : (g.event e).pendingSheet = some sheet)
    (waits : ¬ Reached g (newInstant g sheet)) :
    recomputeLead e g = modEvent e (fun ev => { ev with openLead := some (newInstant g sheet) }) g :=
  (if_pos (Option.isSome_iff_ne_none.mpr set)).trans (setOpenLead_waits held (mt reached_iff.mp waits))

theorem recomputeLead_offers (now : OffersNow g g.settings.openLead e sheet) :
    recomputeLead e g = openOffer e .pending (modEvent e (fun ev => { ev with openLead := none }) g) :=
  (if_pos (Option.isSome_iff_ne_none.mpr now.1)).trans (setOpenLead_reached now.2.1 (reached_iff.mpr now.2.2))

/-- R77: the three cases of one event. -/
theorem recomputeLead_cases (e : EventIndex) (g : Gate) : recomputeLead e g = g ∨
    (∃ sheet, (g.event e).pendingSheet = some sheet ∧ ¬ Reached g (newInstant g sheet) ∧
      recomputeLead e g = modEvent e (fun ev => { ev with openLead := some (newInstant g sheet) }) g) ∨
    (∃ sheet, OffersNow g g.settings.openLead e sheet ∧
      recomputeLead e g = openOffer e .pending (modEvent e (fun ev => { ev with openLead := none }) g)) := by
  by_cases set : (g.event e).openLead = none
  · exact .inl (recomputeLead_of_unset (.inl set))
  · cases held : (g.event e).pendingSheet with
    | none => exact .inl (recomputeLead_of_unset (.inr held))
    | some sheet =>
      by_cases reached : Reached g (newInstant g sheet)
      · exact .inr (.inr ⟨sheet, ⟨set, held, reached⟩, recomputeLead_offers ⟨set, held, reached⟩⟩)
      · exact .inr (.inl ⟨sheet, rfl, reached, recomputeLead_waits set held reached⟩)

theorem modEvent_retimes {lead : Option Time}
    (settled : ∀ sheet, (g.event e).pendingSheet = some sheet → lead = none ∨ ¬ Reached g (newInstant g sheet)) :
    Retimes g (modEvent e (fun ev => { ev with openLead := lead }) g) where
  frame := rfl
  offers i sheet now := by
    obtain ⟨set, held, reached⟩ := now
    rw [modEvent_event] at set held
    split at set
    · next same =>
      subst same
      rw [if_pos rfl] at held
      rcases settled sheet held with unset | waits
      · exact absurd unset set
      · exact absurd reached waits
    · next other =>
      rw [if_neg other] at held
      exact ⟨set, held, reached⟩
  opens _ _ := unblacked_modEvent (by intro; rfl)
  zone _ := rfl
  added _ := ⟨[], (List.append_nil _).symm, fun _ mem => nomatch mem⟩
  apart _ _ := rfl

theorem offerTo_added (entry : FreshEntry) (queue : List FreshEntry) :
    ∃ added, offerTo entry queue = queue ++ added ∧ ∀ one ∈ added, one = entry := by
  unfold offerTo
  split
  · exact ⟨[], (List.append_nil _).symm, fun _ mem => nomatch mem⟩
  · exact ⟨[entry], rfl, fun _ mem => List.mem_singleton.mp mem⟩

theorem openOffer_retimes (now : OffersNow g g.settings.openLead e sheet) :
    Retimes g (openOffer e .pending (modEvent e (fun ev => { ev with openLead := none }) g)) := by
  have first : Retimes g (modEvent e (fun ev => { ev with openLead := none }) g) :=
    modEvent_retimes fun _ _ => .inl rfl
  obtain ⟨k, same⟩ : ∃ k, modEvent e (fun ev => { ev with openLead := none }) g = k := ⟨_, rfl⟩
  have record : k.event e = { g.event e with openLead := none } := by rw [← same, modEvent_event, if_pos rfl]
  have held : k.sheet e .pending = some sheet := (congrArg Event.pendingSheet record :).trans now.2.1
  have zones (z : ZoneIndex) : k.zone z = g.zone z := by rw [← same, modEvent_zone]
  rw [same] at first ⊢
  have zone (z : ZoneIndex) : (openOffer e .pending k).zone z
      = if k.opens e z then offerZone (openEntry e sheet.number) (g.zone z) else g.zone z := by
    rw [openOffer_zone held, zones]
  have gives (z : ZoneIndex) : k.opens e z = true ↔ unblacked g e z := opens_iff.trans (first.opens e z)
  refine ⟨?_, fun i other offers => first.offers i other ?_, fun i z => ?_, fun z => ?_, fun z => ?_, fun z none => ?_⟩
  · rw [openOffer_frame, first.frame]
  · obtain ⟨set, pending, reached⟩ := offers
    rw [openOffer_event] at set pending
    split at set
    · next same =>
      subst same
      exact absurd (congrArg Event.openLead record :) set
    · next apart =>
      rw [if_neg apart] at pending
      rw [Reached, openOffer_clock] at reached
      exact ⟨set, pending, reached⟩
  · rw [← first.opens]
    unfold unblacked
    rw [openOffer_event, show (openOffer e .pending k).driven z = k.driven z by rw [openOffer_frame]; rfl]
    split
    · next same => subst same; rfl
    · rfl
  · rw [zone]
    split
    · rw [offerZone_fresh]
      exact offerZone_frame ..
    · rfl
  · rw [zone]
    split
    · next given =>
      rw [offerZone_fresh]
      obtain ⟨added, grows, one⟩ := offerTo_added (openEntry e sheet.number) (g.zone z).fresh
      exact ⟨added, grows, fun entry mem => ⟨e, sheet, now, (gives z).mp given, one entry mem⟩⟩
    · exact ⟨[], (List.append_nil _).symm, fun _ mem => nomatch mem⟩
  · rw [zone, if_neg (fun given => none e sheet now ((gives z).mp given))]

theorem recomputeLead_retimes (e : EventIndex) (g : Gate) : Retimes g (recomputeLead e g) := by
  rcases recomputeLead_cases e g with same | ⟨sheet, held, waits, same⟩ | ⟨sheet, now, same⟩
  · rw [same]
    exact .refl g
  · rw [same]
    refine modEvent_retimes fun other also => .inr ?_
    rw [held] at also
    rwa [← Option.some.inj also]
  · rw [same]
    exact openOffer_retimes now

theorem recomputeLead_event_other {i : EventIndex} (other : i ≠ e) (g : Gate) : (recomputeLead e g).event i = g.event i := by
  unfold recomputeLead
  split
  · exact setOpenLead_event_other other g
  · rfl

theorem recomputeLead_event_offers (now : OffersNow g g.settings.openLead e sheet) : (recomputeLead e g).event e
    = { g.event e with openLead := none, pendingSheet := some { sheet with mark := true } } := by
  have record : (modEvent e (fun ev => { ev with openLead := none }) g).event e = { g.event e with openLead := none } := by
    rw [modEvent_event, if_pos rfl]
  have held : (modEvent e (fun ev => { ev with openLead := none }) g).sheet e .pending = some sheet :=
    (congrArg Event.pendingSheet record :).trans now.2.1
  rw [recomputeLead_offers now, openOffer_event, if_pos rfl, held, record]
  rfl

theorem recomputeLead_offered {z : ZoneIndex} (now : OffersNow g g.settings.openLead e sheet) (opens : unblacked g e z) :
    Offered (recomputeLead e g) e sheet.number z := by
  have record : (modEvent e (fun ev => { ev with openLead := none }) g).event e = { g.event e with openLead := none } := by
    rw [modEvent_event, if_pos rfl]
  rw [recomputeLead_offers now]
  exact openOffer_offered ((congrArg Event.pendingSheet record :).trans now.2.1)
    ((unblacked_modEvent (by intro; rfl)).mpr opens)

/-- R77: what SET_TIMING makes of one event: its record is as the recomputation of it alone leaves it, and what that offers
stays offered. -/
theorem retimeAll_at (e : EventIndex) (g : Gate) : ∃ m, Retimes g m ∧ m.event e = g.event e ∧
    Retimes (recomputeLead e m) (allEvents.foldl (fun acc x => recomputeLead x acc) g) ∧
    (allEvents.foldl (fun acc x => recomputeLead x acc) g).event e = (recomputeLead e m).event e := by
  obtain ⟨m, ⟨before, same⟩, after, last⟩ := foldl_allEvents_at e (f := recomputeLead)
    (R := fun g h => Retimes g h ∧ h.event e = g.event e) (fun g => ⟨.refl g, rfl⟩)
    (fun g h k first second => ⟨first.1.trans second.1, second.2.trans first.2⟩)
    (fun x apart acc => ⟨recomputeLead_retimes x acc, recomputeLead_event_other (Ne.symm apart) acc⟩) g
  exact ⟨m, before, same, after, last⟩

end OneEvent

/-- R77: the records and the zones after the recomputation for all the events. -/
structure Retimed (g h : Gate) : Prop where
  retimes : Retimes g h
  unset : ∀ e, (g.event e).openLead = none ∨ (g.event e).pendingSheet = none → h.event e = g.event e
  waits : ∀ e sheet, (g.event e).openLead ≠ none → (g.event e).pendingSheet = some sheet →
    ¬ Reached g (newInstant g sheet) → h.event e = { g.event e with openLead := some (newInstant g sheet) }
  offers : ∀ e sheet, OffersNow g g.settings.openLead e sheet →
    h.event e = { g.event e with openLead := none, pendingSheet := some { sheet with mark := true } }
  offered : ∀ e sheet z, OffersNow g g.settings.openLead e sheet → unblacked g e z → Offered h e sheet.number z

theorem retimeAll (g : Gate) : Retimed g (allEvents.foldl (fun acc x => recomputeLead x acc) g) := by
  refine ⟨?_, fun e unset => ?_, fun e sheet set held waits => ?_, fun e sheet now => ?_, fun e sheet z now opens => ?_⟩
  · exact List.foldlRecOn (motive := Retimes g) allEvents _ (.refl g)
      fun acc reached x _ => reached.trans (recomputeLead_retimes x acc)
  all_goals obtain ⟨m, before, same, after, last⟩ := retimeAll_at e g
  · rw [last, recomputeLead_of_unset (same ▸ unset), same]
  · rw [last, recomputeLead_waits (sheet := sheet) (same ▸ set) (same ▸ held), modEvent_event, if_pos rfl, same, newInstant,
      before.settings]
    rwa [newInstant, before.settings, Reached, before.clock]
  · rw [last, recomputeLead_event_offers (sheet := sheet), same]
    rw [OffersNow, same, before.settings, Reached, before.clock]
    exact now
  · obtain ⟨added, grows, -⟩ := after.added z
    refine offered_of_prefix (g := recomputeLead e m) ⟨added, grows.symm⟩ (recomputeLead_offered ?_ ((before.opens e z).mpr opens))
    rw [OffersNow, same, before.settings, Reached, before.clock]
    exact now

/-- A byte that is 0 or 1, stored as a flag and read back. -/
theorem flagRead_eq {flag : Byte} (range : flag.toNat ≤ 1) : (if decide (flag = 1) = true then (1 : Byte) else 0) = flag := by
  by_cases one : flag = 1
  · rw [if_pos (decide_eq_true one), one]
  · rw [if_neg (by simpa using one)]
    bv_omega

/-- R174: the seven values as stored, in the command's layout. -/
theorem timingRead_withTiming {body : List Byte} (flag : (byteAt body 8).toNat ≤ 1) (settings : Settings) :
    timingRead (settings.withTiming body) = field 2 (halfAt body 0).toNat ++ field 2 (halfAt body 2).toNat
      ++ [byteAt body 4, BitVec.ofNat 8 (max 1 (min (byteAt body 5).toNat 15)),
        BitVec.ofNat 8 (max 2 (min (byteAt body 6).toNat 15)), BitVec.ofNat 8 (max 5 (min (byteAt body 7).toNat 240)),
        byteAt body 8] :=
  congrArg (fun last => _ ++ [_, _, _, _, last]) (flagRead_eq flag)

/-- R77, R174: the part as SET_TIMING leaves it, by the part it found. -/
theorem writeTiming_retimed (body : List Byte) (g : Gate) :
    Retimed { g with settings := g.settings.withTiming body } (writeTiming body g) :=
  retimeAll _

end Sys2Proof.Machine

namespace Sys2Proof.Proofs

open Sys2Proof.Machine Sys2Proof.Safety Sys2Proof.Claims

set_option Elab.async false

/-- Settles O51: each command passes or fails its checks in order; SET_TIMING recomputes the open lead instants event by event
(`Retimed`). -/
theorem settingCommandsReplaceTheirSettings : Obligations.SettingCommandsReplaceTheirSettings := by
  intro s q begins left
  obtain ⟨c, command, replies⟩ := leaveQueue_left s.gate
  have straps : (leaveQueue s.gate).loader = s.gate.loader := by rw [command]
  refine ⟨fun coded => ?zone, fun coded => ?profile, fun coded => ?cues, fun coded => ?timing⟩
  case zone =>
    refine ⟨fun form => exec_of_refused (i := .setZone) rfl begins coded (setZone_badForm form),
      fun form range => exec_of_refused (i := .setZone) rfl begins coded (setZone_range form (straps ▸ range)),
      fun z form range same => ?_⟩
    rw [exec_of_answered (i := .setZone) rfl begins coded (setZone_runs form (straps ▸ range) same), Machine.answered, coded]
    rfl
  case profile =>
    intro inRange
    have good : profileInRange q.body 0 = true ↔ inRange := by
      rw [profileInRange_iff]
      simp only [Nat.zero_add]
      rfl
    refine ⟨fun form => exec_of_refused (i := .setProfile) rfl begins coded (if_pos form),
      fun form range => exec_of_refused (i := .setProfile) rfl begins coded
        ((if_neg (not_not_intro form)).trans (if_pos (by simpa using mt good.mp range))), fun form range => ?_⟩
    rw [exec_of_answered (i := .setProfile) rfl begins coded
      ((if_neg (not_not_intro form)).trans (if_neg (by simpa using good.mpr range))), Machine.answered, coded]
    rfl
  case cues =>
    intro n form codes inRange
    have named : cueCodesAt q.body 1 n = codes := cueCodesAt_eq ..
    have good : inRange ↔ ∀ k, k < n → CueInRange q.body (1 + 3 * k) := by
      refine forall₂_congr fun k _ => ?_
      rw [CueInRange, show 1 + 3 * k + 1 = 2 + 3 * k by omega, show 1 + 3 * k + 2 = 3 + 3 * k by omega]
    refine ⟨fun bad => exec_of_refused (i := .setCueMap) rfl begins coded (setCueMap_badForm bad),
      fun form long => exec_of_refused (i := .setCueMap) rfl begins coded (setCueMap_long form long),
      fun form few twice => exec_of_refused (i := .setCueMap) rfl begins coded (setCueMap_twice form few (named ▸ twice)),
      fun form few distinct range => exec_of_refused (i := .setCueMap) rfl begins coded
        (setCueMap_reads form few (named ▸ distinct) (cueMapAt_none (mt good.mpr range))), fun form few distinct range => ?_⟩
    obtain ⟨map, read, length, entries⟩ := cueMapAt_some (good.mp range)
    refine ⟨map, length, fun k inside => ?_, ?_⟩
    · obtain ⟨code, number, minutes⟩ := entries k inside
      rw [show 1 + 3 * k + 1 = 2 + 3 * k by omega] at number
      rw [show 1 + 3 * k + 2 = 3 + 3 * k by omega] at minutes
      exact ⟨code, number, minutes⟩
    · rw [exec_of_answered (i := .setCueMap) rfl begins coded (setCueMap_reads form few (named ▸ distinct) read),
        Machine.answered, coded]
      rfl
  case timing =>
    intro inRange newLead warn stall aging
    refine ⟨fun form => exec_of_refused (i := .setTiming) rfl begins coded (if_pos form),
      fun form range => exec_of_refused (i := .setTiming) rfl begins coded
        ((if_neg (not_not_intro form)).trans (if_pos (by simpa using mt timingInRange_iff.mp range))), fun form range => ?_⟩
    have run := exec_of_answered (i := .setTiming) rfl begins coded
      ((if_neg (not_not_intro form)).trans (if_neg (by simpa using timingInRange_iff.mpr range)))
    obtain ⟨retimes, unset, waits, offers, offered⟩ := writeTiming_retimed q.body (leaveQueue s.gate)
    obtain ⟨w, same⟩ : ∃ w, writeTiming q.body (leaveQueue s.gate) = w := ⟨_, rfl⟩
    rw [same] at run retimes unset waits offers offered
    rw [command] at run retimes unset waits offers offered
    refine ⟨_, run, rfl, ?frame, offered, retimes.apart, fun z => ⟨retimes.zone z, retimes.added z⟩, fun e =>
      ⟨unset e, fun lead sheet set held => ?event⟩⟩
    case event =>
      have dated : (s.gate.event e).openLead ≠ none := by
        rw [set]
        exact Option.some_ne_none lead
      exact ⟨waits e sheet dated held, fun reached => offers e sheet ⟨dated, held, reached⟩⟩
    case frame =>
      obtain ⟨events, zones, rfl⟩ : ∃ events zones, w = { s.gate with
        settings := s.gate.settings.withTiming q.body, command := c, events := events, zones := zones } :=
        ⟨_, _, retimes.frame⟩
      rw [Machine.answered, timingRead_withTiming range.2.2.2.2, coded,
        show left.command = c from congrArg Gate.command command, ← replies]
      rfl

end Sys2Proof.Proofs

/-! PROOF. IMAGE_LOAD_END (R179, R180, Table 81): the bytes of an image, the checks of a load, what a load leaves, and the
statement ImageLoadEndTakesOrDefaults. -/

namespace Sys2Proof.Machine

open Sys2Proof.Safety Sys2Proof.Claims

set_option Elab.async false

/-! ## The bytes of an image -/

theorem readAll_eq (memory : List Host.Cell) (i n : Nat) :
    Memory.readAll memory i n = (List.range n).map (fun k => Memory.read memory (i + k)) := by
  induction n generalizing i with
  | zero => rfl
  | succ n ih =>
    rw [Memory.readAll, ih, range_map_succ]
    refine congrArg₂ List.cons rfl (List.map_congr_left fun k _ => ?_)
    rw [show i + 1 + k = i + (k + 1) by omega]

theorem readAll_imageOf (memory : List Host.Cell) : Memory.readAll memory 0 imageLength = imageOf memory := by
  rw [readAll_eq]
  exact List.map_congr_left fun k _ => by rw [Nat.zero_add]

theorem imageOf_length (memory : List Host.Cell) : (imageOf memory).length = 88 := by
  simp [imageOf]

theorem byteSum_eq (bytes : List Byte) : byteSum bytes = (bytes.map BitVec.toNat).sum := by
  have fold (start : Nat) : bytes.foldl (fun sum b => sum + b.toNat) start = start + (bytes.map BitVec.toNat).sum := by
    induction bytes generalizing start with
    | nil => rfl
    | cons b rest ih => rw [List.foldl_cons, ih, List.map_cons, List.sum_cons, Nat.add_assoc]
  exact (fold 0).trans (Nat.zero_add _)

theorem take_drop_eq {bytes : List Byte} {i n : Nat} (inside : i + n ≤ bytes.length) :
    (bytes.drop i).take n = (List.range n).map (fun k => byteAt bytes (i + k)) := by
  refine List.ext_getElem (by simp; omega) fun k low _ => ?_
  have bound : i + k < bytes.length := by
    simp only [List.length_take, List.length_drop] at low
    omega
  rw [List.getElem_take, List.getElem_drop, List.getElem_map, List.getElem_range, byteAt, List.getD_eq_getElem _ _ bound]

theorem sumGood_iff {image : List Byte} (length : image.length = 88) :
    natAt image 86 2 = imageSum image ↔ SumGood image := by
  rw [imageSum, byteSum_eq, take_drop_eq (by omega), List.map_map]
  rfl

/-! ## The checks of a load -/

theorem imageInRange_iff {image : List Byte} : imageInRange image = true ↔ ImageInRange image := by
  have cues : (cueMapAt image 23 (byteAt image 22).toNat).isSome = true
      ↔ ∀ k, k < (byteAt image 22).toNat → CueInRange image (23 + 3 * k) := by
    by_cases range : ∀ k, k < (byteAt image 22).toNat → CueInRange image (23 + 3 * k)
    · obtain ⟨map, read, -⟩ := cueMapAt_some range
      exact iff_of_true (by rw [read]; rfl) range
    · exact iff_of_false (by rw [cueMapAt_none range]; exact Bool.false_ne_true) range
  have entry (k : Nat) : CueInRange image (23 + 3 * k) ↔ 1 ≤ (byteAt image (24 + 3 * k)).toNat ∧
      (byteAt image (24 + 3 * k)).toNat ≤ 7 ∧ (byteAt image (24 + 3 * k) = 6 →
        1 ≤ (byteAt image (25 + 3 * k)).toNat ∧ (byteAt image (25 + 3 * k)).toNat ≤ 30) := by
    rw [CueInRange, show 23 + 3 * k + 1 = 24 + 3 * k by omega, show 23 + 3 * k + 2 = 25 + 3 * k by omega]
  have zones : allZones.all (fun z => 1 ≤ (imageShare image z).toNat && (imageShare image z).toNat ≤ 256) = true
      ↔ ∀ z : ZoneIndex, 1 ≤ (halfAt image (1 + 2 * z.val)).toNat ∧ (halfAt image (1 + 2 * z.val)).toNat ≤ 256 := by
    simp only [List.all_eq_true, mem_allZones, true_implies, Bool.and_eq_true, imageShare]
    exact forall_congr' fun z => and_congr decide_eq_true_iff decide_eq_true_iff
  simp only [imageInRange, imageZonesGood, imageCuesGood, imageTimingGood, imageRatesGood, Bool.and_eq_true,
    decide_eq_true_eq, cueCodesAt_eq, profileInRange_iff, cues, zones, entry, ImageInRange, and_assoc]

section Failure

variable {image : List Byte} {acknowledged : Nat}

theorem imageFailure_short (short : acknowledged = 0 ∨ (byteAt image 0 = 0xA5 ∧ acknowledged < 88)) :
    imageFailure image acknowledged = some 0x01 := by
  by_cases none_ : acknowledged = 0
  · exact if_pos none_
  · obtain ⟨marked, few⟩ := short.resolve_left none_
    exact (if_neg none_).trans ((if_neg (not_not_intro marked)).trans (if_pos few))

theorem imageFailure_unmarked (some_ : acknowledged ≠ 0) (unmarked : byteAt image 0 ≠ 0xA5) :
    imageFailure image acknowledged = some 0x02 :=
  (if_neg some_).trans (if_pos unmarked)

theorem imageFailure_whole (whole : 88 ≤ acknowledged) (marked : byteAt image 0 = 0xA5) :
    imageFailure image acknowledged = if natAt image 86 2 ≠ imageSum image then some 0x03
      else if !imageInRange image then some 0x04 else none := by
  have some_ : acknowledged ≠ 0 := by omega
  exact (if_neg some_).trans ((if_neg (not_not_intro marked)).trans (if_neg (Nat.not_lt.mpr whole)))

end Failure

/-! ## What a load leaves -/

theorem loadEnded_of_loaded {s : State} {k : Gate} {sub failure : Byte} {nominal : BitVec 32} {returns : Half}
    {settings : Settings} {share : ZoneIndex → Half} {dark : ZoneIndex → Bool}
    (frame : k = { s.gate with
      zones := k.zones
      settings := settings
      loader := { s.gate.loader with nominalRate := nominal, returnRate := returns } })
    (zone : ∀ z, k.zone z = (s.gate.zone z).withShare (share z) (dark z)) :
    LoadEnded s { s with gate := postImage sub failure (finishLoad k) } sub failure nominal returns settings share dark where
  pending := rfl
  gate := by
    obtain ⟨zones, rfl⟩ : ∃ zones, k = { s.gate with
      zones := zones
      settings := settings
      loader := { s.gate.loader with nominalRate := nominal, returnRate := returns } } := ⟨_, frame⟩
    have item : imageItem s.gate sub failure = Item.mk .image partObject
        [sub, if s.gate.strapFault then 1 else 0, failure, 0, 0, 0] := by
      simp [imageItem, Gate.strapFault]
    rw [item]
    rfl
  zone z := zone z

theorem loadEnded_of_defaults (s : State) (failure : Byte) :
    LoadEnded s { s with gate := postImage 0x02 failure (finishLoad (takeDefaults s.gate)) } 0x02 failure 100000 1000
      Settings.builtIn (fun _ => 192) (fun _ => false) :=
  loadEnded_of_loaded ((takeDefaults_frame s.gate).trans (by rw [takeDefaults_loader])) (takeDefaults_zone s.gate)

theorem loadEnded_of_image (s : State) (image : List Byte) :
    LoadEnded s { s with gate := postImage 0x01 0x00 (finishLoad (takeImage image s.gate)) } 0x01 0x00
      (BitVec.ofNat 32 (natAt image 80 4)) (BitVec.ofNat 16 (natAt image 84 2)) (imageSettings image)
      (fun z => halfAt image (1 + 2 * z.val)) (fun z => (byteAt image 9).getLsbD z.val) :=
  loadEnded_of_loaded ((takeImage_frame image s.gate).trans (by rw [takeImage_loader])) (takeImage_zone image s.gate)

theorem exec_imageLoadEnd {s : State} {acknowledged : Nat} (loading : s.gate.loader.loading = true)
    {failure : Option Byte} (first : imageFailure (imageOf s.gate.loader.eeprom) acknowledged = failure) :
    exec (.imageLoadEnd acknowledged) s = .next { s with
      gate := failure.elim (postImage 0x01 0x00 (finishLoad (takeImage (imageOf s.gate.loader.eeprom) s.gate)))
        fun code => postImage 0x02 code (finishLoad (takeDefaults s.gate)) } := by
  have run : effect (.imageLoadEnd acknowledged) s.gate = endLoad acknowledged s.gate := if_pos loading
  have ended : endLoad acknowledged s.gate = failure.elim
      (postImage 0x01 0x00 (finishLoad (takeImage (imageOf s.gate.loader.eeprom) s.gate)))
      fun code => postImage 0x02 code (finishLoad (takeDefaults s.gate)) := by
    unfold endLoad
    rw [readAll_imageOf]
    dsimp only
    rw [first]
    cases failure <;> rfl
  exact exec_of_effect (i := .imageLoadEnd acknowledged) (run.trans ended)

end Sys2Proof.Machine

namespace Sys2Proof.Proofs

open Sys2Proof.Machine Sys2Proof.Safety Sys2Proof.Claims

set_option Elab.async false

/-- Settles O53: the first failure of a load decides what is taken (`imageFailure`), and either load leaves what `LoadEnded`
says. -/
theorem imageLoadEndTakesOrDefaults : Obligations.ImageLoadEndTakesOrDefaults := by
  intro s acknowledged loading image defaulted
  have defaults {failure : Byte} (first : imageFailure image acknowledged = some failure) : defaulted failure :=
    ⟨_, exec_imageLoadEnd loading first, loadEnded_of_defaults s failure⟩
  have length : image.length = 88 := imageOf_length _
  refine ⟨fun short => defaults (imageFailure_short short),
    fun some_ unmarked => defaults (imageFailure_unmarked some_ unmarked), fun whole marked badSum => defaults ?_,
    fun whole marked sum out => defaults ?_, fun whole marked sum range => ?_⟩
  · rw [imageFailure_whole whole marked, if_pos (mt (sumGood_iff length).mp badSum)]
  · rw [imageFailure_whole whole marked, if_neg (not_not_intro ((sumGood_iff length).mpr sum)),
      if_pos (by simpa using mt imageInRange_iff.mp out)]
  · have none_ : imageFailure image acknowledged = none := by
      rw [imageFailure_whole whole marked, if_neg (not_not_intro ((sumGood_iff length).mpr sum)),
        if_neg (by simpa using imageInRange_iff.mpr range)]
    obtain ⟨-, -, -, few, distinct, cues, -⟩ := range
    obtain ⟨map, read, count, entries⟩ := cueMapAt_some (bytes := image) (i := 23) (n := (byteAt image 22).toNat) fun k small => by
      rw [CueInRange, show 23 + 3 * k + 1 = 24 + 3 * k by omega, show 23 + 3 * k + 2 = 25 + 3 * k by omega]
      exact cues k small
    have ended := loadEnded_of_image s image
    have run := exec_imageLoadEnd loading none_
    obtain ⟨t, same⟩ : ∃ t, State.mk s.pending (postImage 0x01 0x00 (finishLoad (takeImage image s.gate))) = t := ⟨_, rfl⟩
    replace run : exec (.imageLoadEnd acknowledged) s = .next t := same ▸ run
    rw [same] at ended
    have settings : t.gate.settings = imageSettings image := congrArg Gate.settings ended.gate
    have held : map = t.gate.settings.cueMap := by rw [settings, imageSettings, read, Option.getD_some]
    subst held
    refine ⟨t, run, count, fun k inside => ?_, ?_⟩
    · obtain ⟨code, number, minutes⟩ := entries k inside
      rw [show 23 + 3 * k + 1 = 24 + 3 * k by omega] at number
      rw [show 23 + 3 * k + 2 = 25 + 3 * k by omega] at minutes
      exact ⟨code, number, minutes⟩
    · have whole : imageSettings image = { imageSettings image with cueMap := t.gate.settings.cueMap } := by rw [settings]
      rw [whole] at ended
      exact ended

end Sys2Proof.Proofs

/-! PROOF. SAVE_IMAGE and SAVE_IMAGE_END (R176, R181): the bytes that a save writes, its count, and the statement
SaveImageWritesTheImage. -/

namespace Sys2Proof.Machine

open Sys2Proof.Safety Sys2Proof.Claims

set_option Elab.async false

theorem profileSaved_length (table : ProfileTable) : (profileSaved table).length = 12 := rfl

theorem timingRead_length (settings : Settings) : (timingRead settings).length = 9 := rfl

theorem sharesSaved_length (g : Gate) : (allZones.flatMap fun z => field 2 (g.zone z).share.toNat).length = 8 := rfl

theorem fieldsSaved_length (g : Gate) : (fieldsSaved g).length = 85 := by
  simp only [fieldsSaved, cueMapSaved, List.length_append, sharesSaved_length, profileSaved_length, timingRead_length,
    padTo_length, field_length, List.length_cons, List.length_nil]

theorem imageSaved_length (g : Gate) : (imageSaved g).length = 87 := by
  rw [imageSaved, List.length_append, fieldsSaved_length, field_length]

/-! ## SAVE_IMAGE -/

section Begin

variable {s : State} {q : Request}

theorem saveImage_of_begins (begins : Begins s.gate q) (coded : q.code = 0x35) :
    saveImage s.gate = if q.length = 0 then beginSave q.tag (leaveQueue s.gate)
      else placeReply q.tag q.code .badForm [] (leaveQueue s.gate) :=
  beginCommand_of_begins begins coded

theorem beginSave_leaveQueue (tag : Half) (g : Gate) : beginSave tag (leaveQueue g) = { leaveQueue g with
    loader := { g.loader with eeprom := Memory.write g.loader.eeprom 0 0x00 }
    command := { (leaveQueue g).command with work := .saving tag (imageSaved g) } } := by
  obtain ⟨c, command, -⟩ := leaveQueue_left g
  rw [command]
  rfl

end Begin

/-! ## The end of a save -/

section End

variable {g : Gate} {tag : Half} {image : List Byte} {acknowledged : Nat} {ok : Bool}

theorem saveImageEnd_whole (work : g.command.work = .saving tag image) (whole : 89 ≤ acknowledged) :
    saveImageEnd acknowledged g = endSave tag true (writeWhole image g) := by
  unfold saveImageEnd
  rw [work]
  exact if_pos whole

theorem saveImageEnd_part (work : g.command.work = .saving tag image) (part : acknowledged < 89) :
    saveImageEnd acknowledged g = endSave tag false (writePart image acknowledged g) := by
  unfold saveImageEnd
  rw [work]
  exact if_neg (Nat.not_le.mpr part)

theorem endSave_frame : endSave tag ok g = { g with
    counters := (endSave tag ok g).counters
    command := { g.command with
      work := .ready
      replies := g.command.replies
        ++ [{ tag := tag, code := 0x35, result := if ok then .ok else .storeFailed, body := [] }]
      status := insertItem (imageItem g (if ok then 0x03 else 0x04) 0x00) g.command.status } } := by
  have item (sub : Byte) : imageItem g sub 0x00 = Item.mk .image partObject
      [sub, if g.strapFault then 1 else 0, 0x00, 0, 0, 0] := by
    simp [imageItem, Gate.strapFault]
  rw [item]
  cases ok <;> rfl

theorem endSave_partCount (k : PartCounter) : partCount (endSave tag ok g) k
    = if k = .imageSaves then countSave ok (partCount g .imageSaves)
      else if k = .commandsExecuted then countUp (partCount g k) 1 else partCount g k := by
  have counted : (g.counters.set PartCounter.imageSaves.pos (countSave ok (partCount g .imageSaves)))[k.pos]
      = if k = .imageSaves then countSave ok (partCount g .imageSaves) else partCount g k := by
    split
    · next same =>
      subst same
      exact Vector.getElem_set_self _
    · next other =>
      exact Vector.getElem_set_ne _ _ fun same => other (PartCounter.pos_injective (Fin.ext same)).symm
  have executed : partCount (endSave tag ok g) k = if k = .commandsExecuted
      then countUp (g.counters.set PartCounter.imageSaves.pos (countSave ok (partCount g .imageSaves)))[k.pos] 1
      else (g.counters.set PartCounter.imageSaves.pos (countSave ok (partCount g .imageSaves)))[k.pos] := by
    have placed (r : Result) (h : Gate) : partCount (placeReply tag 0x35 r [] h) k
        = if k = .commandsExecuted then countUp (partCount h k) 1 else partCount h k := partCount_bump ..
    cases ok
    · exact placed .storeFailed _
    · exact placed .ok _
  rw [executed, counted]
  by_cases saves : k = .imageSaves
  · rw [if_pos saves, if_pos saves, if_neg (by rw [saves]; decide)]
  · rw [if_neg saves, if_neg saves]

theorem countSave_ok (c : Counter) : (countSave true c).toNat / 65536 = min (c.toNat / 65536 + 1) 65535 ∧
    (countSave true c).toNat % 65536 = c.toNat % 65536 := by
  have bound := c.isLt
  have whole : (countSave true c).toNat = min (c.toNat / 65536 + 1) 65535 * 65536 + c.toNat % 65536 :=
    (BitVec.toNat_ofNat ..).trans (Nat.mod_eq_of_lt (by omega))
  omega

theorem countSave_failed (c : Counter) : (countSave false c).toNat % 65536 = min (c.toNat % 65536 + 1) 65535 ∧
    (countSave false c).toNat / 65536 = c.toNat / 65536 := by
  have bound := c.isLt
  have whole : (countSave false c).toNat = c.toNat / 65536 * 65536 + min (c.toNat % 65536 + 1) 65535 :=
    (BitVec.toNat_ofNat ..).trans (Nat.mod_eq_of_lt (by omega))
  omega

/-! ## The bytes of a save -/

theorem imageOf_getElem {memory : List Host.Cell} {i : Nat} (inside : i < (imageOf memory).length) :
    (imageOf memory)[i] = Memory.read memory i := by
  simp [imageOf]

theorem writeWhole_eeprom : (writeWhole image g).loader.eeprom
    = Memory.write (Memory.writeAll g.loader.eeprom 1 image) 0 0xA5 := rfl

theorem writeWhole_read_above {a : Nat} (above : image.length < a) :
    Memory.read (writeWhole image g).loader.eeprom a = Memory.read g.loader.eeprom a := by
  rw [writeWhole_eeprom, Memory.read_write_other _ _ (by omega), Memory.read_writeAll_above _ _ (by omega)]

theorem imageOf_writeWhole (length : image.length = 87) : imageOf (writeWhole image g).loader.eeprom = 0xA5 :: image := by
  refine List.ext_getElem (by rw [imageOf_length, List.length_cons, length]) fun i low high => ?_
  rw [imageOf_getElem, writeWhole_eeprom]
  cases i with
  | zero => exact Memory.read_write_same ..
  | succ i =>
    have inside : i < image.length := by simpa using high
    rw [Memory.read_write_other _ _ (by omega), List.getElem_cons_succ, ← Memory.read_writeAll_at g.loader.eeprom 1 image inside,
      Nat.add_comm]

/-- Log 8: of a save that stopped, the transfer not acknowledged changes at most its own byte. -/
theorem writePart_read_other {a : Nat} (apart : acknowledged = 0 ∨ a ≠ (transferAt image acknowledged).1) :
    Memory.read (writePart image acknowledged g).loader.eeprom a
      = Memory.read (Memory.writeAll g.loader.eeprom 1 (image.take (acknowledged - 1))) a := by
  unfold writePart unackedTransfer
  dsimp only
  split
  · next stored => exact Memory.read_write_other _ _ (apart.resolve_left stored.1)
  · rfl

theorem transferAt_place (acknowledged : Nat) :
    (transferAt image acknowledged).1 = if acknowledged = 88 then 0 else acknowledged := by
  unfold transferAt
  split <;> rfl

theorem writePart_read_written {i : Nat} (length : image.length = 87) (low : 1 ≤ i) (high : i < acknowledged) (inside : i ≤ 87) :
    Memory.read (writePart image acknowledged g).loader.eeprom i = byteAt image (i - 1) := by
  have kept : i - 1 < (image.take (acknowledged - 1)).length := by
    rw [List.length_take]
    omega
  rw [writePart_read_other (.inr (by rw [transferAt_place]; split <;> omega))]
  obtain ⟨j, rfl⟩ : ∃ j, i = 1 + j := ⟨i - 1, by omega⟩
  rw [Nat.add_sub_cancel_left] at kept ⊢
  rw [Memory.read_writeAll_at _ _ _ kept, List.getElem_take, byteAt, List.getD_eq_getElem]

theorem writePart_read_above {a : Nat} (above : acknowledged < a ∨ 88 ≤ a) (part : acknowledged < 89)
    (length : image.length = 87) :
    Memory.read (writePart image acknowledged g).loader.eeprom a = Memory.read g.loader.eeprom a := by
  rw [writePart_read_other (by rw [transferAt_place]; split <;> omega)]
  exact Memory.read_writeAll_above _ _ (by rw [List.length_take]; omega)

theorem writePart_read_zero (part : acknowledged < 88) :
    Memory.read (writePart image acknowledged g).loader.eeprom 0 = Memory.read g.loader.eeprom 0 := by
  rw [writePart_read_other (by rw [transferAt_place]; split <;> omega)]
  exact Memory.read_writeAll_below _ _ (by omega)

end End

end Sys2Proof.Machine

namespace Sys2Proof.Proofs

open Sys2Proof.Machine Sys2Proof.Safety Sys2Proof.Claims

set_option Elab.async false

/-- Settles O54: a save begins as `beginSave` says; it ends with the whole image written or with a part of it, and `endSave`
counts and reports it either way. -/
theorem saveImageWritesTheImage : Obligations.SaveImageWritesTheImage := by
  refine ⟨fun s q begins coded => ⟨fun form => ?_, fun form => ?_⟩, imageSaved_length,
    fun s tag image acknowledged work length => ?_⟩
  · exact exec_of_effect (i := .saveImage) ((saveImage_of_begins begins coded).trans (if_neg form))
  · refine exec_of_effect (i := .saveImage) ((saveImage_of_begins begins coded).trans ?_)
    rw [if_pos form, beginSave_leaveQueue]
  · by_cases whole : 89 ≤ acknowledged
    · have ended := saveImageEnd_whole work whole
      have frame := endSave_frame (tag := tag) (ok := true) (g := writeWhole image s.gate)
      have counts := endSave_partCount (tag := tag) (ok := true) (g := writeWhole image s.gate)
      have eeprom : (endSave tag true (writeWhole image s.gate)).loader = (writeWhole image s.gate).loader := by rw [frame]
      refine ⟨_, exec_of_effect (i := .saveImageEnd acknowledged) ended, rfl, ?_, fun a high => ?_, fun k other => ?_,
        fun _ => ⟨?_, ?_⟩, fun part => absurd whole (Nat.not_le.mpr part)⟩
      · rw [if_pos whole, if_pos whole]
        exact frame
      · rw [eeprom]
        exact writeWhole_read_above (by omega)
      · rw [counts, if_neg other]
        rfl
      · rw [eeprom]
        exact imageOf_writeWhole length
      · rw [counts, if_pos rfl]
        exact countSave_ok _
    · have part := Nat.lt_of_not_le whole
      have ended := saveImageEnd_part work part
      have written := writePart_frame image acknowledged s.gate
      have frame := endSave_frame (tag := tag) (ok := false) (g := writePart image acknowledged s.gate)
      have counts := endSave_partCount (tag := tag) (ok := false) (g := writePart image acknowledged s.gate)
      have eeprom : (endSave tag false (writePart image acknowledged s.gate)).loader
        = (writePart image acknowledged s.gate).loader := by rw [frame]
      have before (k : PartCounter) : partCount (writePart image acknowledged s.gate) k = partCount s.gate k := by
        rw [written]
        rfl
      refine ⟨_, exec_of_effect (i := .saveImageEnd acknowledged) ended, rfl, ?_, fun a high => ?_, fun k other => ?_,
        fun all => absurd all whole, fun _ => ⟨?_, ?_, fun i low high inside => ?_, fun i high => ?_, fun few => ?_⟩⟩
      · rw [if_neg whole, if_neg whole]
        have base : (endSave tag false (writePart image acknowledged s.gate)).freeDraws
          = (writePart image acknowledged s.gate).freeDraws := by rw [frame]
        rw [base, eeprom]
        obtain ⟨w, same⟩ : ∃ w, writePart image acknowledged s.gate = w := ⟨_, rfl⟩
        rw [same] at frame written ⊢
        obtain ⟨draws, contents, rfl⟩ : ∃ draws contents, w = { s.gate with
          freeDraws := draws, loader := { s.gate.loader with eeprom := contents } } := ⟨_, _, written⟩
        exact frame
      · rw [eeprom]
        exact writePart_read_above (.inr high) part length
      · rw [counts, if_neg other, before]
      · rw [counts, if_pos rfl, before]
        exact (countSave_failed _).1
      · rw [counts, if_pos rfl, before]
        exact (countSave_failed _).2
      · rw [eeprom]
        exact writePart_read_written length low high inside
      · rw [eeprom]
        exact writePart_read_above (.inl high) part length
      · rw [eeprom]
        exact writePart_read_zero few

end Sys2Proof.Proofs

/-! PROOF. The image that a save writes, read back (R181, Table 81): where each field stands, what a field read back gives, and
the statement SavedImageReadsBack. -/

namespace Sys2Proof.Machine

open Sys2Proof.Safety Sys2Proof.Claims

set_option Elab.async false

/-! ## Where bytes stand -/

/-- A run of bytes stands from byte i on. -/
def Stands (bytes : List Byte) (i : Nat) (run : List Byte) : Prop :=
  ∀ k, k < run.length → byteAt bytes (i + k) = byteAt run k

theorem stands_self (bytes : List Byte) : Stands bytes 0 bytes :=
  fun k _ => by rw [Nat.zero_add]

theorem byteAt_append_left {a b : List Byte} {k : Nat} (inside : k < a.length) : byteAt (a ++ b) k = byteAt a k :=
  List.getD_append _ _ _ _ inside

theorem byteAt_append_right {a b : List Byte} {k : Nat} : byteAt (a ++ b) (a.length + k) = byteAt b k := by
  unfold byteAt
  rw [List.getD_append_right _ _ _ _ (by omega), Nat.add_sub_cancel_left]

theorem stands_append {bytes a b : List Byte} {i : Nat} :
    Stands bytes i (a ++ b) ↔ Stands bytes i a ∧ Stands bytes (i + a.length) b := by
  refine ⟨fun whole => ⟨fun k inside => ?_, fun k inside => ?_⟩, fun ⟨first, second⟩ k inside => ?_⟩
  · rw [whole k (by rw [List.length_append]; omega), byteAt_append_left inside]
  · rw [Nat.add_assoc, whole _ (by rw [List.length_append]; omega), byteAt_append_right]
  · by_cases left : k < a.length
    · rw [first k left, byteAt_append_left left]
    · obtain ⟨j, rfl⟩ : ∃ j, k = a.length + j := ⟨k - a.length, by omega⟩
      rw [List.length_append] at inside
      rw [← Nat.add_assoc, second j (by omega), byteAt_append_right]

theorem stands_cons {bytes run : List Byte} {i : Nat} {b : Byte} :
    Stands bytes i (b :: run) ↔ byteAt bytes i = b ∧ Stands bytes (i + 1) run := by
  refine (stands_append (a := [b])).trans (and_congr_left fun _ => ⟨fun one => one 0 (by simp), fun one k inside => ?_⟩)
  obtain rfl : k = 0 := by simpa using inside
  exact one

theorem natAt_of_stands {bytes : List Byte} {n i v : Nat} (stands : Stands bytes i (field n v)) :
    natAt bytes i n = v % 256 ^ n := by
  induction n generalizing i with
  | zero => rw [pow_zero, Nat.mod_one]; rfl
  | succ n ih =>
    obtain ⟨first, rest⟩ := stands_cons.mp stands
    rw [natAt, first, ih rest, BitVec.toNat_ofNat, show 2 ^ 8 = 256 from rfl, Nat.mod_pow_succ, Nat.add_comm, Nat.mul_comm]

theorem halfAt_of_stands {bytes : List Byte} {i : Nat} {half : Half} (stands : Stands bytes i (field 2 half.toNat)) :
    halfAt bytes i = half := by
  rw [halfAt, natAt_of_stands stands, Nat.mod_eq_of_lt (show half.toNat < 256 ^ 2 from half.isLt),
    BitVec.ofNat_toNat, BitVec.setWidth_eq]

theorem byteAt_padTo {bytes : List Byte} {n k : Nat} (inside : k < n) : byteAt (padTo n bytes) k = byteAt bytes k := by
  unfold padTo
  by_cases held : k < bytes.length
  · rw [byteAt, List.getD_eq_getElem _ _ (by simp; omega), List.getElem_take, List.getElem_append_left held, byteAt,
      List.getD_eq_getElem _ _ held]
  · rw [byteAt, List.getD_eq_getElem _ _ (by simp; omega), List.getElem_take, List.getElem_append_right (by omega),
      List.getElem_replicate, byteAt, List.getD_eq_default _ _ (by omega)]

theorem byteAt_flatMap_three {α : Type} {f : α → List Byte} (each : ∀ a, (f a).length = 3) {items : List α} {k j : Nat}
    (inside : k < items.length) (small : j < 3) : byteAt (items.flatMap f) (3 * k + j) = byteAt (f items[k]) j := by
  induction items generalizing k with
  | nil => cases inside
  | cons a items ih =>
    rw [List.flatMap_cons]
    cases k with
    | zero =>
      rw [Nat.mul_zero, Nat.zero_add]
      exact byteAt_append_left (by rw [each]; exact small)
    | succ k =>
      rw [show 3 * (k + 1) + j = (f a).length + (3 * k + j) by rw [each]; omega, byteAt_append_right,
        ih (Nat.lt_of_succ_lt_succ inside)]
      rfl

/-! ## The image of a save -/

section Image

variable {g : Gate}

/-- Table 81: the image that a save of the part writes. -/
abbrev savedImage (g : Gate) : List Byte :=
  0xA5 :: imageSaved g

/-- Table 81: where the fields of an image stand. -/
structure FieldsStand (g : Gate) (image : List Byte) : Prop where
  fields : Stands image 1 (fieldsSaved g)
  shares : Stands image 1 (allZones.flatMap fun z => field 2 (g.zone z).share.toNat)
  dark : byteAt image 9 = darkSaved g
  profile : Stands image 10 (profileSaved g.settings.profile)
  count : byteAt image 22 = BitVec.ofNat 8 g.settings.cueMap.length
  cues : Stands image 23 (cueMapSaved g.settings.cueMap)
  timing : Stands image 71 (timingRead g.settings)
  nominal : Stands image 80 (field 4 g.loader.nominalRate.toNat)
  returns : Stands image 84 (field 2 g.loader.returnRate.toNat)
  sum : Stands image 86 (field 2 (byteSum (fieldsSaved g) % 65536))

theorem savedImage_fieldsStand (g : Gate) : FieldsStand g (savedImage g) := by
  obtain ⟨-, whole⟩ := stands_cons.mp (stands_self (savedImage g))
  obtain ⟨fields, sum⟩ := stands_append.mp whole
  have parts := fields
  simp only [fieldsSaved, stands_append, stands_cons, cueMapSaved, List.length_append, sharesSaved_length,
    profileSaved_length, timingRead_length, padTo_length, field_length, List.length_cons, List.length_nil] at parts
  obtain ⟨⟨⟨⟨⟨⟨⟨shares, dark, -⟩, profile⟩, count, -⟩, cues⟩, timing⟩, nominal⟩, returns⟩ := parts
  rw [fieldsSaved_length] at sum
  exact ⟨fields, shares, dark, profile, count, cues, timing, nominal, returns, sum⟩

theorem darkSaved_bit (g : Gate) (z : ZoneIndex) : (darkSaved g).getLsbD z.val = (g.zone z).dark := by
  have bits : ∀ (a b c d : Bool) (z : ZoneIndex),
      (BitVec.ofNat 8 ([if a then 2 ^ 0 else 0, if b then 2 ^ 1 else 0, if c then 2 ^ 2 else 0,
        if d then 2 ^ 3 else 0].sum)).getLsbD z.val = [a, b, c, d][z] := by decide
  refine (bits (g.zone 0).dark (g.zone 1).dark (g.zone 2).dark (g.zone 3).dark z).trans ?_
  obtain rfl | rfl | rfl | rfl : z = 0 ∨ z = 1 ∨ z = 2 ∨ z = 3 := by simpa [allZones] using mem_allZones z
  all_goals rfl

theorem darkSaved_range (g : Gate) : (darkSaved g).toNat < 16 := by
  have sums : ∀ a b c d : Bool, (BitVec.ofNat 8 ([if a then 2 ^ 0 else 0, if b then 2 ^ 1 else 0, if c then 2 ^ 2 else 0,
      if d then 2 ^ 3 else 0].sum)).toNat < 16 := by decide
  exact sums (g.zone 0).dark (g.zone 1).dark (g.zone 2).dark (g.zone 3).dark

variable {image : List Byte}

theorem FieldsStand.share (stand : FieldsStand g image) (z : ZoneIndex) : halfAt image (1 + 2 * z.val) = (g.zone z).share := by
  have shares : Stands image 1 (field 2 (g.zone 0).share.toNat ++ (field 2 (g.zone 1).share.toNat ++
      (field 2 (g.zone 2).share.toNat ++ (field 2 (g.zone 3).share.toNat ++ [])))) := stand.shares
  simp only [stands_append, field_length] at shares
  obtain ⟨first, second, third, fourth, -⟩ := shares
  obtain rfl | rfl | rfl | rfl : z = 0 ∨ z = 1 ∨ z = 2 ∨ z = 3 := by simpa [allZones] using mem_allZones z
  · exact halfAt_of_stands first
  · exact halfAt_of_stands second
  · exact halfAt_of_stands third
  · exact halfAt_of_stands fourth

/-- R37: a flag of the profile table, as it is saved. -/
def flagByte (flag : Bool) : Byte :=
  if flag then 1 else 0

theorem flagByte_eq_one (flag : Bool) : decide (flagByte flag = 1) = flag := by
  cases flag <;> rfl

theorem flagByte_range (flag : Bool) : (flagByte flag).toNat ≤ 1 := by
  cases flag <;> decide

theorem profileSaved_eq (table : ProfileTable) : profileSaved table
    = [table.onSale, table.preview, table.live, table.extra, table.windDown, table.closed].flatMap
      (fun row => [flagByte row.pass, flagByte row.accept]) := rfl

theorem profileSaved_range (table : ProfileTable) : ∀ b ∈ profileSaved table, b.toNat ≤ 1 := by
  intro b mem
  rw [profileSaved_eq] at mem
  obtain ⟨row, -, flag⟩ := List.mem_flatMap.mp mem
  obtain rfl | rfl : b = flagByte row.pass ∨ b = flagByte row.accept := by simpa using flag
  · exact flagByte_range _
  · exact flagByte_range _

theorem FieldsStand.profileInRange (stand : FieldsStand g image) (i : Nat) (small : i < 12) :
    (byteAt image (10 + i)).toNat ≤ 1 := by
  have inside : i < (profileSaved g.settings.profile).length := small
  rw [stand.profile i inside, byteAt, List.getD_eq_getElem _ _ inside]
  exact profileSaved_range _ _ (List.getElem_mem _)

theorem FieldsStand.profileAt (stand : FieldsStand g image) : profileAt image 10 = g.settings.profile := by
  have row (i : Nat) (saved : PhaseProfile) (pass : byteAt image i = flagByte saved.pass)
      (accept : byteAt image (i + 1) = flagByte saved.accept) : profileRow image i = saved := by
    rw [profileRow, pass, accept, flagByte_eq_one, flagByte_eq_one]
  have byte (i : Nat) (small : i < 12) : byteAt image (10 + i) = byteAt (profileSaved g.settings.profile) i :=
    stand.profile i small
  unfold Machine.profileAt
  rw [row 10 g.settings.profile.onSale (byte 0 (by decide)) (byte 1 (by decide)),
    row (10 + 2) g.settings.profile.preview (byte 2 (by decide)) (byte 3 (by decide)),
    row (10 + 4) g.settings.profile.live (byte 4 (by decide)) (byte 5 (by decide)),
    row (10 + 6) g.settings.profile.extra (byte 6 (by decide)) (byte 7 (by decide)),
    row (10 + 8) g.settings.profile.windDown (byte 8 (by decide)) (byte 9 (by decide)),
    row (10 + 10) g.settings.profile.closed (byte 10 (by decide)) (byte 11 (by decide))]

theorem FieldsStand.cueCount (stand : FieldsStand g image) (few : g.settings.cueMap.length ≤ 16) :
    (byteAt image 22).toNat = g.settings.cueMap.length := by
  rw [stand.count, BitVec.toNat_ofNat, Nat.mod_eq_of_lt (by omega)]

/-- Table 81: an entry of the cue map stands in its three bytes. -/
theorem FieldsStand.cueBytes (stand : FieldsStand g image) (few : g.settings.cueMap.length ≤ 16) {k : Nat}
    (inside : k < g.settings.cueMap.length) : byteAt image (23 + 3 * k) = g.settings.cueMap[k].code ∧
      byteAt image (24 + 3 * k) = g.settings.cueMap[k].task.number ∧
      byteAt image (25 + 3 * k) = g.settings.cueMap[k].minutes.getD 0 := by
  have byte (j : Nat) (small : j < 3) : byteAt image (23 + (3 * k + j)) = byteAt
      [g.settings.cueMap[k].code, g.settings.cueMap[k].task.number, g.settings.cueMap[k].minutes.getD 0] j := by
    rw [stand.cues (3 * k + j) (by rw [cueMapSaved, padTo_length]; omega), cueMapSaved, byteAt_padTo (by omega)]
    exact byteAt_flatMap_three (f := fun entry : CueEntry => [entry.code, entry.task.number, entry.minutes.getD 0])
      (fun _ => rfl) inside small
  refine ⟨byte 0 (by decide), ?_, ?_⟩
  · rw [show 24 + 3 * k = 23 + (3 * k + 1) by omega]
    exact byte 1 (by decide)
  · rw [show 25 + 3 * k = 23 + (3 * k + 2) by omega]
    exact byte 2 (by decide)

theorem cueEntryOk_iff {entry : CueEntry} : cueEntryOk entry ↔
    (entry.task = .extendPreview → 1 ≤ (entry.minutes.getD 0).toNat ∧ (entry.minutes.getD 0).toNat ≤ 30) ∧
    entry.minutes = if entry.task = .extendPreview then some (entry.minutes.getD 0) else none := by
  obtain ⟨code, task, minutes⟩ := entry
  unfold cueEntryOk
  cases minutes with
  | none => by_cases extend : task = .extendPreview <;> simp [extend]
  | some minutes => by_cases extend : task = .extendPreview <;> simp [extend]

theorem number_injective {a b : PhaseTask} (same : a.number = b.number) : a = b := by
  have read := taskOfNumber_number a
  rw [same, taskOfNumber_number] at read
  exact (Option.some.inj read).symm

theorem cueEntry_eq {a b : CueEntry} (code : a.code = b.code) (task : a.task = b.task) (minutes : a.minutes = b.minutes) :
    a = b := by
  obtain ⟨_, _, _⟩ := a
  obtain ⟨_, _, _⟩ := b
  exact congr (congrArg₂ CueEntry.mk code task) minutes

section Cues

variable (stand : FieldsStand g image) (ok : SettingsOk g)

include stand ok

theorem FieldsStand.cueInRange {k : Nat} (inside : k < g.settings.cueMap.length) : CueInRange image (23 + 3 * k) := by
  obtain ⟨-, number, minutes⟩ := stand.cueBytes ok.cues inside
  obtain ⟨range, -⟩ := cueEntryOk_iff.mp (ok.entries _ (List.getElem_mem inside))
  rw [CueInRange, show 23 + 3 * k + 1 = 24 + 3 * k by omega, show 23 + 3 * k + 2 = 25 + 3 * k by omega, number, minutes]
  exact ⟨(number_range _).1, (number_range _).2, fun six => range (number_eq_six.mp six)⟩

theorem FieldsStand.cueMapAt : cueMapAt image 23 (byteAt image 22).toNat = some g.settings.cueMap := by
  rw [stand.cueCount ok.cues]
  obtain ⟨map, read, length, entries⟩ := cueMapAt_some fun k inside => stand.cueInRange ok inside
  rw [read]
  refine congrArg some (List.ext_getElem length fun k low inside => ?_)
  obtain ⟨code, number, minutes⟩ := entries k low
  obtain ⟨code_, number_, minutes_⟩ := stand.cueBytes ok.cues inside
  obtain ⟨-, held⟩ := cueEntryOk_iff.mp (ok.entries _ (List.getElem_mem inside))
  rw [show 23 + 3 * k + 1 = 24 + 3 * k by omega, number_] at number
  have task := number_injective number
  rw [show 23 + 3 * k + 2 = 25 + 3 * k by omega, minutes_, task, ← held] at minutes
  exact cueEntry_eq (code.trans code_) task minutes

theorem FieldsStand.codes : (List.range (byteAt image 22).toNat).map (fun i => byteAt image (23 + 3 * i))
    = g.settings.cueMap.map CueEntry.code := by
  rw [stand.cueCount ok.cues]
  refine List.ext_getElem (by simp) fun k low high => ?_
  rw [List.getElem_map, List.getElem_range, List.getElem_map]
  exact (stand.cueBytes ok.cues (by simpa using high)).1

end Cues

/-- R174: the seven timing values of an image. -/
structure TimingStands (image : List Byte) (settings : Settings) : Prop where
  openLead : halfAt image 71 = settings.openLead
  guard : halfAt image 73 = settings.guard
  again : byteAt image 75 = settings.repeatInterval
  warn : byteAt image 76 = settings.warnThreshold
  stall : byteAt image 77 = settings.stallThreshold
  aging : byteAt image 78 = settings.agingPeriod
  hold : byteAt image 79 = flagByte settings.overrideHold

theorem FieldsStand.timingStands (stand : FieldsStand g image) : TimingStands image g.settings := by
  have timing := stand.timing
  simp only [timingRead, stands_append, stands_cons, List.length_append, field_length] at timing
  obtain ⟨⟨lead, guard⟩, again, warn, stall, aging, hold, -⟩ := timing
  exact ⟨halfAt_of_stands lead, halfAt_of_stands guard, again, warn, stall, aging, hold⟩

theorem FieldsStand.nominalRate (stand : FieldsStand g image) : natAt image 80 4 = g.loader.nominalRate.toNat := by
  rw [natAt_of_stands stand.nominal, Nat.mod_eq_of_lt (show _ < 256 ^ 4 from g.loader.nominalRate.isLt)]

theorem FieldsStand.returnRate (stand : FieldsStand g image) : natAt image 84 2 = g.loader.returnRate.toNat := by
  rw [natAt_of_stands stand.returns, Nat.mod_eq_of_lt (show _ < 256 ^ 2 from g.loader.returnRate.isLt)]

theorem FieldsStand.sumGood (stand : FieldsStand g image) : SumGood image := by
  have fields : (List.range 85).map (fun i => (byteAt image (1 + i)).toNat) = (fieldsSaved g).map BitVec.toNat := by
    refine List.ext_getElem (by simp [fieldsSaved_length]) fun k low high => ?_
    have inside : k < (fieldsSaved g).length := by simpa using high
    rw [List.getElem_map, List.getElem_range, stand.fields k inside, byteAt, List.getD_eq_getElem _ _ inside, List.getElem_map]
  rw [SumGood, natAt_of_stands stand.sum, fields, byteSum_eq]
  exact Nat.mod_mod ..

theorem FieldsStand.imageInRange (stand : FieldsStand g image) (ok : SettingsOk g) : ImageInRange image := by
  obtain ⟨lead, guard, again, warn, stall, aging, hold⟩ := stand.timingStands
  refine ⟨fun z => by rw [stand.share]; exact ok.share z, by rw [stand.dark]; exact darkSaved_range g, stand.profileInRange,
    by rw [stand.cueCount ok.cues]; exact ok.cues, by rw [stand.codes ok]; exact ok.codes, fun k few => ?_,
    by rw [lead]; exact ok.openLead, by rw [guard]; exact ok.guard, by rw [again]; exact ok.again.1,
    by rw [again]; exact ok.again.2, by rw [warn]; exact ok.warn.1, by rw [warn]; exact ok.warn.2,
    by rw [stall]; exact ok.stall.1, by rw [stall]; exact ok.stall.2, by rw [aging]; exact ok.aging.1,
    by rw [aging]; exact ok.aging.2, by rw [hold]; exact flagByte_range _, by rw [stand.nominalRate]; exact ok.nominal.1,
    by rw [stand.nominalRate]; exact ok.nominal.2, by rw [stand.returnRate]; exact ok.returns.1,
    by rw [stand.returnRate]; exact ok.returns.2⟩
  rw [stand.cueCount ok.cues] at few
  have range := stand.cueInRange ok few
  rwa [CueInRange, show 23 + 3 * k + 1 = 24 + 3 * k by omega, show 23 + 3 * k + 2 = 25 + 3 * k by omega] at range

theorem FieldsStand.imageSettings (stand : FieldsStand g image) (ok : SettingsOk g) :
    imageSettings image = g.settings := by
  obtain ⟨lead, guard, again, warn, stall, aging, hold⟩ := stand.timingStands
  unfold Machine.imageSettings
  rw [stand.profileAt, stand.cueMapAt ok, Option.getD_some, lead, guard, again, warn, stall, aging, hold, flagByte_eq_one]

theorem savedImage_length (g : Gate) : (savedImage g).length = 88 := by
  rw [List.length_cons, imageSaved_length]

end Image

end Sys2Proof.Machine

namespace Sys2Proof.Proofs

open Sys2Proof.Machine Sys2Proof.Safety Sys2Proof.Claims

set_option Elab.async false

/-- Settles O55: every field stands where it is read back (`FieldsStand`), and a setting in its range survives its bytes. -/
theorem savedImageReadsBack : Obligations.SavedImageReadsBack := by
  intro g ok image
  have stand : FieldsStand g image := savedImage_fieldsStand g
  have sum := stand.sumGood
  have range := stand.imageInRange ok
  refine ⟨sum, range, ?_, stand.imageSettings ok, ?_, ?_, fun z => ⟨stand.share z, ?_⟩⟩
  · rw [imageFailure_whole (Nat.le_refl 88) rfl, if_neg (not_not_intro ((sumGood_iff (savedImage_length g)).mpr sum)),
      if_neg (by simpa using imageInRange_iff.mpr range)]
  · rw [stand.nominalRate, BitVec.ofNat_toNat, BitVec.setWidth_eq]
  · rw [stand.returnRate, BitVec.ofNat_toNat, BitVec.setWidth_eq]
  · rw [imageDark, stand.dark, darkSaved_bit]

end Sys2Proof.Proofs

/-! PROOF. The legs that a restart re-forms (R120, R134, R136): what a join leaves where every leg is on its first lap, and the
legs of the current and of the pending sheet. -/

namespace Sys2Proof.Machine

open Sys2Proof.Safety Sys2Proof.Claims

set_option Elab.async false

section Joins

variable {e : EventIndex} {slot : SheetSlot} {g h k : Gate} {leg : Leg} {sheet : Sheet}

/-- Every leg of the roster is on its first lap, so that no join suspends one. -/
def FirstLaps (g : Gate) : Prop :=
  ∀ f slot leg, g.leg f slot = some leg → leg.lap = 1

/-- The LEG_LATE item of a leg at its join. -/
def lateItem (e : EventIndex) (leg : Leg) : Item where
  kind := .legLate
  object := eventObject e
  detail := field 4 leg.sheet.toNat ++ field 2 8192

/-- What the join of a leg makes of the part, where every leg is on its first lap. -/
structure LegJoins (e : EventIndex) (slot : SheetSlot) (leg : Leg) (g h : Gate) : Prop where
  frame : h = { g with
    events := h.events
    walker := { g.walker with roster := h.walker.roster }
    command := { g.command with status := h.command.status } }
  other : ∀ i, i ≠ e → h.event i = g.event i
  event : h.event e = { g.event e with counters := (h.event e).counters }
  legs : ∀ f place, h.leg f place = if f = e ∧ place = slot then some leg else g.leg f place
  joined : eventCount h e .legsJoined = countUp (eventCount g e .legsJoined) 1
  late : eventCount h e .lateLegs = if leg.late then countUp (eventCount g e .lateLegs) 1 else eventCount g e .lateLegs
  counts : ∀ j, j ∉ [EventCounter.legsJoined, .lateLegs] → eventCount h e j = eventCount g e j
  status : h.command.status = if leg.late then insertItem (lateItem e leg) g.command.status else g.command.status

theorem suspend_of_firstLap (first : leg.lap = 1) : leg.suspend = leg := by
  unfold Leg.suspend
  rw [if_neg (by simp [first])]

theorem suspended_leg (first : FirstLaps g) (f : EventIndex) (place : SheetSlot) :
    (mapLegs Leg.suspend g).leg f place = g.leg f place := by
  rw [mapLegs_leg]
  cases held : g.leg f place with
  | none => rfl
  | some leg => rw [Option.map_some, suspend_of_firstLap (first f place leg held)]

theorem LegJoins.firstLaps (joins : LegJoins e slot leg g h) (lap : leg.lap = 1) (first : FirstLaps g) : FirstLaps h := by
  intro f place other held
  rw [joins.legs] at held
  split at held
  · cases held
    exact lap
  · exact first f place other held

theorem bumpEvent_event_same (k : EventCounter) (g : Gate) :
    (bumpEvent e k g).event e = { g.event e with counters := ((bumpEvent e k g).event e).counters } := by
  rw [bumpEvent_event, if_pos rfl]
  rfl

theorem enterLeg_joins (punctual : leg.late = false) (first : FirstLaps g) :
    LegJoins e slot leg g (enterLeg e slot leg g) where
  frame := rfl
  other i apart := by
    rw [enterLeg, bumpEvent_event, if_neg apart]
    rfl
  event := bumpEvent_event_same .legsJoined _
  legs f place := by
    rw [enterLeg, bumpEvent_leg, RosterOk.setLeg_leg, suspended_leg first]
  joined := by
    rw [enterLeg, eventCount_bumpEvent, if_pos ⟨rfl, rfl⟩]
    rfl
  late := by
    rw [enterLeg, eventCount_bumpEvent, if_neg (by simp), if_neg (by simp [punctual])]
    rfl
  counts j apart := by
    rw [enterLeg, eventCount_bumpEvent, if_neg fun both => apart (by rw [both.2]; exact .head _)]
    rfl
  status := by
    rw [if_neg (by simp [punctual])]
    rfl

/-- R134: a leg whose deadline has passed is late from its join. -/
theorem enterLate_joins (first : FirstLaps g) (lap : leg.lap = 1) (walking : leg.walking = true)
    (whole : leg.remaining.val = 8192) (punctual : leg.late = false) :
    LegJoins e slot { leg with late := true, deadline := none } g (makeLate e slot leg (enterLeg e slot leg g)) := by
  have entered := enterLeg_joins (e := e) (slot := slot) punctual first
  rw [makeLate_first ⟨walking, lap⟩]
  obtain ⟨m, same⟩ : ∃ m, enterLeg e slot leg g = m := ⟨_, rfl⟩
  rw [same] at entered ⊢
  obtain ⟨frame, other, event, legs, joined, late, counts, status⟩ := entered
  refine ⟨?_, fun i apart => ?_, ?_, fun f place => ?_, ?_, ?_, fun j apart => ?_, ?_⟩
  · rw [frame]
    rfl
  · rw [post_event, bumpEvent_event, if_neg apart, setLeg_event, other i apart]
  · rw [post_event, bumpEvent_event_same, setLeg_event, event]
  · rw [post_leg, bumpEvent_leg, RosterOk.setLeg_leg, legs]
    by_cases here : f = e ∧ place = slot
    · rw [if_pos here, if_pos here]
    · rw [if_neg here, if_neg here, if_neg here]
  · refine Eq.trans ?_ joined
    exact (eventCount_bumpEvent ..).trans (if_neg (by simp))
  · rw [if_neg (by simp [punctual])] at late
    rw [if_pos rfl, ← late]
    exact (eventCount_bumpEvent ..).trans (if_pos ⟨rfl, rfl⟩)
  · rw [← counts j apart]
    refine (eventCount_bumpEvent ..).trans (if_neg fun both => apart ?_)
    rw [both.2]
    exact .tail _ (.head _)
  · rw [if_neg (by simp [punctual])] at status
    rw [if_pos rfl, post_status, whole, ← status]
    rfl

/-! ## The two legs of an event -/

theorem joined_eq_newLeg (sheet : Sheet) (g : Gate) : Leg.joined sheet g.walker.cursor
    = newLeg g sheet.number false (if OpenlyOffered sheet then none else some sheet.effective) := rfl

theorem sweptAgain_pending : sweptAgain g .pending sheet = Leg.joined sheet g.walker.cursor := by
  simp [sweptAgain, joined_eq_newLeg]

theorem sweptAgain_late (late : ¬ OpenlyOffered sheet ∧ Reached g sheet.effective) :
    sweptAgain g .current sheet = { Leg.joined sheet g.walker.cursor with late := true, deadline := none } := by
  simp [sweptAgain, joined_eq_newLeg, newLeg, late.1, late.2]

theorem sweptAgain_punctual (punctual : ¬ (¬ OpenlyOffered sheet ∧ Reached g sheet.effective)) :
    sweptAgain g .current sheet = Leg.joined sheet g.walker.cursor := by
  have late : ¬ (SheetSlot.current = .current ∧ ¬ OpenlyOffered sheet ∧ Reached g sheet.effective) :=
    fun all => punctual all.2
  unfold sweptAgain
  dsimp only
  rw [decide_eq_false late, joined_eq_newLeg]
  refine congrArg (newLeg g sheet.number false) ?_
  by_cases offered : OpenlyOffered sheet
  · rw [if_pos (.inl offered), if_pos offered]
  · rw [if_neg (not_or.mpr ⟨offered, late⟩), if_neg offered]

theorem lateAtJoin_late (late : ¬ OpenlyOffered sheet ∧ Reached g sheet.effective) (cursor : Bucket) (h : Gate)
    (clock : h.clock = g.clock) :
    lateAtJoin e slot (Leg.joined sheet cursor) h = makeLate e slot (Leg.joined sheet cursor) h := by
  have dated : (Leg.joined sheet cursor).deadline = some sheet.effective := if_neg late.1
  have reached : Reached h sheet.effective := by
    rw [Reached, clock]
    exact late.2
  unfold lateAtJoin
  rw [dated]
  exact if_pos (reached_iff.mpr reached)

theorem lateAtJoin_punctual (punctual : ¬ (¬ OpenlyOffered sheet ∧ Reached g sheet.effective)) (cursor : Bucket) (h : Gate)
    (clock : h.clock = g.clock) : lateAtJoin e slot (Leg.joined sheet cursor) h = h := by
  have deadline : (Leg.joined sheet cursor).deadline = if OpenlyOffered sheet then none else some sheet.effective := rfl
  unfold lateAtJoin
  rw [deadline]
  by_cases offered : OpenlyOffered sheet
  · rw [if_pos offered]
  · rw [if_neg offered]
    refine if_neg fun reached => punctual ⟨offered, ?_⟩
    rw [Reached, ← clock]
    exact reached_iff.mp reached

/-- R136: the leg of a current sheet, as it joins at a restart. -/
theorem joinLeg_joins (first : FirstLaps g) (held : g.sheet e .current = some sheet) (free : g.leg e .current = none) :
    LegJoins e .current (sweptAgain g .current sheet) g (joinLeg e .current g) := by
  have join : joinLeg e .current g = lateAtJoin e .current (Leg.joined sheet g.walker.cursor)
      (enterLeg e .current (Leg.joined sheet g.walker.cursor) g) := by
    unfold joinLeg
    rw [held, free]
  rw [join]
  by_cases late : ¬ OpenlyOffered sheet ∧ Reached g sheet.effective
  · rw [lateAtJoin_late late g.walker.cursor (enterLeg ..) rfl, sweptAgain_late late]
    exact enterLate_joins first rfl rfl rfl rfl
  · rw [lateAtJoin_punctual late g.walker.cursor (enterLeg ..) rfl, sweptAgain_punctual late]
    exact enterLeg_joins rfl first

theorem joinLeg_of_empty (empty : g.sheet e slot = none) : joinLeg e slot g = g := by
  unfold joinLeg
  rw [empty]

/-- R136: the leg of a pending sheet, as it joins at a restart. -/
theorem rejoinPending_joins (first : FirstLaps g) (held : g.sheet e .pending = some sheet) (free : g.leg e .pending = none) :
    LegJoins e .pending (sweptAgain g .pending sheet) g (rejoinPending e g) := by
  have join : rejoinPending e g = enterLeg e .pending (Leg.joined sheet g.walker.cursor) g := by
    unfold rejoinPending
    rw [held, free]
  rw [join, sweptAgain_pending]
  exact enterLeg_joins rfl first

theorem rejoinPending_of_empty (empty : g.sheet e .pending = none) : rejoinPending e g = g := by
  unfold rejoinPending
  rw [empty]

end Joins

end Sys2Proof.Machine

/-! PROOF. The delivery and the tasks that a restart re-forms (R58, R78, R87, R136), event by event: what each event's turn makes
of the part, and what it leaves of the other events. -/

namespace Sys2Proof.Machine

open Sys2Proof.Safety Sys2Proof.Claims

set_option Elab.async false

/-! ## The zones -/

/-- What offers of entries with a property make of a zone. -/
structure OffersOn (P : FreshEntry → Prop) (a b : Zone) : Prop where
  frame : b = { a with fresh := b.fresh, counters := b.counters }
  grows : a.fresh <+: b.fresh
  fresh : ∀ entry ∈ b.fresh, entry ∈ a.fresh ∨ P entry
  counts : ∀ k, k ∉ [ZoneCounter.entriesQueued, .mergedEntries, .freshOverflows] → b.counters[k.pos] = a.counters[k.pos]
  quiet : (∀ entry, ¬ P entry) → b = a

theorem OffersOn.refl (P : FreshEntry → Prop) (a : Zone) : OffersOn P a a :=
  ⟨rfl, List.prefix_rfl, fun _ mem => .inl mem, fun _ _ => rfl, fun _ => rfl⟩

theorem OffersOn.trans {P : FreshEntry → Prop} {a b c : Zone} (first : OffersOn P a b) (second : OffersOn P b c) :
    OffersOn P a c where
  frame := by rw [second.frame, first.frame]
  grows := first.grows.trans second.grows
  fresh entry mem := (second.fresh entry mem).elim (first.fresh entry) .inr
  counts k other := (second.counts k other).trans (first.counts k other)
  quiet none_ := (second.quiet none_).trans (first.quiet none_)

theorem offerZone_counter {k : ZoneCounter} (other : k ∉ [ZoneCounter.entriesQueued, .mergedEntries, .freshOverflows])
    (entry : FreshEntry) (zone : Zone) : (offerZone entry zone).counters[k.pos] = zone.counters[k.pos] := by
  have apart (j : ZoneCounter) (listed : j ∈ [ZoneCounter.entriesQueued, .mergedEntries, .freshOverflows]) (a : Zone) :
      (Zone.countBy j 1 a).counters[k.pos] = a.counters[k.pos] := by
    rw [Zone.countBy_counter, if_neg fun same => other (by rw [same]; exact listed)]
  unfold offerZone
  split
  · exact apart _ (by decide) _
  · split
    · exact apart _ (by decide) _
    · exact apart _ (by decide) _

theorem offerZone_offersOn {P : FreshEntry → Prop} {entry : FreshEntry} (holds : P entry) (zone : Zone) :
    OffersOn P zone (offerZone entry zone) where
  frame := by
    rw [offerZone_fresh]
    exact offerZone_frame ..
  grows := by
    rw [offerZone_fresh]
    exact offerTo_prefix ..
  fresh one mem := by
    rw [offerZone_fresh] at mem
    obtain ⟨added, grows, only⟩ := offerTo_added entry zone.fresh
    rw [grows] at mem
    exact (List.mem_append.mp mem).imp_right fun new => by rw [only one new]; exact holds
  counts k other := offerZone_counter other entry zone
  quiet none_ := absurd holds (none_ entry)

theorem openOffer_offersOn {P : FreshEntry → Prop} {e : EventIndex} {slot : SheetSlot} {g : Gate} {z : ZoneIndex}
    (holds : ∀ sheet, g.sheet e slot = some sheet → unblacked g e z → P (openEntry e sheet.number)) :
    OffersOn P (g.zone z) ((openOffer e slot g).zone z) := by
  cases held : g.sheet e slot with
  | none =>
    rw [openOffer_none held]
    exact .refl ..
  | some sheet =>
    rw [openOffer_zone held]
    split
    · next given => exact offerZone_offersOn (holds sheet held (opens_iff.mp given)) _
    · exact .refl ..

/-! ## What an event's turn leaves -/

/-- What the re-forming of delivery reads of an event record. -/
structure SameDelivery (a b : Event) : Prop where
  phase : b.phase = a.phase
  mask : b.mask = a.mask
  pending : b.pendingSheet = a.pendingSheet
  current : b.current.map Sheet.number = a.current.map Sheet.number

theorem SameDelivery.refl (a : Event) : SameDelivery a a := ⟨rfl, rfl, rfl, rfl⟩

theorem SameDelivery.trans {a b c : Event} (first : SameDelivery a b) (second : SameDelivery b c) : SameDelivery a c :=
  ⟨second.phase.trans first.phase, second.mask.trans first.mask, second.pending.trans first.pending,
    second.current.trans first.current⟩

/-- The part in the middle of a restart at a state: the events not yet re-formed are as they were, but for the counters. -/
structure Ready (s g : Gate) : Prop where
  laps : FirstLaps g
  records : ∀ e, SameDelivery (s.event e) (g.event e)
  driven : ∀ z, g.driven z = s.driven z
  clock : g.clock = s.clock
  settings : g.settings = s.settings
  cursor : g.walker.cursor = s.walker.cursor

/-- The re-forming of events changes no more than their records, the roster, the zones, the maintenance list and the status
set. -/
def Reframed (g h : Gate) : Prop :=
  h = { g with
    events := h.events
    walker := { g.walker with roster := h.walker.roster }
    zones := h.zones
    upkeep := { g.upkeep with tasks := h.upkeep.tasks, cursor := h.upkeep.cursor, shadow := h.upkeep.shadow }
    command := { g.command with status := h.command.status } }

/-- What the re-forming of events makes of the part. -/
structure Reforms (s g h : Gate) : Prop where
  ready : Ready s h
  frame : Reframed g h
  head : ∀ item : Item, item.kind = .restarted → g.command.status.head? = some item → h.command.status.head? = some item
  zone : ∀ z, OffersOn (fun entry => OfferedAgain s entry z) (g.zone z) (h.zone z)

/-- What the re-forming of other events leaves of an event. -/
structure LeavesEvent (i : EventIndex) (g h : Gate) : Prop where
  event : h.event i = g.event i
  legs : ∀ slot, h.leg i slot = g.leg i slot
  items : ∀ item ∈ g.command.status, item.object = eventObject i → item ∈ h.command.status

section Relations

variable {s g h k : Gate} {i e : EventIndex}

theorem Reframed.trans (first : Reframed g h) (second : Reframed h k) : Reframed g k := by
  unfold Reframed at *
  rw [second, first]

theorem Reforms.of_frame (ready : Ready s g) (frame : Reframed g h) (laps : FirstLaps h)
    (records : ∀ e, SameDelivery (g.event e) (h.event e))
    (head : ∀ item : Item, item.kind = .restarted → g.command.status.head? = some item → h.command.status.head? = some item)
    (zone : ∀ z, OffersOn (fun entry => OfferedAgain s entry z) (g.zone z) (h.zone z)) : Reforms s g h := by
  refine ⟨⟨laps, fun e => (ready.records e).trans (records e), fun z => ?_, ?_, ?_, ?_⟩, frame, head, zone⟩
  all_goals rw [show h = _ from frame]
  · exact ready.driven z
  · exact ready.clock
  · exact ready.settings
  · exact ready.cursor

theorem Reforms.refl (ready : Ready s g) : Reforms s g g :=
  ⟨ready, rfl, fun _ _ held => held, fun _ => .refl ..⟩

theorem Reforms.trans (first : Reforms s g h) (second : Reforms s h k) : Reforms s g k where
  ready := second.ready
  frame := first.frame.trans second.frame
  head item kind held := second.head item kind (first.head item kind held)
  zone z := (first.zone z).trans (second.zone z)

theorem LeavesEvent.refl (i : EventIndex) (g : Gate) : LeavesEvent i g g :=
  ⟨rfl, fun _ => rfl, fun _ mem _ => mem⟩

theorem LeavesEvent.trans (first : LeavesEvent i g h) (second : LeavesEvent i h k) : LeavesEvent i g k :=
  ⟨second.event.trans first.event, fun slot => (second.legs slot).trans (first.legs slot),
    fun item mem own => second.items item (first.items item mem own) own⟩

theorem insertItem_head {item held : Item} {items : List Item} (other : item.sameKey held = false)
    (head : items.head? = some held) : (insertItem item items).head? = some held := by
  cases items with
  | nil => cases head
  | cons first rest =>
    cases head
    unfold insertItem
    rw [if_neg (by simp [other])]
    rfl

theorem eventObject_injective {a b : EventIndex} (same : eventObject a = eventObject b) : a = b := by
  have number := congrArg BitVec.toNat same
  simp only [eventObject, BitVec.toNat_ofNat] at number
  exact Fin.ext (by omega)

/-! ## A join -/

section Join

variable {slot : SheetSlot} {leg : Leg}

theorem LegJoins.record (joins : LegJoins e slot leg g h) (i : EventIndex) : SameDelivery (g.event i) (h.event i) := by
  by_cases same : i = e
  · subst same
    rw [joins.event]
    exact ⟨rfl, rfl, rfl, rfl⟩
  · rw [joins.other i same]
    exact .refl _

theorem LegJoins.reforms (joins : LegJoins e slot leg g h) (lap : leg.lap = 1) (ready : Ready s g) : Reforms s g h := by
  refine .of_frame ready ?_ (joins.firstLaps lap ready.laps) joins.record (fun item kind held => ?_) fun z => ?_
  · obtain ⟨events, roster, status, rfl⟩ : ∃ events roster status, h = { g with
      events := events
      walker := { g.walker with roster := roster }
      command := { g.command with status := status } } := ⟨_, _, _, joins.frame⟩
    rfl
  · rw [joins.status]
    split
    · exact insertItem_head (by simp [Item.sameKey, lateItem, kind]) held
    · exact held
  · rw [joins.frame]
    exact .refl ..

theorem LegJoins.leaves (joins : LegJoins e slot leg g h) (apart : i ≠ e) : LeavesEvent i g h where
  event := joins.other i apart
  legs place := by
    rw [joins.legs, if_neg fun both => apart both.1]
  items item mem own := by
    rw [joins.status]
    split
    · refine mem_insertItem_of_other mem ?_
      have objects : (lateItem e leg).object ≠ item.object := by
        rw [own]
        exact fun same => apart (eventObject_injective same).symm
      simp [Item.sameKey, objects]
    · exact mem

end Join

/-! ## The turn of one event -/

/-- A step in the turn of event e. -/
structure TurnOf (e : EventIndex) (s g h : Gate) : Prop where
  reforms : Reforms s g h
  leaves : ∀ i, i ≠ e → LeavesEvent i g h

theorem TurnOf.refl (e : EventIndex) (ready : Ready s g) : TurnOf e s g g :=
  ⟨.refl ready, fun i _ => .refl i g⟩

theorem TurnOf.trans (first : TurnOf e s g h) (second : TurnOf e s h k) : TurnOf e s g k :=
  ⟨first.reforms.trans second.reforms, fun i apart => (first.leaves i apart).trans (second.leaves i apart)⟩

theorem LegJoins.turn {slot : SheetSlot} {leg : Leg} (joins : LegJoins e slot leg g h) (lap : leg.lap = 1) (ready : Ready s g) :
    TurnOf e s g h :=
  ⟨joins.reforms lap ready, fun _ apart => joins.leaves apart⟩

theorem joinLeg_turn (e : EventIndex) (ready : Ready s g) : TurnOf e s g (joinLeg e .current g) := by
  cases held : g.sheet e .current with
  | none =>
    rw [joinLeg_of_empty held]
    exact .refl e ready
  | some sheet =>
    cases free : g.leg e .current with
    | none => exact (joinLeg_joins ready.laps held free).turn rfl ready
    | some leg =>
      rw [joinLeg_of_held free]
      exact .refl e ready

theorem rejoinPending_of_held {leg : Leg} (held : g.leg e .pending = some leg) : rejoinPending e g = g := by
  unfold rejoinPending
  rw [held]
  split
  · next absent => cases absent
  · rfl

theorem rejoinPending_turn (e : EventIndex) (ready : Ready s g) : TurnOf e s g (rejoinPending e g) := by
  cases held : g.sheet e .pending with
  | none =>
    rw [rejoinPending_of_empty held]
    exact .refl e ready
  | some sheet =>
    cases free : g.leg e .pending with
    | none => exact (rejoinPending_joins ready.laps held free).turn rfl ready
    | some leg =>
      rw [rejoinPending_of_held free]
      exact .refl e ready

/-- A step that changes event records and zones alone. -/
theorem turn_of_framed (ready : Ready s g) (frame : h = { g with events := h.events, zones := h.zones })
    (record : SameDelivery (g.event e) (h.event e)) (other : ∀ i, i ≠ e → h.event i = g.event i)
    (zone : ∀ z, OffersOn (fun entry => OfferedAgain s entry z) (g.zone z) (h.zone z)) : TurnOf e s g h := by
  have leg (f : EventIndex) (slot : SheetSlot) : h.leg f slot = g.leg f slot := by
    rw [frame]
    rfl
  have status : h.command.status = g.command.status := by rw [frame]
  refine ⟨.of_frame ready ?_ (fun f slot one held => ?_) (fun i => ?_) (fun item _ held => ?_) zone, fun i apart =>
    ⟨other i apart, leg i, fun item mem _ => ?_⟩⟩
  · obtain ⟨events, zones, rfl⟩ : ∃ events zones, h = { g with events := events, zones := zones } := ⟨_, _, frame⟩
    rfl
  · rw [leg] at held
    exact ready.laps f slot one held
  · by_cases same : i = e
    · rw [same]
      exact record
    · rw [other i same]
      exact .refl _
  · rwa [status]
  · rwa [status]

theorem Ready.opens (ready : Ready s g) {z : ZoneIndex} (opens : unblacked g e z) : unblacked s e z := by
  obtain ⟨driven, clear⟩ := opens
  rw [ready.driven] at driven
  rw [(ready.records e).mask] at clear
  exact ⟨driven, clear⟩

/-- R58, R78: the open entries of an event in PREVIEW are among those that a restart offers again. -/
theorem Ready.offeredAgain {slot : SheetSlot} {sheet : Sheet} {z : ZoneIndex} (ready : Ready s g)
    (preview : (g.event e).phase = .preview) (held : g.sheet e slot = some sheet) (opens : unblacked g e z)
    (offered : slot = .pending → OpenlyOffered sheet) : OfferedAgain s (openEntry e sheet.number) z := by
  have phase : (s.event e).phase = .preview := (ready.records e).phase.symm.trans preview
  cases slot with
  | current =>
    have number := (ready.records e).current
    rw [show (g.event e).current = some sheet from held] at number
    obtain ⟨was, there, same⟩ := Option.map_eq_some_iff.mp number.symm
    exact ⟨e, was, phase, ready.opens opens, .inl there, by rw [same]; rfl⟩
  | pending =>
    have pending : (s.event e).pendingSheet = some sheet := (ready.records e).pending.symm.trans held
    exact ⟨e, sheet, phase, ready.opens opens, .inr ⟨pending, offered rfl⟩, rfl⟩

theorem openOffer_turn (ready : Ready s g) (preview : (g.event e).phase = .preview) :
    TurnOf e s g (openOffer e .current g) := by
  refine turn_of_framed ready (openOffer_frame ..) ?_ (fun i apart => ?_) fun z => openOffer_offersOn fun sheet held opens =>
    ready.offeredAgain preview held opens nofun
  · rw [openOffer_event, if_pos rfl]
    refine ⟨rfl, rfl, rfl, ?_⟩
    show Option.map Sheet.number (Option.map Sheet.offered (g.event e).current) = _
    rw [Option.map_map]
    rfl
  · rw [openOffer_event, if_neg apart]

theorem reofferPending_turn (ready : Ready s g) (preview : (g.event e).phase = .preview) :
    TurnOf e s g (reofferPending e g) := by
  refine turn_of_framed ready (reofferPending_frame ..) ?_ (fun i _ => reofferPending_event e i g) fun z => ?_
  · rw [reofferPending_event]
    exact .refl _
  · refine reofferPending_keeps (Q := fun h => OffersOn _ (g.zone z) (h.zone z)) (.refl ..) fun sheet held offered => ?_
    refine openOffer_offersOn fun other also opens => ?_
    cases held.symm.trans also
    exact ready.offeredAgain preview held opens fun _ => offered

theorem setOpenRepeat_turn (e : EventIndex) (ready : Ready s g) : TurnOf e s g (setOpenRepeat e g) := by
  refine turn_of_framed ready rfl ?_ (fun i apart => setOpenRepeat_event_other apart) fun z => .refl ..
  rw [setOpenRepeat_event]
  exact ⟨rfl, rfl, rfl, rfl⟩

theorem reformDelivery_turn (e : EventIndex) (ready : Ready s g) : TurnOf e s g (reformDelivery e g) := by
  unfold reformDelivery
  split
  · have first := joinLeg_turn e ready
    exact first.trans (rejoinPending_turn e first.reforms.ready)
  · split
    · next preview =>
      have first := openOffer_turn ready preview
      have stays : ((openOffer e .current g).event e).phase = .preview := by
        rw [openOffer_event, if_pos rfl]
        exact preview
      have second := first.trans (reofferPending_turn first.reforms.ready stays)
      exact second.trans (setOpenRepeat_turn e second.reforms.ready)
    · exact .refl e ready

/-! ## The task of one event -/

/-- R58: the task that a restart queues for an event of a phase. -/
def restartTasksOf (e : EventIndex) (p : Phase) : List Task :=
  if p = .vacant then [] else if p = .retiring then [.retire e true] else [.recount e]

theorem requeueTask_event (e i : EventIndex) (g : Gate) : (requeueTask e g).event i = if i = e
    then { g.event e with recountFlag := (g.event e).recountFlag || decide ((g.event e).phase ≠ .vacant) }
    else g.event i := by
  unfold requeueTask
  split
  · next vacant =>
    split
    · next same =>
      subst same
      rw [vacant]
      simp
    · rfl
  · next loaded =>
    dsimp only
    rw [setTasks_event, modEvent_event]
    split
    · rw [decide_eq_true loaded, Bool.or_true]
    · rfl

theorem setTasks_frame (tasks : List Task) (g : Gate) : setTasks tasks g = { g with
    upkeep := { g.upkeep with
      tasks := (setTasks tasks g).upkeep.tasks
      cursor := (setTasks tasks g).upkeep.cursor
      shadow := (setTasks tasks g).upkeep.shadow } } := by
  by_cases head : tasks.head? = g.upkeep.tasks.head?
  · rw [show setTasks tasks g = _ from if_pos head]
  · rw [show setTasks tasks g = _ from if_neg head]
    rfl

theorem setTasks_frame_of_events {tasks : List Task} {m : Gate} (events : m = { g with events := m.events }) :
    setTasks tasks m = { g with
      events := (setTasks tasks m).events
      upkeep := { g.upkeep with
        tasks := (setTasks tasks m).upkeep.tasks
        cursor := (setTasks tasks m).upkeep.cursor
        shadow := (setTasks tasks m).upkeep.shadow } } := by
  obtain ⟨records, rfl⟩ : ∃ records, m = { g with events := records } := ⟨_, events⟩
  obtain ⟨after, cursor, shadow, same⟩ : ∃ after cursor shadow, setTasks tasks { g with events := records } = { g with
    events := records
    upkeep := { g.upkeep with tasks := after, cursor := cursor, shadow := shadow } } := ⟨_, _, _, setTasks_frame tasks _⟩
  rw [same]

/-- R87: the walk of the head of the list stands at its beginning. -/
def WalkBegins (g : Gate) : Prop :=
  g.upkeep.tasks ≠ [] → g.upkeep.cursor = 0 ∧ g.upkeep.shadow = Vector.replicate 4 0

theorem setTasks_walk (tasks : List Task) (walk : WalkBegins g) : WalkBegins (setTasks tasks g) := by
  by_cases head : tasks.head? = g.upkeep.tasks.head?
  · rw [show setTasks tasks g = _ from if_pos head]
    refine fun some_ => walk fun empty => some_ ?_
    rw [empty] at head
    exact List.head?_eq_none_iff.mp head
  · rw [show setTasks tasks g = _ from if_neg head]
    exact fun _ => ⟨rfl, rfl⟩

theorem requeueTask_frame (e : EventIndex) (g : Gate) : requeueTask e g = { g with
    events := (requeueTask e g).events
    upkeep := { g.upkeep with
      tasks := (requeueTask e g).upkeep.tasks
      cursor := (requeueTask e g).upkeep.cursor
      shadow := (requeueTask e g).upkeep.shadow } } := by
  unfold requeueTask
  split
  · rfl
  · exact setTasks_frame_of_events rfl

theorem requeueTask_tasks (e : EventIndex) (g : Gate) :
    (requeueTask e g).upkeep.tasks = g.upkeep.tasks ++ restartTasksOf e (g.event e).phase := by
  unfold requeueTask restartTasksOf
  split
  · rw [List.append_nil]
  · dsimp only
    rw [setTasks_tasks]
    split
    · rfl
    · rfl

theorem requeueTask_walk (e : EventIndex) (walk : WalkBegins g) : WalkBegins (requeueTask e g) := by
  unfold requeueTask
  split
  · exact walk
  · exact setTasks_walk _ walk

theorem requeueTask_turn (e : EventIndex) (ready : Ready s g) : TurnOf e s g (requeueTask e g) := by
  have frame := requeueTask_frame e g
  have leg (f : EventIndex) (slot : SheetSlot) : (requeueTask e g).leg f slot = g.leg f slot := by
    rw [frame]
    rfl
  have status : (requeueTask e g).command.status = g.command.status := by rw [frame]
  refine ⟨.of_frame ready ?_ (fun f slot one held => ?_) (fun i => ?_) (fun item _ held => ?_) (fun z => ?_), fun i apart =>
    ⟨?_, leg i, fun item mem _ => ?_⟩⟩
  · obtain ⟨events, tasks, cursor, shadow, same⟩ : ∃ events tasks cursor shadow, requeueTask e g = { g with
      events := events
      upkeep := { g.upkeep with tasks := tasks, cursor := cursor, shadow := shadow } } := ⟨_, _, _, _, frame⟩
    rw [same]
    rfl
  · rw [leg] at held
    exact ready.laps f slot one held
  · rw [requeueTask_event]
    split
    · next same =>
      subst same
      exact ⟨rfl, rfl, rfl, rfl⟩
    · exact .refl _
  · rwa [status]
  · rw [requeueTask_zone]
    exact .refl ..
  · rw [requeueTask_event, if_neg apart]
  · rwa [status]

theorem reformEvent_turn (e : EventIndex) (ready : Ready s g) : TurnOf e s g (reformEvent e g) := by
  have first := reformDelivery_turn e ready
  exact first.trans (requeueTask_turn e first.reforms.ready)

end Relations

end Sys2Proof.Machine

/-! PROOF. The turns of a restart (R58, R78, R136): each event after its turn, and the part after every turn. -/

namespace Sys2Proof.Machine

open Sys2Proof.Safety Sys2Proof.Claims

set_option Elab.async false

section Event

variable {s g h m : Gate} {e : EventIndex} {slot : SheetSlot} {leg : Option Leg}

/-! ## The legs of an event -/

/-- What the join of the leg of a slot, or of none, makes of the event and of its legs. -/
structure SlotJoins (e : EventIndex) (slot : SheetSlot) (leg : Option Leg) (g h : Gate) : Prop where
  event : h.event e = { g.event e with counters := (h.event e).counters }
  legs : ∀ f place, h.leg f place = if f = e ∧ place = slot then leg else g.leg f place
  joined : eventCount h e .legsJoined
    = if leg.isSome then countUp (eventCount g e .legsJoined) 1 else eventCount g e .legsJoined
  late : eventCount h e .lateLegs
    = if leg.any Leg.late then countUp (eventCount g e .lateLegs) 1 else eventCount g e .lateLegs
  counts : ∀ j, j ∉ [EventCounter.legsJoined, .lateLegs] → eventCount h e j = eventCount g e j
  items : h.command.status
    = (leg.filter Leg.late).elim g.command.status fun one => insertItem (lateItem e one) g.command.status

theorem LegJoins.slotJoins {one : Leg} (joins : LegJoins e slot one g h) : SlotJoins e slot (some one) g h where
  event := joins.event
  legs := joins.legs
  joined := joins.joined
  late := by
    rw [joins.late]
    rfl
  counts := joins.counts
  items := by
    rw [joins.status]
    cases late : one.late <;> simp [Option.filter, late]

theorem slotJoins_none (free : g.leg e slot = none) : SlotJoins e slot none g g where
  event := rfl
  legs f place := by
    split
    · next here => rw [here.1, here.2, free]
    · rfl
  joined := rfl
  late := rfl
  counts _ _ := rfl
  items := rfl

theorem joinLeg_slotJoins (first : FirstLaps g) (free : g.leg e .current = none) :
    SlotJoins e .current ((g.sheet e .current).map (sweptAgain g .current)) g (joinLeg e .current g) := by
  cases held : g.sheet e .current with
  | none =>
    rw [joinLeg_of_empty held]
    exact slotJoins_none free
  | some sheet => exact (joinLeg_joins first held free).slotJoins

theorem rejoinPending_slotJoins (first : FirstLaps g) (free : g.leg e .pending = none) :
    SlotJoins e .pending ((g.sheet e .pending).map (sweptAgain g .pending)) g (rejoinPending e g) := by
  cases held : g.sheet e .pending with
  | none =>
    rw [rejoinPending_of_empty held]
    exact slotJoins_none free
  | some sheet => exact (rejoinPending_joins first held free).slotJoins

theorem sweptAgain_congr (clock : g.clock = s.clock) (cursor : g.walker.cursor = s.walker.cursor) (slot : SheetSlot) :
    sweptAgain g slot = sweptAgain s slot := by
  funext sheet
  simp only [sweptAgain, newLeg, Reached, clock, cursor]

/-! ## An event after its turn -/

/-- An event after its turn in a restart at a state, with a recount flag. -/
structure Remade (s : Gate) (e : EventIndex) (flag : Bool) (h : Gate) : Prop where
  event : h.event e = { s.event e with
    current := if (s.event e).phase = .preview
      then (s.event e).current.map (fun sheet => { sheet with mark := true }) else (s.event e).current
    openRepeat := if (s.event e).phase = .preview
      then some (timeAdd s.clock.siteTime (s.settings.repeatInterval.toNat * 1000)) else (s.event e).openRepeat
    recountFlag := flag
    counters := (h.event e).counters }
  counts : ∀ k, (s.event e).phase.mode ≠ .listedGrant ∨ k ∉ [EventCounter.legsJoined, .lateLegs] → eventCount h e k = 0
  joined : (s.event e).phase.mode = .listedGrant → (eventCount h e .legsJoined).toNat
    = (s.event e).current.toList.length + (s.event e).pendingSheet.toList.length
  legs : ∀ slot, h.leg e slot
    = if (s.event e).phase.mode = .listedGrant then (s.sheet e slot).map (sweptAgain s slot) else none
  late : ∀ sheet, (s.event e).phase.mode = .listedGrant → (s.event e).current = some sheet →
    ((sweptAgain s .current sheet).late = true →
      (eventCount h e .lateLegs).toNat = 1 ∧ lateItem e (sweptAgain s .current sheet) ∈ h.command.status) ∧
    ((sweptAgain s .current sheet).late = false → eventCount h e .lateLegs = 0)
  punctual : (s.event e).phase.mode = .listedGrant → (s.event e).current = none → eventCount h e .lateLegs = 0
  offered : ∀ sheet z, (s.event e).phase = .preview → unblacked s e z →
    ((s.event e).current = some sheet ∨ ((s.event e).pendingSheet = some sheet ∧ OpenlyOffered sheet)) →
    Offered h e sheet.number z

theorem Remade.of_leaves {flag : Bool} (made : Remade s e flag m) (leaves : LeavesEvent e m h)
    (grows : ∀ z, (m.zone z).fresh <+: (h.zone z).fresh) : Remade s e flag h := by
  have count (k : EventCounter) : eventCount h e k = eventCount m e k := by
    unfold eventCount
    rw [leaves.event]
  refine ⟨by rw [leaves.event]; exact made.event, fun k other => (count k).trans (made.counts k other),
    fun listed => by rw [count]; exact made.joined listed, fun slot => (leaves.legs slot).trans (made.legs slot),
    fun sheet listed current => ?_, fun listed none_ => (count _).trans (made.punctual listed none_),
    fun sheet z preview opens there => offered_of_prefix (grows z) (made.offered sheet z preview opens there)⟩
  obtain ⟨late, punctual⟩ := made.late sheet listed current
  refine ⟨fun isLate => ?_, fun isNot => (count _).trans (punctual isNot)⟩
  obtain ⟨one, posted⟩ := late isLate
  exact ⟨by rw [count]; exact one, leaves.items _ posted rfl⟩

theorem Remade.requeued {flag : Bool} (made : Remade s e flag h) :
    Remade s e (flag || decide ((s.event e).phase ≠ .vacant)) (requeueTask e h) := by
  have frame := requeueTask_frame e h
  have record := requeueTask_event e e h
  rw [if_pos rfl] at record
  have phase : (h.event e).phase = (s.event e).phase := by rw [made.event]
  have count (k : EventCounter) : eventCount (requeueTask e h) e k = eventCount h e k := by
    unfold eventCount
    rw [record]
  have zone (z : ZoneIndex) : (requeueTask e h).zone z = h.zone z := requeueTask_zone ..
  have status : (requeueTask e h).command.status = h.command.status := by rw [frame]
  refine ⟨?_, fun k other => (count k).trans (made.counts k other),
    fun listed => by rw [count]; exact made.joined listed, fun slot => ?_,
    fun sheet listed current => by rw [count, status]; exact made.late sheet listed current,
    fun listed none_ => (count _).trans (made.punctual listed none_), fun sheet z preview opens there => ?_⟩
  · rw [record, phase, made.event]
  · rw [← made.legs slot, frame]
    rfl
  · unfold Offered
    rw [zone]
    exact made.offered sheet z preview opens there

theorem joinedCount_eq {α : Type} (a b : Option α) :
    (if b.isSome then countUp (if a.isSome then countUp 0 1 else 0) 1 else if a.isSome then countUp 0 1 else 0).toNat
      = a.toList.length + b.toList.length := by
  cases a with
  | none => cases b with
    | none => rfl
    | some _ => rfl
  | some _ => cases b with
    | none => rfl
    | some _ => rfl

/-- R136: the leg of a pending sheet is not late at its join. -/
theorem pendingLate_eq (sheet : Option Sheet) : (sheet.map (sweptAgain s .pending)).any Leg.late = false := by
  cases sheet with
  | none => rfl
  | some sheet => rw [Option.map_some, Option.any_some, sweptAgain_pending]; rfl

theorem pendingFilter_eq (sheet : Option Sheet) : (sheet.map (sweptAgain s .pending)).filter Leg.late = none := by
  cases sheet with
  | none => rfl
  | some sheet => rw [Option.map_some, Option.filter_some, sweptAgain_pending]; rfl

/-- R58, R78: the open entries of an event in PREVIEW have been offered again. -/
def reoffered (e : EventIndex) (g : Gate) : Gate :=
  reofferPending e (openOffer e .current g)

theorem reoffered_frame (e : EventIndex) (g : Gate) :
    reoffered e g = { g with events := (reoffered e g).events, zones := (reoffered e g).zones } :=
  framed_trans (openOffer_frame ..) (reofferPending_frame ..)

theorem reoffered_event_same (e : EventIndex) (g : Gate) :
    (reoffered e g).event e = { g.event e with current := (g.event e).current.map Sheet.offered } := by
  rw [reoffered, reofferPending_event, openOffer_event, if_pos rfl]
  rfl

theorem reoffered_offered {sheet : Sheet} {z : ZoneIndex} (opens : unblacked g e z)
    (held : g.sheet e .current = some sheet ∨ (g.sheet e .pending = some sheet ∧ OpenlyOffered sheet)) :
    Offered (reoffered e g) e sheet.number z := by
  rcases held with current | ⟨pending, offered⟩
  · exact offered_of_prefix (reofferPending_prefix ..) (openOffer_offered current opens)
  · have still : (openOffer e .current g).sheet e .pending = some sheet := by
      have record := openOffer_event e e .current g
      rw [if_pos rfl] at record
      exact (congrArg Event.pendingSheet record :).trans pending
    rw [reoffered, reofferPending_offered still offered]
    exact openOffer_offered still (unblacked_openOffer.mpr opens)

section Turn

variable (ready : Ready s g) (before : g.event e = (s.event e).restarted) (free : ∀ slot, g.leg e slot = none)

include before in
theorem eventCount_restarted (k : EventCounter) : eventCount g e k = 0 := by
  unfold eventCount
  rw [before]
  exact Vector.getElem_replicate _

include before in
theorem sheet_restarted (slot : SheetSlot) : g.sheet e slot = s.sheet e slot := by
  have sheet : (g.event e).sheet slot = (s.event e).sheet slot := by
    rw [before]
    cases slot <;> rfl
  exact sheet

include ready before free

theorem remade_listed (listed : (s.event e).phase.mode = .listedGrant) :
    Remade s e (s.event e).recountFlag (reformDelivery e g) := by
  have phase : (g.event e).phase = (s.event e).phase := by rw [before]; rfl
  have apart : (s.event e).phase ≠ .preview := fun preview => by
    rw [preview] at listed
    cases listed
  have again := sweptAgain_congr (g := g) (s := s) ready.clock ready.cursor
  have delivery : reformDelivery e g = rejoinPending e (joinLeg e .current g) := if_pos (by rw [phase]; exact listed)
  have first := joinLeg_slotJoins ready.laps (free .current)
  have middle := (joinLeg_turn e ready).reforms.ready
  obtain ⟨m, same⟩ : ∃ m, joinLeg e .current g = m := ⟨_, rfl⟩
  rw [same] at first middle delivery
  have second := rejoinPending_slotJoins (e := e) middle.laps (by rw [first.legs, if_neg (by simp)]; exact free .pending)
  have pending : m.sheet e .pending = s.sheet e .pending := by
    rw [← sheet_restarted before]
    exact (congrArg Event.pendingSheet first.event :)
  rw [sheet_restarted before, again] at first
  rw [pending, sweptAgain_congr middle.clock middle.cursor] at second
  rw [delivery]
  obtain ⟨h, last⟩ : ∃ h, rejoinPending e m = h := ⟨_, rfl⟩
  rw [last] at second ⊢
  have none_ := eventCount_restarted before
  refine ⟨?_, fun k other => ?_, fun _ => ?_, fun slot => ?_, fun sheet _ current => ?_, fun _ current => ?_,
    fun _ _ preview => absurd preview apart⟩
  · obtain ⟨_, early⟩ : ∃ counters, m.event e = { g.event e with counters := counters } := ⟨_, first.event⟩
    obtain ⟨_, late⟩ : ∃ counters, h.event e = { m.event e with counters := counters } := ⟨_, second.event⟩
    rw [late, early, before, if_neg apart, if_neg apart]
    rfl
  · have unjoined := other.resolve_left (not_not_intro listed)
    rw [second.counts k unjoined, first.counts k unjoined, none_]
  · rw [second.joined, first.joined, none_]
    rw [Option.isSome_map, Option.isSome_map]
    exact joinedCount_eq ..
  · rw [second.legs, first.legs, if_pos listed]
    cases slot with
    | current => rw [if_neg (by simp), if_pos ⟨rfl, rfl⟩]
    | pending => rw [if_pos ⟨rfl, rfl⟩]
  · rw [second.late, pendingLate_eq, if_neg Bool.false_ne_true, first.late, none_, second.items, pendingFilter_eq, first.items,
      show s.sheet e .current = some sheet from current]
    refine ⟨fun late => ⟨?_, ?_⟩, fun punctual => if_neg (by rw [Option.map_some, Option.any_some, punctual]; simp)⟩
    · rw [Option.map_some, Option.any_some, late]
      rfl
    · rw [Option.map_some, Option.filter_some, late]
      exact mem_insertItem_self ..
  · rw [second.late, pendingLate_eq, if_neg Bool.false_ne_true, first.late, none_,
      show s.sheet e .current = none from current]
    rfl

omit ready in
theorem remade_quiet (unlisted : (s.event e).phase.mode ≠ .listedGrant) (apart : (s.event e).phase ≠ .preview) :
    Remade s e (s.event e).recountFlag (reformDelivery e g) := by
  have phase : (g.event e).phase = (s.event e).phase := by rw [before]; rfl
  have delivery : reformDelivery e g = g := (if_neg (by rwa [phase])).trans (if_neg (by rwa [phase]))
  rw [delivery]
  refine ⟨?_, fun k _ => eventCount_restarted before k, fun listed => absurd listed unlisted, fun slot => ?_,
    fun _ listed => absurd listed unlisted, fun listed => absurd listed unlisted, fun _ _ preview => absurd preview apart⟩
  · rw [before, if_neg apart, if_neg apart]
    rfl
  · rw [if_neg unlisted]
    exact free slot

omit ready free in
theorem unblacked_of_restarted {z : ZoneIndex} (driven : g.driven z = s.driven z) (opens : unblacked s e z) :
    unblacked g e z := by
  refine ⟨driven.trans opens.1, ?_⟩
  rw [before]
  exact opens.2

theorem remade_preview (preview : (s.event e).phase = .preview) :
    Remade s e (s.event e).recountFlag (reformDelivery e g) := by
  have phase : (g.event e).phase = (s.event e).phase := by rw [before]; rfl
  have unlisted : (s.event e).phase.mode ≠ .listedGrant := by rw [preview]; nofun
  have delivery : reformDelivery e g = setOpenRepeat e (reoffered e g) :=
    (if_neg (by rwa [phase])).trans (if_pos (by rw [phase, preview]))
  have frame := reoffered_frame e g
  have changed : (setOpenRepeat e (reoffered e g)).event e = { g.event e with
      current := (g.event e).current.map Sheet.offered
      openRepeat := some (timeAdd s.clock.siteTime (s.settings.repeatInterval.toNat * 1000)) } := by
    rw [setOpenRepeat_event, reoffered_event_same, ← ready.clock, ← ready.settings,
      show (reoffered e g).clock = g.clock by rw [frame], show (reoffered e g).settings = g.settings by rw [frame]]
  rw [delivery]
  refine ⟨?_, fun k _ => ?_, fun listed => absurd listed unlisted, fun slot => ?_,
    fun _ listed => absurd listed unlisted, fun listed => absurd listed unlisted, fun sheet z _ opens held => ?_⟩
  · rw [changed, before, if_pos preview, if_pos preview]
    rfl
  · unfold eventCount
    rw [changed]
    exact eventCount_restarted before k
  · rw [if_neg unlisted, ← free slot, setOpenRepeat, modEvent_leg, frame]
    rfl
  · have there : g.sheet e .current = some sheet ∨ (g.sheet e .pending = some sheet ∧ OpenlyOffered sheet) := by
      rw [sheet_restarted before, sheet_restarted before]
      exact held
    have offered := reoffered_offered (unblacked_of_restarted before (ready.driven z) opens) there
    exact offered

theorem remade_reformEvent : Remade s e ((s.event e).recountFlag || decide ((s.event e).phase ≠ .vacant)) (reformEvent e g) := by
  refine Remade.requeued ?_
  by_cases listed : (s.event e).phase.mode = .listedGrant
  · exact remade_listed ready before free listed
  · by_cases preview : (s.event e).phase = .preview
    · exact remade_preview ready before free preview
    · exact remade_quiet before free listed preview

end Turn

end Event

/-! ## The maintenance list -/

theorem joinLeg_upkeep (e : EventIndex) (slot : SheetSlot) (g : Gate) : (joinLeg e slot g).upkeep = g.upkeep := by
  have late (leg : Leg) (h : Gate) : (makeLate e slot leg h).upkeep = h.upkeep := by
    unfold makeLate
    split
    · rfl
    · rfl
  unfold joinLeg
  split
  · unfold lateAtJoin
    dsimp only
    split
    · split
      · exact late _ _
      · rfl
    · rfl
  · rfl

theorem reformDelivery_upkeep (e : EventIndex) (g : Gate) : (reformDelivery e g).upkeep = g.upkeep := by
  unfold reformDelivery
  split
  · have rejoined (h : Gate) : (rejoinPending e h).upkeep = h.upkeep := by
      unfold rejoinPending
      split
      · rfl
      · rfl
    rw [rejoined, joinLeg_upkeep]
  · split
    · have frame : reofferPending e (openOffer e .current g) = _ := reoffered_frame e g
      rw [setOpenRepeat, modEvent_upkeep, frame]
    · rfl

theorem reformEvent_walk {g : Gate} (e : EventIndex) (walk : WalkBegins g) : WalkBegins (reformEvent e g) := by
  refine requeueTask_walk e ?_
  unfold WalkBegins
  rwa [reformDelivery_upkeep]

theorem reformEvent_tasks {s g : Gate} (e : EventIndex) (ready : Ready s g) :
    (reformEvent e g).upkeep.tasks = g.upkeep.tasks ++ restartTasksOf e (s.event e).phase := by
  rw [reformEvent, requeueTask_tasks, reformDelivery_upkeep, ((reformDelivery_turn e ready).reforms.ready.records e).phase]

/-! ## The part after every turn -/

/-- Table 82: the part as every block has taken its part of a restart. -/
def blocksRestarted (cause : Byte) (g : Gate) : Gate :=
  postRestarted cause (clearBlocks (cutSave g))

section Restart

variable {g h : Gate} {cause : Byte}

theorem blocksRestarted_event (e : EventIndex) : (blocksRestarted cause g).event e = (g.event e).restarted := by
  rw [blocksRestarted, postRestarted, post_event, clearBlocks_event, cutSave_frame]
  rfl

theorem blocksRestarted_leg (e : EventIndex) (slot : SheetSlot) : (blocksRestarted cause g).leg e slot = none :=
  clearBlocks_leg ..

theorem blocksRestarted_ready : Ready g (blocksRestarted cause g) := by
  have frame := cutSave_frame g
  refine ⟨fun f slot leg held => ?_, fun e => ?_, fun z => ?_, ?_, ?_, ?_⟩
  · rw [blocksRestarted_leg] at held
    cases held
  · rw [blocksRestarted_event]
    exact ⟨rfl, rfl, rfl, rfl⟩
  all_goals
    rw [blocksRestarted, frame]
    rfl

theorem restartNow_reforms : Reforms g (blocksRestarted cause g) (restartNow cause g) :=
  List.foldlRecOn (motive := Reforms g (blocksRestarted cause g)) allEvents _ (.refl blocksRestarted_ready)
    fun _ before e _ => before.trans (reformEvent_turn e before.ready).reforms

/-- What the re-forming of other events leaves of an event, in the middle of a restart. -/
def LeavesWhenReady (s : Gate) (i : EventIndex) (g h : Gate) : Prop :=
  Ready s g → Reforms s g h ∧ LeavesEvent i g h

theorem restartNow_remade (e : EventIndex) : Remade g e
    ((g.event e).recountFlag || decide ((g.event e).phase ≠ .vacant)) (restartNow cause g) := by
  obtain ⟨m, before, after⟩ := foldl_allEvents_at e (f := reformEvent) (R := LeavesWhenReady g e)
    (fun h ready => ⟨.refl ready, .refl e h⟩)
    (fun a b c first second ready =>
      have ⟨reforms, leaves⟩ := first ready
      have ⟨reforms', leaves'⟩ := second reforms.ready
      ⟨reforms.trans reforms', leaves.trans leaves'⟩)
    (fun x apart acc ready =>
      have turn := reformEvent_turn x ready
      ⟨turn.reforms, turn.leaves e (Ne.symm apart)⟩) (blocksRestarted cause g)
  obtain ⟨reforms, leaves⟩ := before blocksRestarted_ready
  have made := remade_reformEvent reforms.ready (leaves.event.trans (blocksRestarted_event e))
    fun slot => (leaves.legs slot).trans (blocksRestarted_leg e slot)
  obtain ⟨rest, stays⟩ := after (reformEvent_turn e reforms.ready).reforms.ready
  exact made.of_leaves stays fun z => (rest.zone z).grows

theorem restartNow_walk : WalkBegins (restartNow cause g) :=
  List.foldlRecOn (motive := WalkBegins) allEvents _ (fun some_ => absurd rfl some_) fun _ before e _ => reformEvent_walk e before

theorem foldl_reformEvent_tasks (events : List EventIndex) {acc : Gate} (ready : Ready g acc) :
    (events.foldl (fun acc e => reformEvent e acc) acc).upkeep.tasks
      = acc.upkeep.tasks ++ events.flatMap (fun e => restartTasksOf e (g.event e).phase) := by
  induction events generalizing acc with
  | nil => exact (List.append_nil _).symm
  | cons e events ih =>
    rw [List.foldl_cons, ih (reformEvent_turn e ready).reforms.ready, reformEvent_tasks e ready, List.flatMap_cons,
      List.append_assoc]

theorem restartNow_tasks : (restartNow cause g).upkeep.tasks = allEvents.filterMap (fun e =>
    if (g.event e).phase = .vacant then none
    else if (g.event e).phase = .retiring then some (.retire e true)
    else some (.recount e)) := by
  have turns : restartNow cause g = allEvents.foldl (fun acc e => reformEvent e acc) (blocksRestarted cause g) := rfl
  have empty : (blocksRestarted cause g).upkeep.tasks = [] := rfl
  rw [turns, foldl_reformEvent_tasks allEvents blocksRestarted_ready, empty, List.nil_append, List.filterMap_eq_flatMap_toList]
  refine (congrArg (fun f => allEvents.flatMap f) (funext fun e => ?_))
  unfold restartTasksOf
  split
  · rfl
  · split
    · rfl
    · rfl

end Restart

end Sys2Proof.Machine

/-! PROOF. POWER_ON and the restart (R169, R182, R183, Table 82), block by block, and the statement PowerOnAndRestarts. -/

namespace Sys2Proof.Machine

open Sys2Proof.Safety Sys2Proof.Claims

set_option Elab.async false

/-! ## A save cut short -/

section CutSave

variable {g : Gate}

theorem cutSave_eeprom_of_idle (idle : ∀ tag image, g.command.work ≠ .saving tag image) :
    (cutSave g).loader.eeprom = g.loader.eeprom := by
  unfold cutSave
  split
  · next tag image work => exact absurd work (idle tag image)
  · rfl

theorem cutSave_read_zero : Memory.read (cutSave g).loader.eeprom 0 = Memory.read g.loader.eeprom 0 := by
  unfold cutSave
  split
  · exact Memory.read_writeAll_below _ _ (by omega)
  · rfl

end CutSave

/-! ## The blocks (Table 82) -/

section Blocks

variable (cause : Byte) (g : Gate)

/-- R177, Table 80: the RESTARTED item. -/
def restartedItem (cause : Byte) (g : Gate) : Item where
  kind := .restarted
  object := 0xFF
  detail := cause :: field 5 g.clock.siteTime.toNat

theorem blocksRestarted_frame : blocksRestarted cause g = { g with
    freeDraws := (cutSave g).freeDraws
    loader := { g.loader with eeprom := (cutSave g).loader.eeprom }
    intake := { Intake.powerOn with handoff := g.intake.handoff }
    events := g.events.map Event.restarted
    holders := holdersRestarted g.settings.overrideHold g.holders
    upkeep := { g.upkeep with tasks := [] }
    walker := { g.walker with roster := Vector.replicate 24 Sweep.absent, parked := false }
    zones := g.zones.map Zone.restarted
    command := { CommandUnit.restarted with status := [restartedItem cause g] }
    output := { g.output with continuity := 0 }
    counters := Vector.replicate 37 0 } := by
  obtain ⟨draws, contents, same⟩ : ∃ draws contents, cutSave g = { g with
    freeDraws := draws
    loader := { g.loader with eeprom := contents } } := ⟨_, _, cutSave_frame g⟩
  rw [blocksRestarted, same]
  rfl

theorem blocksRestarted_zone (z : ZoneIndex) : (blocksRestarted cause g).zone z = (g.zone z).restarted := by
  rw [blocksRestarted, postRestarted_zone, clearBlocks_zone, cutSave_zone]

/-- Table 82: what a restart leaves of the blocks that the re-forming does not touch. -/
structure BlocksLeft (cause : Byte) (g t : Gate) : Prop where
  loader : t.loader = { g.loader with eeprom := (cutSave g).loader.eeprom }
  intake : t.intake = { Intake.powerOn with handoff := g.intake.handoff }
  lanes : t.lanes = g.lanes
  clock : t.clock = g.clock
  settings : t.settings = g.settings
  holders : t.holders = holdersRestarted g.settings.overrideHold g.holders
  age : t.upkeep.ageInstant = g.upkeep.ageInstant
  grant : t.upkeep.lastGrant = g.upkeep.lastGrant
  walker : t.walker.cursor = g.walker.cursor ∧ t.walker.parked = false
  command : t.command.queue = [] ∧ t.command.busy = false ∧ t.command.work = .ready ∧ t.command.replies = []
  status : t.command.status.head? = some (restartedItem cause g)
  output : t.output = { g.output with continuity := 0 }
  counters : t.counters = Vector.replicate 37 0

theorem restartNow_blocks : BlocksLeft cause g (restartNow cause g) := by
  obtain ⟨-, frame, head, -⟩ := restartNow_reforms (g := g) (cause := cause)
  have blocks := blocksRestarted_frame cause g
  obtain ⟨c, same⟩ : ∃ c, blocksRestarted cause g = c := ⟨_, rfl⟩
  obtain ⟨t, last⟩ : ∃ t, restartNow cause g = t := ⟨_, rfl⟩
  rw [same] at frame head blocks
  rw [last] at frame head ⊢
  have status : c.command.status.head? = some (restartedItem cause g) := by rw [blocks]; rfl
  have posted := head _ rfl status
  subst blocks
  obtain ⟨events, roster, zones, tasks, cursor, shadow, status, rfl⟩ : ∃ events roster zones tasks cursor shadow status,
      t = { g with
        freeDraws := (cutSave g).freeDraws
        loader := { g.loader with eeprom := (cutSave g).loader.eeprom }
        intake := { Intake.powerOn with handoff := g.intake.handoff }
        events := events
        holders := holdersRestarted g.settings.overrideHold g.holders
        upkeep := { g.upkeep with tasks := tasks, cursor := cursor, shadow := shadow }
        walker := { g.walker with roster := roster, parked := false }
        zones := zones
        command := { CommandUnit.restarted with status := status }
        output := { g.output with continuity := 0 }
        counters := Vector.replicate 37 0 } := ⟨_, _, _, _, _, _, _, frame⟩
  exact ⟨rfl, rfl, rfl, rfl, rfl, rfl, rfl, rfl, ⟨rfl, rfl⟩, ⟨rfl, rfl, rfl, rfl⟩, posted, rfl, rfl⟩

end Blocks

theorem holdersRestarted_eq (hold : Bool) (holders : List (Nat × Holder)) :
    holdersRestarted hold holders = holders.map (fun entry => (entry.1, holderKept hold entry.2)) := by
  unfold holdersRestarted holderKept
  cases hold with
  | true => simp
  | false => rfl

/-- Table 82: a restart, block by block. -/
theorem restarted_restartNow (s : State) (cause : Byte) : Restarted s { s with gate := restartNow cause s.gate } cause := by
  have blocks := restartNow_blocks cause s.gate
  have made (e : EventIndex) := restartNow_remade (g := s.gate) (cause := cause) e
  have tasks := restartNow_tasks (g := s.gate) (cause := cause)
  have walk := restartNow_walk (g := s.gate) (cause := cause)
  obtain ⟨-, -, -, zones⟩ := restartNow_reforms (g := s.gate) (cause := cause)
  simp only [blocksRestarted_zone] at zones
  obtain ⟨t, same⟩ : ∃ t, restartNow cause s.gate = t := ⟨_, rfl⟩
  rw [same] at blocks tasks walk zones ⊢
  simp only [same] at made
  have unoffered (none_ : ∀ e, (s.gate.event e).phase ≠ .preview) (z : ZoneIndex) : t.zone z = (s.gate.zone z).restarted :=
    (zones z).quiet fun entry ⟨e, _, preview, _⟩ => none_ e preview
  exact
    { pending := rfl
      intake := blocks.intake
      lanes := blocks.lanes
      clock := blocks.clock
      settings := blocks.settings
      straps := by
        show t.loader = _
        rw [blocks.loader]
      eeprom := fun idle => by
        show t.loader.eeprom = _
        rw [blocks.loader]
        exact cutSave_eeprom_of_idle idle
      cut := fun tag image work => by
        show Memory.read t.loader.eeprom 0 = _
        rw [blocks.loader]
        exact cutSave_read_zero
      event := fun e => (made e).event
      eventCounters := fun e => (made e).counts
      joined := fun e => (made e).joined
      holders := blocks.holders.trans (holdersRestarted_eq ..)
      tasks := tasks
      walk := walk
      age := blocks.age
      grant := blocks.grant
      walker := blocks.walker
      legs := fun e => (made e).legs
      late := fun e => (made e).late
      punctual := fun e => (made e).punctual
      zone := fun z => (zones z).frame
      offered := fun entry z ⟨e, sheet, preview, opens, held, named⟩ => by
        rw [named]
        exact (made e).offered sheet z preview opens held
      fresh := fun z entry mem => ((zones z).fresh entry mem).resolve_left (List.not_mem_nil)
      zoneCounters := fun z k other => ((zones z).counts k other).trans (Vector.getElem_replicate _)
      quiet := fun none_ z => by
        show (t.zone z).fresh = [] ∧ (t.zone z).counters = _
        rw [unoffered none_ z]
        exact ⟨rfl, rfl⟩
      command := blocks.command
      status := blocks.status
      output := blocks.output
      counters := fun k => by
        show t.counters[k.pos] = 0
        rw [blocks.counters]
        exact Vector.getElem_replicate _ }

/-! ## POWER_ON and RESTART -/

theorem powerOn_frame (unit : Byte) (zones : BitVec 2) (fitted : Option (List Byte)) (g : Gate) :
    powerOn unit zones fitted g = { State.reset.gate with
      freeDraws := (powerOn unit zones fitted g).freeDraws
      loader := { State.reset.gate.loader with
        unitStraps := unit, zoneStraps := zones, eeprom := (powerOn unit zones fitted g).loader.eeprom } } := rfl

theorem restart_of_begins {s : State} {q : Request} (begins : Begins s.gate q) (coded : q.code = 0x36) :
    restart s.gate = if q.length = 0 then beginRestart q (leaveQueue s.gate)
      else placeReply q.tag q.code .badForm [] (leaveQueue s.gate) :=
  beginCommand_of_begins begins coded

end Sys2Proof.Machine

namespace Sys2Proof.Proofs

open Sys2Proof.Machine Sys2Proof.Safety Sys2Proof.Claims

set_option Elab.async false

/-- Settles O56: the blocks of a restart and the turns of its events (`restarted_restartNow`). -/
theorem powerOnAndRestarts : Obligations.PowerOnAndRestarts := by
  refine ⟨fun s unit zones fitted => ?powerOn, fun s q begins coded => ⟨fun form => ?_, fun form => ?_⟩,
    fun s restarting sent => ⟨_, exec_of_effect (i := .restartStep) (restartStep_of_due restarting sent),
      restarted_restartNow s 0x01⟩,
    fun s loaded => ⟨_, exec_of_effect (i := .restartLine) (restartLine_of_loaded loaded), restarted_restartNow s 0x02⟩⟩
  case powerOn =>
    refine ⟨_, exec_of_effect (i := .powerOn unit zones fitted) rfl, rfl, powerOn_frame .., fun unfitted idle => ?_,
      fun image there i inside => ?_⟩
    · rw [unfitted]
      exact cutSave_eeprom_of_idle idle
    · subst there
      have read := Memory.read_writeAll_at [] 0 image inside
      rw [Nat.zero_add] at read
      exact read
  · exact exec_of_effect (i := .restart) ((restart_of_begins begins coded).trans (if_neg form))
  · refine exec_of_effect (i := .restart) ((restart_of_begins begins coded).trans (if_pos form)) |>.trans ?_
    obtain ⟨c, command, replies⟩ := leaveQueue_left s.gate
    rw [beginRestart, command, ← replies, coded]
    rfl

end Sys2Proof.Proofs

/-! PROOF. INPUT_CELL, MISSING_CELL and NOMINAL_SLOT (R1–R5, R153): the sync states, the idle opportunities that they make, and
the statement InputCellsLockAndLose. -/

namespace Sys2Proof.Machine

open Sys2Proof.Safety Sys2Proof.Claims

set_option Elab.async false

/-! ## Sync states -/

section Sync

variable {g : Gate} {cell : List Byte} {behind : BitVec 4}

theorem lockGood_iff : lockGood cell = true ↔ byteAt cell 0 = 0x5C ∧ byteSum (cell.take 5) % 256 = 0 := by
  simp [lockGood, headerSumGood, syncByte]

theorem headerGood_iff :
    headerGood cell = true ↔ byteSum (cell.take 5) % 256 = 0 ∧ byteAt cell 1 &&& 0x70 = 0 := by
  simp [headerGood, headerSumGood]

theorem inputCell_loading (loading : g.loader.loading = true) : inputCell cell behind g = g := if_pos loading

theorem missingCell_loading (loading : g.loader.loading = true) : missingCell g = g := if_pos loading

theorem inputCell_hunts (loaded : g.loader.loading = false) (unlocked : g.intake.sync ≠ .locked) :
    inputCell cell behind g = huntCell cell (bump .cellsReceived g) := by
  refine (if_neg (by simp [loaded])).trans ?_
  cases sync : g.intake.sync with
  | searching => rfl
  | locked => exact absurd sync unlocked
  | lost => rfl

theorem inputCell_locked (loaded : g.loader.loading = false) (locked : g.intake.sync = .locked) :
    inputCell cell behind g = lockedCell cell behind (bump .cellsReceived g) := by
  refine (if_neg (by simp [loaded])).trans ?_
  rw [locked]

theorem missingCell_unlocked (unlocked : g.intake.sync ≠ .locked) : missingCell g = g := by
  unfold missingCell
  cases sync : g.intake.sync with
  | searching => exact ite_self _
  | locked => exact absurd sync unlocked
  | lost => exact ite_self _

theorem missingCell_locked (loaded : g.loader.loading = false) (locked : g.intake.sync = .locked) :
    missingCell g = badSync (giveSlot .idle 0 (bump .missingCells g)) := by
  refine (if_neg (by simp [loaded])).trans ?_
  rw [locked]

theorem huntCell_bad (bad : ¬ (byteAt cell 0 = 0x5C ∧ byteSum (cell.take 5) % 256 = 0)) :
    huntCell cell g = { g with intake := { g.intake with goodRun := 0 } } :=
  if_neg (mt lockGood_iff.mp bad)

theorem huntCell_good {run : Fin 5} (good : byteAt cell 0 = 0x5C ∧ byteSum (cell.take 5) % 256 = 0)
    (next : run.val = g.intake.goodRun.val + 1) (short : run.val < 4) :
    huntCell cell g = { g with intake := { g.intake with goodRun := run } } := by
  have same : Fin.ofNat 5 (g.intake.goodRun.val + 1) = run := by
    rw [← next]
    exact Fin.ofNat_val_eq_self run
  refine (if_pos (lockGood_iff.mpr good)).trans ((if_pos (next ▸ short)).trans ?_)
  rw [same]

theorem huntCell_locks (good : byteAt cell 0 = 0x5C ∧ byteSum (cell.take 5) % 256 = 0) (long : 3 ≤ g.intake.goodRun.val) :
    huntCell cell g = post .input 0xFF [0x02, 0, 0, 0, 0, 0]
      { g with intake := { g.intake with sync := .locked, goodRun := 4, badRun := 0 } } :=
  (if_pos (lockGood_iff.mpr good)).trans (if_neg (by omega))

theorem badSync_runs {run : Fin 4} (next : run.val = g.intake.badRun.val + 1) (short : run.val < 3) :
    badSync g = { g with intake := { g.intake with badRun := run } } := by
  have same : Fin.ofNat 4 (g.intake.badRun.val + 1) = run := by
    rw [← next]
    exact Fin.ofNat_val_eq_self run
  refine (if_pos (next ▸ short)).trans ?_
  rw [same]

theorem badSync_loses (long : 2 ≤ g.intake.badRun.val) : badSync g = post .input 0xFF [0x01, 0, 0, 0, 0, 0]
    (bump .lockLosses { g with
      intake := { g.intake with sync := .lost, goodRun := 0, badRun := 3, nominalTiming := true } }) :=
  if_neg (by omega)

theorem giveSlot_intake (slot : Slot) (behind : BitVec 4) (g : Gate) : (giveSlot slot behind g).intake = g.intake := by
  rw [(giveSlot_frame slot behind g).1]

theorem lockedCell_badSync (bad : byteAt cell 0 ≠ 0x5C) :
    lockedCell cell behind g = badSync (giveSlot .idle behind (bump .syncErrors g)) :=
  if_pos bad

theorem lockedCell_badHeader (synced : byteAt cell 0 = 0x5C)
    (bad : ¬ (byteSum (cell.take 5) % 256 = 0 ∧ byteAt cell 1 &&& 0x70 = 0)) :
    lockedCell cell behind g
      = giveSlot .idle behind (bump .headerErrors { g with intake := { g.intake with badRun := 0 } }) :=
  (if_neg (not_not_intro synced)).trans (if_neg (mt headerGood_iff.mp bad))

end Sync

/-! ## Slots in which no cell of the input is sent (R5) -/

section Unsent

variable {g h k : Gate} {z : ZoneIndex}

/-- No content, alternate or free-lane cell has been sent on any zone. -/
structure Unsent (g h : Gate) : Prop where
  zone : ∀ z, zoneCounter h z .cellsPassed = zoneCounter g z .cellsPassed ∧
    zoneCounter h z .substitutesSent = zoneCounter g z .substitutesSent ∧
    (h.zone z).substitutes = (g.zone z).substitutes

theorem Unsent.of_zones (zones : h.zones = g.zones) : Unsent g h where
  zone z := by
    unfold zoneCounter
    rw [zone_of_zones zones]
    exact ⟨rfl, rfl, rfl⟩

theorem Unsent.refl (g : Gate) : Unsent g g := .of_zones rfl

theorem Unsent.trans (first : Unsent g h) (second : Unsent h k) : Unsent g k where
  zone z :=
    have ⟨passed, sent, counts⟩ := first.zone z
    have ⟨passed', sent', counts'⟩ := second.zone z
    ⟨passed'.trans passed, sent'.trans sent, counts'.trans counts⟩

/-- A change of a zone that leaves the two counters and the substitutes. -/
structure ZoneUnsent (f : Zone → Zone) : Prop where
  passed : ∀ zone, (f zone).counters[ZoneCounter.cellsPassed.pos] = zone.counters[ZoneCounter.cellsPassed.pos]
  sent : ∀ zone, (f zone).counters[ZoneCounter.substitutesSent.pos] = zone.counters[ZoneCounter.substitutesSent.pos]
  substitutes : ∀ zone, (f zone).substitutes = zone.substitutes

theorem modZone_unsent {f : Zone → Zone} (unsent : ZoneUnsent f) : Unsent g (modZone z f g) := by
  refine ⟨fun y => ?_⟩
  unfold zoneCounter
  rw [modZone_zone]
  split
  · next same =>
    subst same
    exact ⟨unsent.passed _, unsent.sent _, unsent.substitutes _⟩
  · exact ⟨rfl, rfl, rfl⟩

theorem countBy_unsent {k : ZoneCounter} (n : Nat) (other : k ∉ [ZoneCounter.cellsPassed, .substitutesSent]) :
    ZoneUnsent (Zone.countBy k n) where
  passed zone := by rw [Zone.countBy_counter, if_neg fun same => other (by rw [← same]; decide)]
  sent zone := by rw [Zone.countBy_counter, if_neg fun same => other (by rw [← same]; decide)]
  substitutes _ := rfl

theorem ZoneUnsent.comp {f f' : Zone → Zone} (first : ZoneUnsent f) (second : ZoneUnsent f') :
    ZoneUnsent (fun zone => f' (f zone)) where
  passed zone := (second.passed _).trans (first.passed zone)
  sent zone := (second.sent _).trans (first.sent zone)
  substitutes zone := (second.substitutes _).trans (first.substitutes zone)

theorem sendNotice_unsent (z : ZoneIndex) (body : List Byte) (g : Gate) : Unsent g (sendNotice z body g) :=
  modZone_unsent ⟨fun _ => rfl, fun _ => rfl, fun _ => rfl⟩

theorem sendZone_unsent (z : ZoneIndex) (cell : List Byte) (g : Gate) : Unsent g (sendZone z cell g) :=
  modZone_unsent ⟨fun _ => rfl, fun _ => rfl, fun _ => rfl⟩

theorem sendIdle_unsent (z : ZoneIndex) (g : Gate) : Unsent g (sendIdle z g) :=
  (modZone_unsent (countBy_unsent 1 (by decide))).trans (sendZone_unsent ..)

theorem arbitrate_unsent (z : ZoneIndex) (g : Gate) : Unsent g (arbitrate z g) := by
  have sweep (head : Notice) (rest : List Notice) : Unsent g (sendSweep z head rest g) :=
    (modZone_unsent ((ZoneUnsent.mk (f := fun zone => { zone with sweep := rest }) (fun _ => rfl) (fun _ => rfl)
      (fun _ => rfl)).comp (countBy_unsent 1 (by decide)))).trans (sendNotice_unsent ..)
  have taken (queue : List FreshEntry) : ZoneUnsent (fun zone => { zone with fresh := queue }) :=
    ⟨fun _ => rfl, fun _ => rfl, fun _ => rfl⟩
  have fresh (head : FreshEntry) (rest : List FreshEntry) : Unsent g (sendFresh z head rest g) := by
    unfold sendFresh
    split
    · exact (modZone_unsent (((taken _).comp (countBy_unsent 1 (by decide))).comp (countBy_unsent _ (by decide)))).trans
        (sendNotice_unsent ..)
    · exact (modZone_unsent ((taken _).comp (countBy_unsent 1 (by decide)))).trans (sendNotice_unsent ..)
  unfold arbitrate
  split
  · exact sweep ..
  · split
    · exact sweep ..
    · exact fresh ..
  · exact fresh ..
  · exact .refl g

theorem countWindow_unsent (z : ZoneIndex) (g : Gate) : Unsent g (countWindow z g) := by
  unfold countWindow
  split
  · exact Unsent.trans (h := { g with freeDraws := g.freeDraws + 1 }) (.of_zones rfl)
      (modZone_unsent ⟨fun _ => rfl, fun _ => rfl, fun _ => rfl⟩)
  · exact modZone_unsent ⟨fun _ => rfl, fun _ => rfl, fun _ => rfl⟩

theorem idleOpportunity_unsent (z : ZoneIndex) (g : Gate) : Unsent g (idleOpportunity z g) := by
  unfold idleOpportunity
  split
  · refine (countWindow_unsent z g).trans ?_
    unfold creditStep
    dsimp only
    split
    · refine (arbitrate_unsent ..).trans (modZone_unsent ?_)
      exact ⟨fun _ => rfl, fun _ => rfl, fun _ => rfl⟩
    · refine Unsent.trans (modZone_unsent ?_) (sendIdle_unsent ..)
      exact ⟨fun _ => rfl, fun _ => rfl, fun _ => rfl⟩
  · exact (modZone_unsent ((ZoneUnsent.mk (f := fun zone => { zone with hold := zone.hold - 1 }) (fun _ => rfl) (fun _ => rfl)
      (fun _ => rfl)).comp (countBy_unsent 1 (by decide)))).trans (sendZone_unsent ..)

theorem catchUp_unsent (unlocked : g.intake.sync ≠ .locked) (z : ZoneIndex) : Unsent g (catchUp z g) := by
  unfold catchUp
  split
  · next slot _ =>
    rw [show g.heldSlot slot = .idle from if_neg unlocked]
    refine Unsent.trans (modZone_unsent ?_) (idleOpportunity_unsent ..)
    exact ⟨fun _ => rfl, fun _ => rfl, fun _ => rfl⟩
  · exact .refl g

theorem reachZone_unsent (unlocked : g.intake.sync ≠ .locked) (z : ZoneIndex) : Unsent g (reachZone .idle 0 z g) := by
  refine (catchUp_unsent unlocked z).trans ?_
  unfold reachZone
  rw [if_neg (by simp)]
  exact idleOpportunity_unsent ..

theorem giveSlot_unsent (unlocked : g.intake.sync ≠ .locked) : Unsent g (giveSlot .idle 0 g) := by
  have turn : ∀ acc : Gate, acc.intake = g.intake ∧ Unsent g acc → ∀ z ∈ allZones,
      (if acc.driven z then reachZone .idle 0 z acc else acc).intake = g.intake ∧
        Unsent g (if acc.driven z then reachZone .idle 0 z acc else acc) := fun acc ⟨intake, unsent⟩ z _ => by
    split
    · refine ⟨?_, unsent.trans (reachZone_unsent (by rwa [intake]) z)⟩
      rw [(reachZone_step .idle 0 z acc).gate]
      exact intake
    · exact ⟨intake, unsent⟩
  exact (List.foldlRecOn (motive := fun acc : Gate => acc.intake = g.intake ∧ Unsent g acc) allZones _ ⟨rfl, .refl g⟩ turn).2

theorem huntCell_unsent (cell : List Byte) (g : Gate) : Unsent g (huntCell cell g) := by
  unfold huntCell
  split
  · split
    · exact .of_zones rfl
    · exact .of_zones rfl
  · exact .of_zones rfl

/-- R5: while SEARCHING or LOST no step of the input or of the outputs sends a cell of the input. -/
theorem effect_unsent (cell : List Byte) (behind : BitVec 4) (unlocked : g.intake.sync ≠ .locked) {c : Instr}
    (step : c ∈ [Instr.inputCell (.arrives cell behind), .missingCell, .nominalSlot] ∨ ∃ z, c = .inputCell (.taken z)) :
    Unsent g (effect c g) := by
  have instr : c = .inputCell (.arrives cell behind) ∨ c = .missingCell ∨ c = .nominalSlot ∨
      ∃ z, c = .inputCell (.taken z) := by
    rcases step with listed | taken
    · simp only [List.mem_cons, List.not_mem_nil, or_false] at listed
      exact listed.elim .inl fun rest => .inr (rest.elim .inl fun last => .inr (.inl last))
    · exact .inr (.inr (.inr taken))
  obtain rfl | rfl | rfl | ⟨z, rfl⟩ := instr
  · show Unsent g (inputCell cell behind g)
    by_cases loading : g.loader.loading = true
    · rw [inputCell_loading loading]
      exact .refl g
    · rw [inputCell_hunts (by simpa using loading) unlocked]
      exact Unsent.trans (h := bump .cellsReceived g) (.of_zones rfl) (huntCell_unsent ..)
  · show Unsent g (missingCell g)
    rw [missingCell_unlocked unlocked]
    exact .refl g
  · show Unsent g (nominalSlot g)
    unfold nominalSlot
    split
    · refine List.foldlRecOn (motive := Unsent g) allZones _ (.refl g) fun acc unsent z _ => ?_
      split
      · exact unsent.trans (sendIdle_unsent z acc)
      · exact unsent
    · split
      · exact giveSlot_unsent unlocked
      · exact .refl g
  · show Unsent g (slotTaken z g)
    unfold slotTaken
    split
    · exact catchUp_unsent unlocked z
    · exact .refl g

end Unsent

end Sys2Proof.Machine

namespace Sys2Proof.Proofs

open Sys2Proof.Machine Sys2Proof.Safety Sys2Proof.Claims

set_option Elab.async false

/-- Settles O57: each sync state in turn; no step of an unlocked part sends a cell of the input (`effect_unsent`). -/
theorem inputCellsLockAndLose : Obligations.InputCellsLockAndLose := by
  intro s cell behind g lockGood received lost
  have input {h : Gate} (becomes : inputCell cell behind g = h) :
      exec (.inputCell (.arrives cell behind)) s = .next { s with gate := h } :=
    exec_of_effect (i := .inputCell (.arrives cell behind)) becomes
  have missing {h : Gate} (becomes : missingCell g = h) : exec .missingCell s = .next { s with gate := h } :=
    exec_of_effect (i := .missingCell) becomes
  have nominal {h : Gate} (becomes : nominalSlot g = h) : exec .nominalSlot s = .next { s with gate := h } :=
    exec_of_effect (i := .nominalSlot) becomes
  refine ⟨fun loading => ⟨input (inputCell_loading loading), missing (missingCell_loading loading), nominal (if_pos loading)⟩,
    fun loaded => ⟨fun timing => ?_, fun timing => ?_, fun unlocked => ?_, fun locked => ?_⟩, fun unlocked c step =>
      ⟨_, exec_eq_effect c s, (effect_unsent cell behind unlocked step).zone⟩⟩
  · exact nominal ((if_neg (by simp [g, loaded])).trans (if_pos timing))
  · exact nominal ((if_neg (by simp [g, loaded])).trans (if_neg (by simp [g, timing])))
  · have hunts := inputCell_hunts (cell := cell) (behind := behind) loaded unlocked
    exact ⟨missing (missingCell_unlocked unlocked), fun bad => input (hunts.trans (huntCell_bad bad)),
      fun run good next short => input (hunts.trans (huntCell_good good next short)),
      fun good long => input (hunts.trans (huntCell_locks good long))⟩
  · have stays := inputCell_locked (cell := cell) (behind := behind) loaded locked
    have misses := missingCell_locked loaded locked
    refine ⟨fun run next short => ⟨?_, fun bad => ?_⟩, fun long => ⟨?_, fun bad => ?_⟩, fun synced bad =>
      input (stays.trans (lockedCell_badHeader synced bad))⟩
    · refine missing (misses.trans ((badSync_runs (run := run) ?_ short).trans ?_))
      · rw [giveSlot_intake]
        exact next
      · rw [giveSlot_intake]
        rfl
    · refine input (stays.trans ((lockedCell_badSync bad).trans ((badSync_runs (run := run) ?_ short).trans ?_)))
      · rw [giveSlot_intake]
        exact next
      · rw [giveSlot_intake]
        rfl
    · refine missing (misses.trans ((badSync_loses ?_).trans ?_))
      · rw [giveSlot_intake]
        exact long
      · rw [giveSlot_intake]
        rfl
    · refine input (stays.trans ((lockedCell_badSync bad).trans ((badSync_loses ?_).trans ?_)))
      · rw [giveSlot_intake]
        exact long
      · rw [giveSlot_intake]
        rfl

end Sys2Proof.Proofs

/-! PROOF. The dispatch of a good cell by its lane (R9–R12, Table 8), the slot as it comes to each zone (R149–R153), and the
statement InputCellsAreDispatchedByLane. -/

namespace Sys2Proof.Machine

open Sys2Proof.Safety Sys2Proof.Claims

set_option Elab.async false

/-! ## A zone's slot reads that zone alone (R149) -/

section Alike

variable {z : ZoneIndex} {g h : Gate}

/-- Two parts that differ in other zones than z alone. -/
structure Alike (z : ZoneIndex) (g h : Gate) : Prop where
  gate : h = { g with zones := h.zones }
  zone : h.zone z = g.zone z

theorem Alike.event (alike : Alike z g h) (e : EventIndex) : h.event e = g.event e := by
  rw [alike.gate]
  rfl

theorem Alike.settings (alike : Alike z g h) : h.settings = g.settings := by
  rw [alike.gate]

theorem Alike.intake (alike : Alike z g h) : h.intake = g.intake := by
  rw [alike.gate]

theorem Alike.freeDraws (alike : Alike z g h) : h.freeDraws = g.freeDraws := by
  rw [alike.gate]

theorem Alike.modZone {f f' : Zone → Zone} (alike : Alike z g h) (same : f' (g.zone z) = f (g.zone z)) :
    Alike z (modZone z f g) (modZone z f' h) where
  gate := by
    obtain ⟨zones, rfl⟩ : ∃ zones, h = { g with zones := zones } := ⟨_, alike.gate⟩
    rfl
  zone := by
    rw [modZone_zone, modZone_zone, if_pos rfl, if_pos rfl, alike.zone, same]

theorem Alike.sendNotice (alike : Alike z g h) (body : List Byte) :
    Alike z (Machine.sendNotice z body g) (Machine.sendNotice z body h) :=
  alike.modZone rfl

theorem Alike.sendZone (alike : Alike z g h) (cell : List Byte) :
    Alike z (Machine.sendZone z cell g) (Machine.sendZone z cell h) :=
  alike.modZone rfl

theorem Alike.sendFresh (alike : Alike z g h) (head : FreshEntry) (rest : List FreshEntry) :
    Alike z (Machine.sendFresh z head rest g) (Machine.sendFresh z head rest h) := by
  unfold Machine.sendFresh
  split
  · unfold sendListed
    rw [alike.zone, alike.event]
    exact (alike.modZone rfl).sendNotice _
  · unfold sendOpen
    rw [alike.event]
    exact (alike.modZone rfl).sendNotice _

theorem Alike.sendSweep (alike : Alike z g h) (head : Notice) (rest : List Notice) :
    Alike z (Machine.sendSweep z head rest g) (Machine.sendSweep z head rest h) :=
  (alike.modZone rfl).sendNotice _

theorem Alike.arbitrate (alike : Alike z g h) : Alike z (Machine.arbitrate z g) (Machine.arbitrate z h) := by
  unfold Machine.arbitrate
  rw [alike.zone]
  split
  · exact alike.sendSweep ..
  · split
    · exact alike.sendSweep ..
    · exact alike.sendFresh ..
  · exact alike.sendFresh ..
  · exact alike

theorem Alike.countWindow (alike : Alike z g h) : Alike z (Machine.countWindow z g) (Machine.countWindow z h) := by
  unfold Machine.countWindow
  rw [alike.zone, alike.freeDraws]
  split
  · refine Alike.modZone ⟨?_, alike.zone⟩ rfl
    obtain ⟨zones, rfl⟩ : ∃ zones, h = { g with zones := zones } := ⟨_, alike.gate⟩
    rfl
  · exact alike.modZone rfl

theorem Alike.sendIdle (alike : Alike z g h) : Alike z (Machine.sendIdle z g) (Machine.sendIdle z h) :=
  (alike.modZone rfl).sendZone _

theorem Alike.idleOpportunity (alike : Alike z g h) : Alike z (Machine.idleOpportunity z g) (Machine.idleOpportunity z h) := by
  have credit {a b : Gate} (alike : Alike z a b) : Alike z (creditStep z a) (creditStep z b) := by
    unfold creditStep
    rw [alike.zone]
    dsimp only
    split
    · exact alike.arbitrate.modZone rfl
    · exact (alike.modZone rfl).sendIdle
  unfold Machine.idleOpportunity
  rw [alike.zone]
  split
  · exact credit alike.countWindow
  · exact (alike.modZone rfl).sendZone _

theorem Alike.passCell (alike : Alike z g h) (cell : List Byte) : Alike z (Machine.passCell z cell g) (Machine.passCell z cell h) :=
  (alike.modZone rfl).sendZone _

theorem Alike.blankCell (alike : Alike z g h) : Alike z (Machine.blankCell z g) (Machine.blankCell z h) :=
  (alike.modZone rfl).idleOpportunity

theorem Alike.takeSlot (alike : Alike z g h) (slot : Slot) : Alike z (Machine.takeSlot slot z g) (Machine.takeSlot slot z h) := by
  have passes (p : Phase) : h.passes p = g.passes p := by
    unfold Gate.passes
    rw [alike.settings]
  cases slot with
  | idle => exact alike.idleOpportunity
  | free cell => exact alike.passCell cell
  | content e cell =>
    show Alike z (contentSlot e cell z g) (contentSlot e cell z h)
    unfold contentSlot
    rw [alike.zone, alike.event, passes]
    split
    · exact alike.blankCell
    · split
      · exact alike.blankCell
      · split
        · exact alike.blankCell
        · split
          · exact (alike.modZone rfl).blankCell
          · exact alike.passCell cell
  | alternate e cell =>
    show Alike z (alternateSlot e cell z g) (alternateSlot e cell z h)
    unfold alternateSlot substitute
    rw [alike.zone, alike.event, passes]
    split
    · exact alike.modZone rfl
    · exact alike.blankCell

theorem Alike.catchUp (alike : Alike z g h) : Alike z (Machine.catchUp z g) (Machine.catchUp z h) := by
  unfold Machine.catchUp
  rw [alike.zone]
  split
  · next slot _ =>
    rw [show h.heldSlot slot = g.heldSlot slot by unfold Gate.heldSlot; rw [alike.intake]]
    exact (alike.modZone rfl).takeSlot _
  · exact alike

theorem Alike.reachZone (alike : Alike z g h) (slot : Slot) (behind : BitVec 4) :
    Alike z (Machine.reachZone slot behind z g) (Machine.reachZone slot behind z h) := by
  unfold Machine.reachZone
  split
  · exact alike.catchUp.modZone rfl
  · exact alike.catchUp.takeSlot slot

end Alike

/-! ## A slot given to every zone -/

section Give

variable {slot : Slot} {behind : BitVec 4} {z : ZoneIndex} {g : Gate}

/-- What the turns of other zones leave for zone z. -/
structure TurnsApart (z : ZoneIndex) (g h : Gate) : Prop where
  gate : h = { g with zones := h.zones, freeDraws := h.freeDraws }
  zone : h.zone z = g.zone z

theorem TurnsApart.trans {h k : Gate} (first : TurnsApart z g h) (second : TurnsApart z h k) : TurnsApart z g k :=
  ⟨by rw [second.gate, first.gate], second.zone.trans first.zone⟩

/-- R149: zone z's turn in a slot given to every driven zone. -/
def zoneTurn (slot : Slot) (behind : BitVec 4) (z : ZoneIndex) (g : Gate) : Gate :=
  if g.driven z then reachZone slot behind z g else g

theorem giveSlot_eq : giveSlot slot behind g = allZones.foldl (fun acc z => zoneTurn slot behind z acc) g := rfl

theorem zoneTurn_apart {other : ZoneIndex} (apart : other ≠ z) (acc : Gate) :
    TurnsApart z acc (zoneTurn slot behind other acc) := by
  unfold zoneTurn
  split
  · have step := reachZone_step slot behind other acc
    exact ⟨step.gate, step.others z (Ne.symm apart)⟩
  · exact ⟨rfl, rfl⟩

theorem foldl_zoneTurn_apart {zones : List ZoneIndex} (apart : z ∉ zones) (g : Gate) :
    TurnsApart z g (zones.foldl (fun acc other => zoneTurn slot behind other acc) g) :=
  List.foldlRecOn (motive := TurnsApart z g) zones _ ⟨rfl, rfl⟩ fun acc reached other listed =>
    reached.trans (zoneTurn_apart (by rintro rfl; exact apart listed) acc)

/-- R149: a zone takes its slot as it would alone, but for the count of free values. -/
theorem giveSlot_zone (driven : g.driven z = true) :
    ∃ draws, (giveSlot slot behind g).zone z = (reachZone slot behind z { g with freeDraws := draws }).zone z := by
  obtain ⟨before, after, all⟩ := List.append_of_mem (mem_allZones z)
  have once : (before ++ z :: after).Nodup := all ▸ List.nodup_finRange 4
  obtain ⟨-, tail, apart⟩ := List.nodup_append.mp once
  have first := foldl_zoneTurn_apart (slot := slot) (behind := behind) (g := g)
    fun listed => apart z listed z (.head _) rfl
  obtain ⟨m, same⟩ : ∃ m, before.foldl (fun acc other => zoneTurn slot behind other acc) g = m := ⟨_, rfl⟩
  rw [same] at first
  have last := foldl_zoneTurn_apart (slot := slot) (behind := behind) (g := zoneTurn slot behind z m)
    (List.nodup_cons.mp tail).1
  have turn : zoneTurn slot behind z m = reachZone slot behind z m := by
    refine if_pos ?_
    rw [first.gate]
    exact driven
  have alike : Alike z { g with freeDraws := m.freeDraws } m := ⟨first.gate, first.zone⟩
  refine ⟨m.freeDraws, ?_⟩
  rw [giveSlot_eq, all, List.foldl_append, List.foldl_cons, same, last.zone, turn, (alike.reachZone slot behind).zone]

end Give

/-! ## Lane actions (R150–R152) -/

section Actions

variable {z : ZoneIndex} {g : Gate} {e : EventIndex} {cell : List Byte}

theorem modZone_modZone (z : ZoneIndex) (f f' : Zone → Zone) (g : Gate) :
    modZone z f' (modZone z f g) = modZone z (fun zone => f' (f zone)) g := by
  simp [modZone, Gate.setZone, Gate.zone]

theorem passCell_eq (z : ZoneIndex) (cell : List Byte) (g : Gate) : passCell z cell g = passed z cell g := by
  rw [passCell, sendZone, modZone_modZone]
  rfl

theorem passes_iff {p : Phase} : g.passes p = true ↔ PassAction g.settings.profile p := by
  cases p <;> simp [Gate.passes, ProfileTable.row, PassAction]

theorem masks_iff : (g.event e).masks z = true ↔ (g.event e).mask.getLsbD z.val = true := Iff.rfl

theorem leaks_iff : (g.event e).phase.mode = .listedGrant ∧ scrambled cell = false ↔ Leaks g e cell :=
  and_congr_left' (Phase.mode_eq_listedGrant_iff _)

theorem contentSlot_closed (closed : ¬ Open g e z) : contentSlot e cell z g = blanked z g := by
  by_cases dark : (g.zone z).dark = true
  · exact if_pos dark
  · refine (if_neg dark).trans ?_
    by_cases passing : g.passes (g.event e).phase = true
    · refine (if_neg (by simp [passing])).trans (if_pos ?_)
      by_contra masked
      exact closed ⟨by simpa using dark, passes_iff.mp passing, by simpa [Event.masks] using masked⟩
    · exact if_pos (by simpa using passing)

theorem contentSlot_open (opens : Open g e z) : contentSlot e cell z g
    = if (g.event e).phase.mode = .listedGrant ∧ scrambled cell = false then
        blankCell z (modZone z (Zone.countBy .clearLeakBlanks 1) g)
      else passCell z cell g := by
  obtain ⟨light, passing, clear⟩ := opens
  refine (if_neg (by simp [light])).trans ((if_neg (by simp [passes_iff.mpr passing])).trans (if_neg ?_))
  rw [masks_iff, clear]
  exact Bool.false_ne_true

theorem contentSlot_passed (opens : Open g e z) (sealed : ¬ Leaks g e cell) : contentSlot e cell z g = passed z cell g :=
  (contentSlot_open opens).trans ((if_neg (mt leaks_iff.mp sealed)).trans (passCell_eq ..))

theorem contentSlot_leaks (opens : Open g e z) (leaks : Leaks g e cell) :
    contentSlot e cell z g = blanked z (modZone z (Zone.countBy .clearLeakBlanks 1) g) :=
  (contentSlot_open opens).trans (if_pos (leaks_iff.mpr leaks))

theorem substituted_iff : ((g.zone z).dark = false ∧ g.passes (g.event e).phase = true ∧ (g.event e).masks z = true)
    ↔ Substituted g e z :=
  and_congr_right' (and_congr_left' passes_iff)

end Actions

/-! ## Catching up (R5, R153) -/

section CatchUp

variable {z : ZoneIndex} {g : Gate} {held : Slot}

theorem catchUp_none (empty : (g.zone z).slot = none) : catchUp z g = g := by
  unfold catchUp
  rw [empty]

theorem catchUp_locked (there : (g.zone z).slot = some held) (locked : g.intake.sync = .locked) :
    catchUp z g = takeSlot held z (modZone z (fun zone => { zone with slot := none }) g) := by
  unfold catchUp
  rw [there]
  dsimp only
  rw [show g.heldSlot held = held from if_pos locked]

theorem catchUp_unlocked (there : (g.zone z).slot = some held) (unlocked : g.intake.sync ≠ .locked) :
    catchUp z g = idleOpportunity z (modZone z (fun zone => { zone with slot := none }) g) := by
  unfold catchUp
  rw [there]
  dsimp only
  rw [show g.heldSlot held = .idle from if_neg unlocked]
  rfl

end CatchUp

/-! ## Look-up and dispatch (R9–R12) -/

section Dispatch

variable {g : Gate} {cell : List Byte} {behind : BitVec 4} {kind : ControlKind}

theorem bodyGood_iff : bodyGood cell = true ↔ BodyGood cell := decide_eq_true_iff

theorem checkContinuity_eq (kind : ControlKind) (cell : List Byte) (g : Gate) :
    checkContinuity kind cell g = afterContinuity kind cell g := by
  unfold checkContinuity afterContinuity isGap continuityOf
  cases g.intake.reference kind with
  | none => rfl
  | some value =>
    dsimp only
    split
    · rfl
    · rfl

theorem controlSlot_good (good : BodyGood cell) : controlSlot kind cell behind g
    = giveSlot .idle behind { afterContinuity kind cell g with
        intake := { (afterContinuity kind cell g).intake with handoff := some (kind.handoff cell) } } := by
  unfold controlSlot
  rw [checkContinuity_eq]
  exact congrArg _ (if_pos (bodyGood_iff.mpr good))

theorem controlSlot_bad (bad : ¬ BodyGood cell) : controlSlot kind cell behind g
    = giveSlot .idle behind (bump kind.bodyCounter (afterContinuity kind cell g)) := by
  unfold controlSlot
  rw [checkContinuity_eq]
  exact congrArg _ (if_neg (mt bodyGood_iff.mp bad))

theorem dispatchCell_reserved (high : 4080 ≤ (laneNumber cell).toNat) :
    dispatchCell cell behind g = reservedSlot cell behind g := by
  have kind : g.laneKind (laneOf cell) = .reserved := if_pos high
  unfold dispatchCell
  rw [kind]

theorem dispatchCell_control (lane : laneNumber cell = 4092 ∧ kind = .time ∨ laneNumber cell = 4093 ∧ kind = .cue ∨
      laneNumber cell = 4094 ∧ kind = .management ∨ ∃ e, g.laneKind (laneNumber cell) = .key e ∧ kind = .key e) :
    dispatchCell cell behind g = controlSlot kind cell behind g := by
  rcases lane with ⟨time, rfl⟩ | ⟨cue, rfl⟩ | ⟨management, rfl⟩ | ⟨e, key, rfl⟩
  · rw [dispatchCell_reserved (by rw [time]; decide)]
    exact if_pos time
  · rw [dispatchCell_reserved (by rw [cue]; decide)]
    have lane : laneOf cell = 4093 := cue
    unfold reservedSlot
    rw [lane, if_neg (by decide), if_pos rfl]
  · rw [dispatchCell_reserved (by rw [management]; decide)]
    have lane : laneOf cell = 4094 := management
    unfold reservedSlot
    rw [lane, if_neg (by decide), if_neg (by decide), if_pos rfl]
  · have lane : g.laneKind (laneOf cell) = .key e := key
    unfold dispatchCell
    rw [lane]

theorem dispatchCell_idle (idle : laneNumber cell = 4095) : dispatchCell cell behind g = giveSlot .idle behind g := by
  rw [dispatchCell_reserved (by rw [idle]; decide)]
  have lane : laneOf cell = 4095 := idle
  unfold reservedSlot
  rw [lane, if_neg (by decide), if_neg (by decide), if_neg (by decide), if_pos rfl]

theorem dispatchCell_spare (low : 4080 ≤ (laneNumber cell).toNat) (high : (laneNumber cell).toNat ≤ 4091) :
    dispatchCell cell behind g = giveSlot .idle behind (bump .reservedLaneCells g) := by
  rw [dispatchCell_reserved low]
  have apart (lane : Lane) (above : 4091 < lane.toNat) : laneOf cell ≠ lane := fun same => by
    rw [← same] at above
    exact absurd high (Nat.not_le.mpr above)
  exact (if_neg (apart 4092 (by decide))).trans ((if_neg (apart 4093 (by decide))).trans
    ((if_neg (apart 4094 (by decide))).trans (if_neg (apart 4095 (by decide)))))

/-- R1: a good cell is received: it is counted, and the bad-sync run ends. -/
def receivedGate (g : Gate) : Gate :=
  { bump .cellsReceived g with intake := { g.intake with badRun := 0 } }

theorem deliverWaiting_none (empty : g.intake.handoff = none) : deliverWaiting g = g := by
  unfold deliverWaiting
  rw [empty]

theorem deliverWaiting_some {h : Handoff} (waits : g.intake.handoff = some h) : deliverWaiting g = effect (takenBy h) g := by
  unfold deliverWaiting
  rw [waits]
  cases h <;> rfl

/-- R10: a cell that waits for its unit is taken by it. -/
theorem deliverWaiting_of_lookedUp {s r : State} (looked : LookedUp s r) : deliverWaiting (receivedGate s.gate) = r.gate := by
  rcases looked with ⟨empty, rfl⟩ | ⟨h, waits, taken⟩
  · exact deliverWaiting_none empty
  · rw [deliverWaiting_some (g := receivedGate s.gate) waits]
    rw [exec_eq_effect] at taken
    cases taken
    rfl

theorem inputCell_of_lookedUp {s r : State} (loaded : s.gate.loader.loading = false) (locked : s.gate.intake.sync = .locked)
    (good : HeaderGood cell) (looked : LookedUp s r) : inputCell cell behind s.gate
      = dispatchCell cell behind { r.gate with intake := { r.gate.intake with nominalTiming := false } } := by
  have received : lockedCell cell behind (bump .cellsReceived s.gate) = deliverCell cell behind (receivedGate s.gate) :=
    (if_neg (not_not_intro good.1)).trans (if_pos (headerGood_iff.mpr good.2))
  rw [inputCell_locked loaded locked, received, deliverCell, deliverWaiting_of_lookedUp looked]

end Dispatch

end Sys2Proof.Machine

namespace Sys2Proof.Proofs

open Sys2Proof.Machine Sys2Proof.Safety Sys2Proof.Claims

set_option Elab.async false

/-- Settles O58: the lane decides the slot (`dispatchCell`), and each zone takes it in its own turn (`giveSlot_zone`). -/
theorem inputCellsAreDispatchedByLane : Obligations.InputCellsAreDispatchedByLane := by
  refine ⟨fun s r cell behind loaded locked good looked => ?lanes, fun slot behind g => ?give,
    fun slot behind z g => ?reach, fun s z held driven there => ?taken, fun z g cell =>
      ⟨rfl, passCell_eq z cell g, fun e => ⟨contentSlot_passed, contentSlot_leaks, contentSlot_closed, fun sent => ?_,
        fun unsent => if_neg (mt substituted_iff.mp unsent)⟩⟩⟩
  case lanes =>
    intro lane ready given
    have gives {slot : Slot} {g : Gate} (dispatched : dispatchCell cell behind ready = giveSlot slot behind g) : given slot g :=
      exec_of_effect (i := .inputCell (.arrives cell behind))
        ((inputCell_of_lookedUp loaded locked good looked).trans dispatched)
    refine ⟨fun kind control => ⟨fun body => gives ((dispatchCell_control control).trans (controlSlot_good body)),
      fun body => gives ((dispatchCell_control control).trans (controlSlot_bad body))⟩,
      fun idle => gives (dispatchCell_idle idle), fun low high => gives (dispatchCell_spare low high),
      fun free => gives ?_, fun e content => gives ?_, fun e alternate => gives ?_⟩
    · have kind : ready.laneKind (laneOf cell) = .free := free
      unfold dispatchCell
      rw [kind]
    · have kind : ready.laneKind (laneOf cell) = .content e := content
      unfold dispatchCell
      rw [kind]
    · have kind : ready.laneKind (laneOf cell) = .alternate e := alternate
      unfold dispatchCell
      rw [kind]
  case give =>
    obtain ⟨frame, undriven⟩ := giveSlot_frame slot behind g
    exact ⟨frame, fun z => ⟨undriven z, giveSlot_zone⟩⟩
  case reach =>
    refine ⟨catchUp_none, fun held there => ⟨catchUp_locked there, catchUp_unlocked there⟩, fun onTime => ?_,
      fun late => if_pos late⟩
    exact if_neg (by rw [onTime]; exact Bool.false_ne_true)
  case taken =>
    have caught : effect (.inputCell (.taken z)) s.gate = catchUp z s.gate := if_pos driven
    exact ⟨fun locked => exec_of_effect (i := .inputCell (.taken z)) (caught.trans (catchUp_locked there locked)),
      fun unlocked => exec_of_effect (i := .inputCell (.taken z)) (caught.trans (catchUp_unlocked there unlocked))⟩
  · exact (if_pos (substituted_iff.mpr sent)).trans rfl

end Sys2Proof.Proofs

/-! PROOF. The idle opportunity and the arbiter (R144–R146, R155–R158): the credit step, the notices as they are packed and
sent, and the statement IdleOpportunityAndArbiter. -/

namespace Sys2Proof.Machine

open Sys2Proof.Safety Sys2Proof.Claims

set_option Elab.async false

/-! ## Packing a listed notice (R145) -/

theorem packEntries_eq (p : FreshEntry → Bool) (n : Nat) (queue : List FreshEntry) :
    (packEntries p n queue).1 = ((queue.filter p).take n).map FreshEntry.decoder ∧
      (packEntries p n queue).2.filter p = (queue.filter p).drop n ∧
      (packEntries p n queue).2.filter (fun entry => !p entry) = queue.filter (fun entry => !p entry) := by
  induction queue generalizing n with
  | nil => cases n <;> exact ⟨rfl, rfl, rfl⟩
  | cons entry rest ih =>
    cases n with
    | zero => exact ⟨rfl, rfl, rfl⟩
    | succ n =>
      cases packs : p entry with
      | true =>
        obtain ⟨taken, left, others⟩ := ih n
        simp [packEntries, packs, taken, left, others]
      | false =>
        obtain ⟨taken, left, others⟩ := ih (n + 1)
        simp [packEntries, packs, taken, left, others]

/-- R145: the entries that go into one listed notice with an entry. -/
abbrev alikeEntry (head entry : FreshEntry) : Bool :=
  decide (entry.form = .listed ∧ entry.event = head.event ∧ entry.sheet = head.sheet)

theorem packs_eq_alike (head : FreshEntry) :
    (fun entry : FreshEntry => entry.packs head.event head.sheet) = alikeEntry head := by
  funext entry
  simp [FreshEntry.packs, alikeEntry, Bool.and_assoc]

section Zone

variable {z : ZoneIndex} {g : Gate} {head : FreshEntry} {cell : Notice}

/-! ## The notices sent (R145, R146, R158) -/

theorem sendSweep_zone (cell : Notice) (rest : List Notice) : (sendSweep z cell rest g).zone z
    = Zone.countBy .sweepNoticesSent 1 { g.zone z with
      sweep := rest
      noticeCount := (g.zone z).noticeCount + 1
      port := some (controlCell 4091 (g.zone z).noticeCount (listedBody z cell)) } := by
  rw [sendSweep, sendNotice, modZone_zone_same, modZone_zone_same]
  rfl

theorem sendOpen_zone (head : FreshEntry) (rest : List FreshEntry) : (sendOpen z head rest g).zone z
    = Zone.countBy .openNoticesSent 1 { g.zone z with
      fresh := rest
      noticeCount := (g.zone z).noticeCount + 1
      port := some (controlCell 4091 (g.zone z).noticeCount (openBody z (g.event head.event).number head.sheet
        ((g.event head.event).materialOf head.sheet).1 ((g.event head.event).materialOf head.sheet).2)) } := by
  rw [sendOpen, sendNotice, modZone_zone_same, modZone_zone_same]
  rfl

/-- R145: the listed notice that an entry at the head of a queue gives. -/
def listedNotice (ev : Event) (head : FreshEntry) (taken : List FreshEntry) : Notice where
  event := head.event
  eventNumber := ev.number
  sheet := head.sheet
  effective := (ev.materialOf head.sheet).1
  blob := (ev.materialOf head.sheet).2
  entries := taken.map FreshEntry.decoder

theorem sendListed_zone (head : FreshEntry) : ∃ queue,
    queue.filter (alikeEntry head) = ((g.zone z).fresh.filter (alikeEntry head)).drop 48 ∧
    queue.filter (fun entry => !alikeEntry head entry) = (g.zone z).fresh.filter (fun entry => !alikeEntry head entry) ∧
    (sendListed z head g).zone z
      = Zone.countBy .freshGrantsSent (((g.zone z).fresh.filter (alikeEntry head)).take 48).length
        (Zone.countBy .listedNoticesSent 1 { g.zone z with
          fresh := queue
          noticeCount := (g.zone z).noticeCount + 1
          port := some (controlCell 4091 (g.zone z).noticeCount (listedBody z
            (listedNotice (g.event head.event) head (((g.zone z).fresh.filter (alikeEntry head)).take 48)))) }) := by
  obtain ⟨taken, left, others⟩ := packEntries_eq (alikeEntry head) 48 (g.zone z).fresh
  refine ⟨_, left, others, ?_⟩
  rw [sendListed, packs_eq_alike, sendNotice, modZone_zone_same, modZone_zone_same]
  dsimp only [Config.noticeEntries]
  rw [taken, List.length_map]
  rfl

/-! ## The arbiter (R157) -/

theorem arbitrate_sweep {rest : List Notice} (held : (g.zone z).sweep = cell :: rest)
    (turn : (g.zone z).turn.val = 7 ∨ (g.zone z).fresh = []) : arbitrate z g = sendSweep z cell rest g := by
  unfold arbitrate
  cases fresh : (g.zone z).fresh with
  | nil => rw [held]
  | cons entry others =>
    have seven : (g.zone z).turn = 7 := Fin.ext (turn.resolve_right (by simp [fresh]))
    rw [held]
    exact if_pos seven

theorem arbitrate_fresh {rest : List FreshEntry} (held : (g.zone z).fresh = head :: rest)
    (turn : ¬ ((g.zone z).sweep ≠ [] ∧ ((g.zone z).turn.val = 7 ∨ (g.zone z).fresh = []))) :
    arbitrate z g = sendFresh z head rest g := by
  unfold arbitrate
  cases sweep : (g.zone z).sweep with
  | nil => rw [held]
  | cons notice others =>
    have early : ¬ (g.zone z).turn = 7 := fun seven => turn ⟨by simp [sweep], .inl (by rw [seven]; rfl)⟩
    rw [held]
    exact if_neg early

/-! ## The credit step (R156) -/

theorem ready_iff {zone : Zone} : zone.ready = true ↔ zone.fresh ≠ [] ∨ zone.sweep ≠ [] := by
  simp [Zone.ready]

theorem creditStep_idle (idle : ¬ (256 ≤ (g.zone z).raisedCredit ∧ ((g.zone z).fresh ≠ [] ∨ (g.zone z).sweep ≠ []))) :
    (creditStep z g).zone z = Zone.countBy .idleCellsSent 1 { g.zone z with
      credit := Fin.ofNat 1024 (g.zone z).raisedCredit
      port := some idleCell } := by
  have sent : creditStep z g
      = sendIdle z (modZone z (fun zone => { zone with credit := Fin.ofNat 1024 (g.zone z).raisedCredit }) g) :=
    if_neg fun both => idle ⟨both.1, ready_iff.mp both.2⟩
  rw [sent, sendIdle, sendZone, modZone_zone_same, modZone_zone_same, modZone_zone_same]
  rfl

theorem creditStep_converts (converts : 256 ≤ (g.zone z).raisedCredit ∧ ((g.zone z).fresh ≠ [] ∨ (g.zone z).sweep ≠ [])) :
    (creditStep z g).zone z = { (arbitrate z g).zone z with
      credit := Fin.ofNat 1024 ((g.zone z).raisedCredit - 256)
      turn := Fin.ofNat 8 (((arbitrate z g).zone z).turn.val + 1) } := by
  have sent : creditStep z g = modZone z (fun zone => { zone with
      credit := Fin.ofNat 1024 ((g.zone z).raisedCredit - 256)
      turn := Fin.ofNat 8 (zone.turn.val + 1) }) (arbitrate z g) :=
    if_pos ⟨converts.1, ready_iff.mpr converts.2⟩
  rw [sent, modZone_zone_same]

/-- R157: the arbiter leaves the turn count and the window count. -/
theorem arbitrate_counts (z : ZoneIndex) (g : Gate) : ((arbitrate z g).zone z).turn = (g.zone z).turn ∧
    ((arbitrate z g).zone z).windowCount = (g.zone z).windowCount := by
  have fresh (head : FreshEntry) (rest : List FreshEntry) : ((sendFresh z head rest g).zone z).turn = (g.zone z).turn ∧
      ((sendFresh z head rest g).zone z).windowCount = (g.zone z).windowCount := by
    unfold sendFresh
    split
    · obtain ⟨queue, -, -, same⟩ := sendListed_zone (z := z) (g := g) head
      rw [same]
      exact ⟨rfl, rfl⟩
    · rw [sendOpen_zone]
      exact ⟨rfl, rfl⟩
  unfold arbitrate
  split
  · rw [sendSweep_zone]
    exact ⟨rfl, rfl⟩
  · split
    · rw [sendSweep_zone]
      exact ⟨rfl, rfl⟩
    · exact fresh ..
  · exact fresh ..
  · exact ⟨rfl, rfl⟩

/-! ## The idle opportunity (R155, R156) -/

theorem idleOpportunity_held (held : (g.zone z).hold ≠ 0) : (idleOpportunity z g).zone z
    = Zone.countBy .heldOpportunities 1 { g.zone z with hold := (g.zone z).hold - 1, port := some idleCell } := by
  have lowered : idleOpportunity z g = heldOpportunity z g := if_neg held
  rw [lowered, heldOpportunity, sendZone, modZone_zone_same, modZone_zone_same]
  rfl

/-- R161: the window count takes the opportunity; the events stay. -/
theorem countWindow_zone (z : ZoneIndex) (g : Gate) : ∃ count,
    (countWindow z g).zone z = { g.zone z with windowCount := count } ∧
    ((g.zone z).windowCount ≠ BitVec.allOnes 32 → count = (g.zone z).windowCount + 1) ∧
    ∀ e, (countWindow z g).event e = g.event e := by
  have events (e : EventIndex) : (countWindow z g).event e = g.event e := by
    rw [(countWindow_step z g).gate]
    rfl
  by_cases full : (g.zone z).windowCount = BitVec.allOnes 32
  · refine ⟨Config.windowBeyond g.freeDraws, ?_, fun room => absurd full room, events⟩
    rw [show countWindow z g = _ from if_pos full, modZone_zone_same]
    rfl
  · refine ⟨(g.zone z).windowCount + 1, ?_, fun _ => rfl, events⟩
    rw [show countWindow z g = _ from if_neg full, modZone_zone_same]

/-- The credit and the turn count of a zone are apart from its counters. -/
theorem countBy_twice_withTurn (j k : ZoneCounter) (m n : Nat) (zone : Zone) (credit : Fin 1024) (turn : Fin 8) :
    { Zone.countBy j m (Zone.countBy k n zone) with credit := credit, turn := turn }
      = Zone.countBy j m (Zone.countBy k n { zone with credit := credit, turn := turn }) := rfl

theorem restartNow_turn (cause : Byte) (g : Gate) (z : ZoneIndex) : ((restartNow cause g).zone z).turn = 0 :=
  (restartNow_zoneKept cause g z).turn

end Zone

end Sys2Proof.Machine

namespace Sys2Proof.Proofs

open Sys2Proof.Machine Sys2Proof.Safety Sys2Proof.Claims

set_option Elab.async false

/-- Settles O60: held or not, with a conversion or without one, and with either queue drawn from. -/
theorem idleOpportunityAndArbiter : Obligations.IdleOpportunityAndArbiter := by
  refine ⟨fun z g => ?opportunity, fun z notice number sheet effective blob => ⟨rfl, rfl⟩, fun s t unit zones fitted z run => ?_,
    fun s t z loaded run => ?_, fun s t z restarting sent run => ?_⟩
  case opportunity =>
    intro zone h credit converts fromSweep
    obtain ⟨frame, others⟩ := idleOpportunity_step z g
    refine ⟨frame, others, idleOpportunity_held, fun unheld => ?_⟩
    obtain ⟨count, window, more, events⟩ := countWindow_zone z g
    have step : h = creditStep z (countWindow z g) := if_pos unheld
    obtain ⟨w, same⟩ : ∃ w, countWindow z g = w := ⟨_, rfl⟩
    rw [same] at window events step
    rw [step]
    have raised : (w.zone z).raisedCredit = credit := by rw [window]; rfl
    have bound : credit ≤ 1023 := Nat.min_le_right ..
    have fresh : (w.zone z).fresh = zone.fresh := by rw [window]
    have sweep : (w.zone z).sweep = zone.sweep := by rw [window]
    have turn : (w.zone z).turn = zone.turn := by rw [window]
    by_cases converting : converts
    · have after := creditStep_converts (z := z) (g := w) (by rw [raised, fresh, sweep]; exact converting)
      obtain ⟨turned, counted⟩ := arbitrate_counts z w
      rw [raised, turned, turn] at after
      rw [if_pos converting, if_pos converting]
      refine ⟨by rw [after]; rfl, ?credit, fun room => ?count, fun all => absurd converting all, fun _ drawn => ?sweep,
        fun _ drawn => ?fresh⟩
      case credit =>
        rw [after]
        exact Nat.mod_eq_of_lt (by omega)
      case count =>
        rw [after]
        exact (counted.trans (by rw [window])).trans (more room)
      case sweep =>
        obtain ⟨some_, first⟩ := drawn
        obtain ⟨head, rest, held⟩ := List.exists_cons_of_ne_nil some_
        rw [arbitrate_sweep (sweep.trans held) (by rw [turn, fresh]; exact first), sendSweep_zone, window] at after
        refine ⟨head, rest, held, ?_⟩
        rw [after]
        rfl
      case fresh =>
        have some_ : zone.fresh ≠ [] := fun empty => drawn ⟨converting.2.resolve_left (not_not_intro empty), .inr empty⟩
        obtain ⟨head, rest, held⟩ := List.exists_cons_of_ne_nil some_
        rw [arbitrate_fresh (fresh.trans held) (by rw [turn, fresh, sweep]; exact drawn)] at after
        refine ⟨head, rest, _, _, held, materialOf_held .., fun opens => ?_, fun listed => ?_⟩
        · rw [sendFresh, opens] at after
          dsimp only at after
          rw [sendOpen_zone, window, events] at after
          rw [after]
          exact ⟨rfl, rfl⟩
        · intro alike taken
          rw [sendFresh, listed] at after
          dsimp only at after
          obtain ⟨queue, left, kept, sent⟩ := sendListed_zone (z := z) (g := w) head
          rw [fresh] at left kept sent
          obtain ⟨packed, named⟩ : ∃ packed, taken = packed := ⟨_, rfl⟩
          rw [show (zone.fresh.filter (alikeEntry head)).take 48 = packed from named] at sent
          rw [sent, window, events] at after
          rw [after, named]
          refine ⟨left, kept, (countBy_twice_withTurn ..).trans ?_⟩
          refine congrArg (Zone.countBy .freshGrantsSent packed.length) (congrArg (Zone.countBy .listedNoticesSent 1) ?_)
          rfl
    · have after := creditStep_idle (z := z) (g := w) (by rw [raised, fresh, sweep]; exact converting)
      rw [raised, window] at after
      rw [after, if_neg converting, if_neg converting]
      refine ⟨rfl, Nat.mod_eq_of_lt (by omega), more, fun _ => rfl, fun all => absurd all converting,
        fun all => absurd all converting⟩
  · cases run
    exact congrArg Zone.turn (powerOn_zone unit zones fitted s.gate z)
  · have restarted : effect .restartLine s.gate = restartNow 0x02 s.gate := restartLine_of_loaded loaded
    rw [exec_next_iff.mp run, restarted, restartNow_turn]
  · have restarted : effect .restartStep s.gate = restartNow 0x01 s.gate := restartStep_of_due restarting sent
    rw [exec_next_iff.mp run, restarted, restartNow_turn]

end Sys2Proof.Proofs
